-- ==== Sys2Proof/Word.lean ====
section
/-! DEFINITION. The word types of the model: bytes, byte strings, fixed-width words, stamps (R30). Every multi-byte
field of a descriptor, completion, event entry or register is little-endian (R2). -/

namespace Sys2Proof

/-- One octet. -/
abbrev Byte := BitVec 8

/-- A byte string, first byte first. -/
abbrev Bytes := List Byte

/-- A finite map with natural-number keys, held as pairs with strictly rising keys (see `Sys2Proof/Machine/Assoc.lean`). -/
abbrev NatMap (α : Type) := List (Nat × α)

/-- A stamp (R30): grain × 4,096 + slot; 0 means "none". -/
abbrev Stamp := Nat

end Sys2Proof
end

