-- ==== Sys2Proof/Machine/Assoc.lean ====
section
/-! DEFINITION. Finite maps with natural-number keys, as lists of pairs with strictly rising keys, so that equal maps are
equal data. -/

namespace Sys2Proof

variable {α : Type}

/-- The value at a key, if there is one. -/
def mapGet? : NatMap α → Nat → Option α
  | [], _ => none
  | (k, v) :: rest, n => if k = n then some v else if n < k then none else mapGet? rest n

/-- The value at a key, or a default. -/
def mapGet (d : α) (m : NatMap α) (n : Nat) : α := (mapGet? m n).getD d

/-- The map with a key set. -/
def mapSet : NatMap α → Nat → α → NatMap α
  | [], n, v => [(n, v)]
  | (k, w) :: rest, n, v =>
    if n < k then (n, v) :: (k, w) :: rest else if n = k then (n, v) :: rest else (k, w) :: mapSet rest n v

/-- The map without a key. -/
def mapErase : NatMap α → Nat → NatMap α
  | [], _ => []
  | (k, w) :: rest, n => if k = n then rest else (k, w) :: mapErase rest n

/-- The map with a function applied at a key, from a default where the key is absent. -/
def mapUpd (d : α) (m : NatMap α) (n : Nat) (f : α → α) : NatMap α := mapSet m n (f (mapGet d m n))

/-- Keys strictly rising. -/
def mapSorted : NatMap α → Bool
  | [] => true
  | [_] => true
  | (a, _) :: (b, w) :: rest => decide (a < b) && mapSorted ((b, w) :: rest)

/-- Insertion into a list sorted by a rank, after the elements of equal rank. -/
def insertBy (le : α → α → Bool) (x : α) : List α → List α
  | [] => [x]
  | y :: ys => if le y x then y :: insertBy le x ys else x :: y :: ys

/-- Stable insertion sort. -/
def sortBy (le : α → α → Bool) : List α → List α
  | [] => []
  | x :: xs => sortInto le [x] xs
where
  /-- Inserts the rest one by one. -/
  sortInto (le : α → α → Bool) (acc : List α) : List α → List α
    | [] => acc
    | x :: xs => sortInto le (insertBy le x acc) xs

end Sys2Proof
end

