-- ==== Sys2Proof/Config.lean ====
section
/-! DEFINITION. What an implementation or the outside world fixes once, and the free values of the spec: constants with no
body, so that nothing can be proved of their value. Each free value names its entry of the assumption log. Then the
constants that the spec states. -/

namespace Sys2Proof

/-! ## Functions of named standards, left uninterpreted (log entry 2) -/

/-- SHA-384 of a byte string. -/
opaque Config.sha384 : Bytes → BitVec 384
/-- ECDSA P-384 verification: public key, message, signature (r then s). -/
opaque Config.ecdsaVerify : BitVec 768 → Bytes → BitVec 768 → Bool
/-- HKDF-SHA-384 without salt: secret, info, length; HMAC-SHA-384: key, message (R331). -/
opaque Config.hkdf : Bytes → String → Nat → Bytes
opaque Config.hmac384 : Bytes → Bytes → BitVec 384
/-- The P-384 key pair formed from 56 bytes (R331): its public key, and its signature of a message (r then s). -/
opaque Config.p384Public : Bytes → BitVec 768
opaque Config.p384Sign : Bytes → Bytes → BitVec 768
/-- What stands in the signature field of a boot record under TEST_MODE, where the ROM derives no key (R326). -/
opaque Config.testSign : Bytes → BitVec 768
/-- RFC 3394 unwrapping of 40 bytes under a key: none when the integrity check fails. -/
opaque Config.unwrapKey : BitVec 256 → Bytes → Option (BitVec 256)
/-- AES-256-GCM opening under R136: key, nonce, additional data, ciphertext, tag. -/
opaque Config.gcmOpen : BitVec 256 → BitVec 96 → Bytes → Bytes → BitVec 128 → Option Bytes
/-- AES-256-GCM sealing under R136: key, nonce, additional data, plaintext. -/
opaque Config.gcmSeal : BitVec 256 → BitVec 96 → Bytes → Bytes → Bytes × BitVec 128
/-- The 448 bytes of LDPC parity of a codeword's 4,160 bytes (R220), and the 32 check symbols of a line's 128 bytes (R267): the codes'
matrices and polynomials are not stated (log entry 122). -/
opaque Config.ldpcParity : Bytes → Bytes
opaque Config.rsCheck : Bytes → Bytes
/-- The number under which Vale keeps a key's chain entry (R68, R69), by fingerprint and place in the chain (log entry 123). -/
opaque Config.chainNumber : BitVec 64 → Nat → Nat
/-- X.509 (R332): the body of an alias certificate, by public key, subject serial number, types and measurements of the parts, manifest and
fuse security versions; and a certificate, by its body and its signature. -/
opaque Config.aliasTbs : BitVec 768 → Bytes → List (Nat × Bytes) → Nat → Nat → Bytes
opaque Config.x509 : Bytes → BitVec 768 → Bytes

/-! ## Identity and build constants of one device -/

/-- True for ordering code LKV-7416-E (R1). -/
opaque Config.extendedRange : Bool
/-- Identity fuses (R329). -/
opaque Config.lot : BitVec 64
opaque Config.wafer : BitVec 8
opaque Config.dieX : BitVec 8
opaque Config.dieY : BitVec 8
opaque Config.fabSite : BitVec 8
opaque Config.testDate : BitVec 32
/-- The unique device secret (R329), which nothing reads but the boot ROM. -/
opaque Config.deviceSecret : Bytes
/-- The certificates of the one-time-programmable area: product CA and DeviceID (R330). -/
opaque Config.productCa : Bytes
opaque Config.deviceCert : Bytes
/-- SHA-384 of the four firmware-signing public keys that the boot ROM holds (R358). -/
opaque Config.romKeyHash : Nat → BitVec 384
/-- Version of a SerDes microcode part, by its hash (R395). -/
opaque Config.serdesVersion : Bytes → BitVec 32
/-- Brodven's JEP106 code (R388) and PCI vendor ID (R338), which the spec does not give. -/
opaque Config.jep106 : BitVec 11
opaque Config.pciVendorId : BitVec 16

/-! ## Free values (each a log entry) -/

/-- Outputs of the DRBG (R297), by draw number (log entry 3). -/
opaque Config.drbg64 : Nat → BitVec 64
opaque Config.drbg32 : Nat → BitVec 32
opaque Config.drbg128 : Nat → BitVec 128
/-- The servo's filter of R411: draw number and the latest samples, newest first (log entry 4). -/
opaque Config.servoFilter : Nat → List Int → Int
/-- The normal servo slew of R411 within ±250 ns, as an increment in 2^-32 ns per time-clock edge (log entry 4). -/
opaque Config.servoGain : Nat → Int → Nat
/-- Ranegal's estimate behind a retry-after (R413, R363), in µs (log entry 5). -/
opaque Config.retryEstimate : Nat → Nat
/-- The DRAM line in which Vale keeps a fingerprint's bucket (R68: internal to Vale), a multiple of 128 (log entry 6). -/
opaque Config.bucketLine : BitVec 64 → Nat
/-- Bytes of that line that an index update of the fingerprint writes (R68, R269) (log entry 6). -/
opaque Config.bucketMask : BitVec 64 → BitVec 128
/-- Bytes that an index update puts into its line, by fingerprint and stamp (R68, R269) (log entry 6). -/
opaque Config.bucketBytes : BitVec 64 → Nat → Bytes
/-- What a checker counted by the time a test is stopped through its register (R384, R387): words compared, errors, errors injected (0, 1, 2), by
target, and the ms run (3), by the free value's number (log entry 61). -/
opaque Config.testCount : Nat → Nat → Nat → Nat
/-- Estimated device power in W (R341: estimated, no value stated) (log entry 7). -/
opaque Config.powerEstimate : Nat → Nat
/-- The PDR bytes of a PLDM record (R341 names the sensors, not the record bytes) (log entry 7). -/
opaque Config.pdr : Nat → Bytes
/-- The terminus ID of GetTID (R341 gives none) (log entry 7). -/
opaque Config.tid : BitVec 8
/-- MCTP and PLDM version numbers by message or PLDM type, SPDM's CTExponent, the number of PDRs (R338, R340, R341 name none)
(log entry 7). -/
opaque Config.mctpVersion : BitVec 8 → BitVec 32
opaque Config.pldmVersion : Nat → BitVec 32
opaque Config.spdmExponent : BitVec 8
opaque Config.pdrCount : Nat
/-- Lane signal-to-noise ratio in 0.1 dB (R395: a measurement) (log entry 8). -/
opaque Config.laneSnr : Nat → Nat
/-- Whether a quad's ETH_REFCLK is good, and whether a lane's receive polarity is inverted (R395: measured) (log entry 8). -/
opaque Config.refclkOk : Nat → Bool
opaque Config.polarity : Nat → Bool
/-- Minimum wake time in µs of the port type's clause (R175; the clauses give it, the spec does not) (log entry 9). -/
opaque Config.minWake : Nat → Nat
/-- Clock identity of the device in PTP messages (log entry 127). -/
opaque Config.clockIdentity : BitVec 64
/-- Whether the loads of the last 100 ms kept the dies more than 90 % busy (R231), by grain (log entry 10). -/
opaque Config.diesBusy : Nat → Bool
/-- Whether GC and folding have used less than their level's share of a die over the last 1 ms, and patrol less than 2 % of it over the last
1 s (R239), by grain and die key (log entry 116). -/
opaque Config.gcShareLeft : Nat → Nat → Bool
opaque Config.patrolShareLeft : Nat → Nat → Bool

/-! ## Constants that the spec states -/

namespace Config

/-- R42. -/
def maxKey : Nat := 512
def maxInlineKey : Nat := 32
def maxValue : Nat := 67108864
def maxNamespace : Nat := 1023
def maxHorizon : Nat := 34560000
/-- R85: the largest item area. -/
def maxBatchArea : Nat := 67143680
def maxBatchItems : Nat := 64
/-- R143: the longest request message. -/
def maxMessage : Nat := 67143744
def maxSegmentList : Nat := 4096
/-- R33. -/
def slotsPerGrain : Nat := 4096
def queueContexts : Nat := 4096
def holdPoints : Nat := 64
def calendarWindows : Nat := 32
/-- R69. -/
def indexReserve : Nat := 1048576
/-- R68: kept outside the index area. -/
def firmwareDram : Nat := 8589934592
/-- R232: entries of the journal buffer and of one journal page. -/
def journalBuffer : Nat := 262144
def journalPage : Nat := 512
/-- R211. -/
def maxPendingWrites : Nat := 65536
def gateBacklog : Nat := 256
/-- R255. -/
def lostRecords : Nat := 65536
/-- R349, R356: pages of the recorder area, and 90 % of them. -/
def recorderPages : Nat := 262144
def recorderWarn : Nat := 235930
/-- R347: page slots, and R349: bytes of a page's record area. -/
def recorderSlots : Nat := 16
def recordArea : Nat := 16256
/-- R313. -/
def maxWaitingApplies : Nat := 65536
/-- R306. -/
def slices : Nat := 16384
/-- R100, R334: the staging range and the slots. -/
def stagingSize : Nat := 16777216
def slotABase : Nat := 0x00100000
def slotBBase : Nat := 0x01100000
def stagingBase : Nat := 0x02100000
def spiEnd : Nat := 0x03100000
/-- R126. -/
def defaultUdpPort : Nat := 7209
/-- R142. -/
def replayWindow : Nat := 1024
/-- R30: grain numbers take 52 bits. -/
def maxGrain : Nat := 4503599627370496
/-- R394: the nominal increment and its bounds, in 2^-32 ns per 500 MHz edge. -/
def nominalIncrement : Nat := 0x200000000
def minIncrement : Nat := 0x1FFBE76C9
def maxIncrement : Nat := 0x200418937
/-- One ns in the counter's units. -/
def nsUnit : Nat := 4294967296
/-- One grain in the counter's units. -/
def grainUnit : Nat := 1000 * 4294967296
/-- R412: the uncertainty before the counter is first set. -/
def maxUncertainty : Nat := 9223372036854775807
/-- R124: exit latencies in µs, R123: idle timers in grains, R101: typical power in mW. -/
def exitLatency (p : Nat) : Nat := [0, 20, 150, 4000].getD p 0
def idleTimer (p : Nat) : Nat := [0, 5000, 100000, 10000000].getD p 0
def typicalPower (p : Nat) : Nat := [58000, 42000, 30000, 14000].getD p 0
/-- R185: buffer size of each pool, and R187. -/
def bufferSize (p : Nat) : Nat := [256, 512, 1024, 2048, 4096, 9728, 16384, 65536].getD p 0
def maxDepthOfPools : Nat := 8
/-- Buffers in a pool of `mib` MiB (R185). -/
def poolCount (p mib : Nat) : Nat := mib * 1048576 / bufferSize p
/-- R264: data bytes of DRAM for a density code and rank count: 8 data devices × 4 channels. -/
def dataDram (density ranks : Nat) : Nat := [2147483648, 3221225472, 4294967296, 8589934592].getD density 0 * 8 * ranks * 4
/-- R366: bounds of the activation pause in ms, and the quad-mode addition. -/
def quiesceBoundMs : Nat := 315
def bootBoundMs : Nat := 1085
def warmCheckMs : Nat := 100
def quadBootAddMs : Nat := 850
/-- R327: bounds of the start sequence in ms (at 256 GiB), and of the full scan in minutes. -/
def fillBoundMs : Nat := 1902
def bootMs : Nat := 600
def rebuildBoundMs : Nat := 8400
def fullScanMinutes : Nat := 25
/-- R249: the bound of the power-fail flush and the board's hold time, in ms. -/
def flushBoundMs : Nat := 12
def boardHoldMs : Nat := 20
/-- R303. -/
def latencyBoundUs : Nat := 3000

/-- R399: the ball zones: (signal, power, VSS, reserved). -/
def ballZones : List (String × Nat × Nat × Nat × Nat) :=
  [("NAND west", 320, 56, 49, 0), ("NAND shared", 13, 0, 4, 0), ("NAND east", 320, 56, 49, 0),
   ("Ethernet", 70, 72, 74, 0), ("Sideband", 63, 0, 32, 13), ("Core", 0, 302, 76, 0), ("PCIe", 70, 36, 110, 0),
   ("DRAM channel 0", 138, 28, 26, 0), ("DRAM channel 1", 138, 28, 42, 0), ("DRAM shared", 16, 0, 0, 0),
   ("DRAM channel 2", 138, 28, 42, 0), ("DRAM channel 3", 138, 28, 26, 0)]

/-- R402: the power rails: nominal in mV, tolerance in tenths of a percent, balls, maximum current in mA. -/
def rails : List (String × Nat × Nat × Nat × Nat) :=
  [("VDD_CORE", 750, 30, 220, 70000), ("VDD_SRAM", 800, 30, 60, 10000), ("VDD_AON", 750, 30, 4, 200),
   ("VDDA_ETH", 750, 30, 48, 8000), ("VDDH_ETH", 1200, 50, 24, 2000), ("VDDA_PCIE", 750, 30, 24, 3000),
   ("VDDH_PCIE", 1200, 50, 12, 1000), ("VDDQ_DRAM", 1100, 30, 96, 3000), ("VDDA_DRAM", 750, 30, 16, 1500),
   ("VCCQ_NAND", 1200, 50, 96, 3000), ("VDDA_NAND", 750, 30, 16, 1000), ("VDD_IO", 1800, 50, 16, 300),
   ("VDD_FUSE", 1800, 50, 2, 200)]

/-- R403: power by state in W: (state, typical, maximum). -/
def powerByState : List (String × Nat × Nat) :=
  [("FILL", 22, 35), ("BOOT", 20, 30), ("PS0", 58, 78), ("PS1", 42, 52), ("PS2", 30, 38), ("PS3", 14, 18),
   ("power-fail flush", 60, 60), ("after the flush", 20, 20)]

/-- R405: absolute maximum of each rail in mV. -/
def absoluteMaximum : List (String × Nat) :=
  [("VDD_CORE", 900), ("VDD_AON", 900), ("VDDA_ETH", 900), ("VDDA_PCIE", 900), ("VDDA_DRAM", 900), ("VDDA_NAND", 900),
   ("VDD_SRAM", 950), ("VDDQ_DRAM", 1300), ("VDDH_ETH", 1400), ("VDDH_PCIE", 1400), ("VCCQ_NAND", 1400),
   ("VDD_IO", 2100), ("VDD_FUSE", 2100)]

/-- R407: clock inputs: frequency in Hz and tolerance in parts per 10^10. -/
def clocks : List (String × Nat × Nat) :=
  [("TIMEBASE_CLK", 25000000, 5000), ("REFCLK_MAIN", 100000000, 1000000), ("ETH_REFCLK", 156250000, 1000000)]

/-- R409: θJC and θJB in hundredths of °C/W. -/
def thetaJC : Nat := 6
def thetaJB : Nat := 180

end Config

end Sys2Proof
end

