-- ==== Sys2Proof/Syntax.lean ====
section
/-! DEFINITION. The commands of the block: one constructor of `Instr` per row of the opcode table, and the operands they
carry. An operand that the outside world supplies (host memory, a frame, a pin level, what a die or a master shows) is
data of the command. A row that Col stamps carries a flag `edge`: true when the grain's edge follows the arrival at once,
false when the arrival waits at Col's intake for a later edge (R9, R31). -/

namespace Sys2Proof

/-! ## Descriptors and their carriers -/

/-- The 64-byte command descriptor (R73). `keyField` is the 32 bytes at offset 0x20, byte 0x20 in bits [7:0]. -/
structure Descriptor where
  opcode   : BitVec 8
  flags    : BitVec 8
  tag      : BitVec 16
  ns       : BitVec 16
  keyLen   : BitVec 16
  valLen   : BitVec 32
  timeout  : BitVec 16
  aux      : BitVec 16
  stampArg : BitVec 64
  valAddr  : BitVec 64
  keyField : BitVec 256
  deriving DecidableEq, Repr

/-- What carries a command (R31, R94, R339): a data ring by its queue context, a function's admin ring, a wire session
with the request's sequence, or the management path. -/
inductive Carrier where
  | ring  (ctx : Nat)
  | admin (fn : Nat)
  | wire  (session : Nat) (seq : BitVec 32)
  | mgmt
  deriving DecidableEq, Repr

/-- The memory that a command's addresses reach: extents of (first address, bytes). On a host ring these are bus addresses
of the function's DMA space, on a wire session or the management path offsets from the descriptor's first byte (R75). -/
abbrev Area := List (Nat × Bytes)

/-- A command as it reaches Col's intake. -/
structure Submission where
  carrier : Carrier
  desc    : Descriptor
  area    : Area
  deriving DecidableEq, Repr

/-! ## Operands of the event rows -/

/-- A buffer handle (R187): pool, index, generation. -/
structure Handle where
  pool  : Nat
  index : Nat
  gen   : Nat
  deriving DecidableEq, Repr

/-- A 16-bit owner tag (R187): requester class in bits [15:12], number in bits [11:0]; admin rings use 4,096 + function. -/
structure OwnerTag where
  cls    : Nat
  number : Nat
  deriving DecidableEq, Repr

/-- A ring that Ranegal fetches from. -/
inductive RingId where
  | data  (ctx : Nat)
  | admin (fn : Nat)
  deriving DecidableEq, Repr

/-- How a DMA transfer for a command ended (R113): done, or a read of the field at a descriptor offset failed. -/
inductive DmaResult where
  | done
  | readFailed (offset : Nat)
  deriving DecidableEq, Repr

/-- What reading a word of on-chip SRAM shows (R277): nothing, a corrected single-bit error, or a double-bit error that poisons the word. -/
inductive SramFault where
  | clean
  | corrected
  | doubleBit
  deriving DecidableEq, Repr

/-- What a cipher pair meets on the work unit it takes (R277, R283, R295). `laneMismatch` lists the pairs that disagree in turn
before one agrees; `tagFailed` is a unit whose tag does not check; `corrected` and `poisoned` are a single-bit and a double-bit error in a
word of the unit's bytes in Basin. -/
inductive CipherFault where
  | none
  | laneMismatch (pairs : List Nat)
  | tagFailed
  | corrected
  | poisoned
  deriving DecidableEq, Repr

/-- The layers of an arriving frame above its EtherType, as the parser finds them (R170, R202): IP version 0 none, 1 IPv4, 2 IPv6; IP
protocol or next header; an IPv4 address stands in the upper 32 bits; `dst` of an ARP frame is its target. `fault` 0 none, 1 outside
*Encapsulation*, 2 IPv4 header checksum, 3 UDP checksum or length (R127). `asks` tells neighbour discovery and echo requests from other ICMP
messages. `lfType` and `lfFlags` are of the Lerfold header. -/
structure RxLayers where
  version : Nat := 0
  proto   : Nat := 0
  src     : BitVec 128 := 0
  dst     : BitVec 128 := 0
  srcPort : Nat := 0
  dstPort : Nat := 0
  fault   : Nat := 0
  asks    : Bool := true
  lfType  : Nat := 0
  lfFlags : Nat := 0
  deriving DecidableEq, Repr

/-- An arriving Ethernet frame as MAC and parser see it. `len` counts destination address to FCS. `tag` is the VID of a
single 802.1Q tag, `etherType` the type or length field after it, `layers` what lies above. `fragments` counts the
continuation fragments it was reassembled from, `mergeError` a failed reassembly (R172). `fecCorrected`, `fecBad` and `fecSymbols` are
the FEC codewords corrected and not corrected, and the symbols corrected, since the frame before (R182). -/
structure RxFrame where
  port       : Nat
  len        : Nat
  codeError  : Bool
  fcsOk      : Bool
  dst        : BitVec 48
  tag        : Option Nat
  etherType  : Nat
  layers     : RxLayers
  fragments  : Nat
  mergeError : Bool
  fecCorrected : Nat := 0
  fecBad       : Nat := 0
  fecSymbols   : Nat := 0
  deriving DecidableEq, Repr

/-- The 32-byte Lerfold header (R129). -/
structure LfHeader where
  magic    : BitVec 16
  version  : BitVec 8
  type     : BitVec 8
  session  : BitVec 16
  flags    : BitVec 16
  seq      : BitVec 32
  ack      : BitVec 32
  segIndex : BitVec 16
  segCount : BitVec 16
  payLen   : BitVec 32
  credit   : BitVec 32
  crc      : BitVec 32
  deriving DecidableEq, Repr

/-- A Lerfold frame that passed the parser, with the addresses the session binding is compared with (R131). `counter` and
`tag` are the SECURE fields of R136; `payload` is then the ciphertext. `udpPort` is the destination UDP port, `udpLen` the UDP payload
length in bytes. -/
structure LfFrame where
  port    : Nat
  srcIp   : BitVec 128
  srcPort : BitVec 16
  dstIp   : BitVec 128
  vlan    : Option Nat
  udpPort : BitVec 16 := 7209
  udpLen  : Nat
  header  : LfHeader
  counter : BitVec 64
  tag     : BitVec 128
  payload : Bytes
  deriving DecidableEq, Repr

/-- A frame that the control cores handle (R127, R133, R170, R175). -/
inductive ControlFrame where
  | resolution (ip : BitVec 128) (mac : BitVec 48)
  | addressRequest (ip asker : BitVec 128) (mac : BitVec 48)
  | echoRequest (ip asker : BitVec 128) (mac : BitVec 48) (ident : BitVec 32) (data : Bytes)
  | lldp (partnerTw : Option Nat) (preempt : Bool)
  deriving DecidableEq, Repr

/-- A PTP Announce as it bears on best-master selection (R17, R18): `rank` is the data-set comparison order of IEEE 1588
(lower is better), `arb` an ARB timescale, `domain` and `logInterval` the message's own. -/
structure Announce where
  port        : Nat
  clock       : BitVec 64
  rank        : Nat
  domain      : Nat
  logInterval : Int
  arb         : Bool
  deriving DecidableEq, Repr

/-- A Sync exchange as the port measures it (R17, R411): the master's clock identity, the raw difference in ns, and the log intervals
that its Sync and Delay_Resp messages announce. -/
structure SyncExchange where
  port     : Nat
  clock    : BitVec 64
  raw      : Int
  syncLog  : Int
  delayLog : Int
  deriving DecidableEq, Repr

/-- A map datagram (R309, R310): its header fields, source and payload. `crcOk` is computed over header and payload. -/
structure MapDatagram where
  port     : Nat
  srcIp    : BitVec 128
  srcPort  : BitVec 16
  type     : Nat
  magic    : BitVec 16
  version  : Nat
  epoch    : Nat
  manager  : Nat
  fragment : Nat
  count    : Nat
  payLen   : Nat
  mapStamp : Nat
  reserved : Nat
  crcOk    : Bool
  payload  : Bytes
  deriving DecidableEq, Repr

/-- Strap balls sampled at a reset release (R325). -/
structure Straps where
  role : BitVec 2
  boot : BitVec 2
  test : Bool
  deriving DecidableEq, Repr

/-- What the DRAM training of FILL finds (R264, R265): `fail` gives the failing channel and step. -/
structure DramTraining where
  rate    : Nat
  density : Nat
  ranks   : Nat
  fail    : Option (Nat × Nat)
  deriving DecidableEq, Repr

/-- What a start finds besides the contents that the model holds: on the SPI NOR (R328, R336) whether SFDP and size are usable, how many
ring slots failed before one was written, which pages of the copy failed, whether the fuse blow verified, and the octal
mode; in the metadata region whether the stored pool split (R186) and the stored bank assignment (R198) are unreadable. -/
structure RomFindings where
  sfdpOk      : Bool
  octal       : Bool
  ringRetries : Nat
  copyFails   : Bool
  fuseOk      : Bool
  splitBad    : Bool := false
  banksBad    : Bool := false
  deriving DecidableEq, Repr

/-- The NAND population that discovery finds (R215, R216): the arrangement, the die geometry, for each of the 32 channels
the present die indices, channels that fail training, dies refused with their cause of source 112, and the blocks that the factory has
marked bad, by channel, die index and block. -/
structure NandPopulation where
  cell       : Nat
  ces        : Nat
  luns       : Nat
  blocks     : Nat
  pages      : Nat
  rate       : Nat
  iface      : Nat
  rating     : Nat
  present    : List Nat
  failedCh   : List Nat
  refused    : List (Nat × Nat × Nat)
  bad        : List (Nat × Nat × Nat) := []
  deriving DecidableEq, Repr

/-- What REBUILD meets on the media (R251 to R253): the population, whether the time had been set, and an unreadable
piece that forces the full scan (0 none, 1 catalogue, 2 slice image, 3 journal page, 4 sequence gap, 5 block map), and
the durations of the phases in ms. -/
structure RebuildFindings where
  nand      : NandPopulation
  scanCause : Nat
  headerMs  : Nat
  loadMs    : Nat
  replayMs  : Nat
  deriving DecidableEq, Repr

/-- How a codeword read went (R236): the level it decoded at and whether softly, with the corrected bits; or that every
level failed. -/
inductive CodewordOutcome where
  | hard (level bits : Nat)
  | soft (level : Nat)
  | failed
  deriving DecidableEq, Repr

/-- What reading a DRAM line shows (R268, R270, R273): clean, the positions of the corrected symbols in the line (R267), uncorrectable, or
the poison signature. -/
inductive LineOutcome where
  | clean
  | corrected (positions : List Nat)
  | uncorrectable
  | poisonSignature
  deriving DecidableEq, Repr

/-- A DRAM line: channel, rank, byte address (a multiple of 128) and, for an index line, the checkpoint slice it is in. -/
structure DramLine where
  channel : Nat
  rank    : Nat
  addr    : Nat
  slice   : Option Nat
  deriving DecidableEq, Repr

/-- Why a merge entry retires, or what enters the buffer (R269). -/
inductive MergeCause where
  | idle
  | fullMask
  | evicted
  deriving DecidableEq, Repr

/-- What a pattern-test target's checker counted (R386): bits compared, bit errors, injected bits. Its locks are state. -/
structure TestResult where
  target     : Nat
  compared   : Nat
  errors     : Nat
  injected   : Nat
  deriving DecidableEq, Repr

/-- A frame from the target on a peer session, as the source checks it (R311, R313): ACK, CREDIT, NAK or the RESPONSE of
an APPLY, COMPARE or COPY_DONE, the checks passed, its sequence, its acknowledgement, its credit grant, the completion's status and detail. -/
structure PeerFrame where
  pair    : Nat
  type    : Nat
  valid   : Bool
  seq     : BitVec 32
  ack     : BitVec 32
  credit  : BitVec 32
  status  : Nat
  detail  : Nat
  payload : Bytes := []
  deriving DecidableEq, Repr

/-- An SPDM or MCTP requester's choice where a request carries one. -/
abbrev MeasurementIndex := Nat

/-! ## The commands -/

/-- One constructor per row of the opcode table. -/
inductive Instr where
  -- data opcodes (R77)
  | get (c : Submission) (edge : Bool)
  | getAsOf (c : Submission) (edge : Bool)
  | versions (c : Submission) (edge : Bool)
  | enumerate (c : Submission) (edge : Bool)
  | put (c : Submission) (edge : Bool)
  | putIf (c : Submission) (edge : Bool)
  | delete (c : Submission) (edge : Bool)
  | deleteSecure (c : Submission) (edge : Bool)
  | batch (c : Submission) (edge : Bool)
  | touch (c : Submission) (edge : Bool)
  | flush (c : Submission) (edge : Bool)
  | abort (c : Submission) (edge : Bool)
  | nop (c : Submission) (edge : Bool)
  -- admin opcodes (R94)
  | queueCreate (c : Submission) (edge : Bool)
  | queueDelete (c : Submission) (edge : Bool)
  | queueReset (c : Submission) (edge : Bool)
  | namespaceSet (c : Submission) (edge : Bool)
  | namespaceDelete (c : Submission) (edge : Bool)
  | keyPageLoadLoad (c : Submission) (edge : Bool)
  | keyPageLoadKek (c : Submission) (edge : Bool)
  | keyPageRetire (c : Submission) (edge : Bool)
  | sessionOpen (c : Submission) (edge : Bool)
  | sessionClose (c : Submission) (edge : Bool)
  | healthGet (c : Submission) (edge : Bool)
  | timeGet (c : Submission) (edge : Bool)
  | scheduleSet (c : Submission) (edge : Bool)
  | holdSet (c : Submission) (edge : Bool)
  | holdRelease (c : Submission) (edge : Bool)
  | timeSetConfigure (c : Submission) (edge : Bool)
  | timeSetSetTod (c : Submission) (edge : Bool)
  | timeSetReadmit (c : Submission) (edge : Bool)
  | recordReadRecords (c : Submission) (edge : Bool)
  | recordReadPages (c : Submission) (edge : Bool)
  | recordClear (c : Submission) (edge : Bool)
  | fwDownload (c : Submission) (edge : Bool)
  | fwActivate (c : Submission) (edge : Bool)
  | fwStatus (c : Submission) (edge : Bool)
  | fwConfirm (c : Submission) (edge : Bool)
  | roleSet (c : Submission) (edge : Bool)
  | mapSetIdentity (c : Submission) (edge : Bool)
  | mapSetMap (c : Submission) (edge : Bool)
  | pairStart (c : Submission) (edge : Bool)
  | pairEndCancel (c : Submission) (edge : Bool)
  | pairEndKeepSource (c : Submission) (edge : Bool)
  | pairEndKeepTarget (c : Submission) (edge : Bool)
  | linkTest (c : Submission) (edge : Bool)
  | identifyDevice (c : Submission) (edge : Bool)
  | identifyNamespace (c : Submission) (edge : Bool)
  | portSetQuad (c : Submission) (edge : Bool)
  | portSetPort (c : Submission) (edge : Bool)
  | portSetUdpPort (c : Submission) (edge : Bool)
  -- pair messages on the target's peer session (R311)
  | apply (c : Submission) (edge : Bool)
  | compare (c : Submission) (edge : Bool)
  | copyDone (c : Submission) (edge : Bool)
  | propose (c : Submission) (edge : Bool)
  | mark (c : Submission) (edge : Bool)
  -- the source's side of a pair (R313 to R317)
  | proposeCompletion (pair status : Nat) (edge : Bool)
  | markCompletion (pair : Nat) (edge : Bool)
  | proposeSend (pair : Nat)
  | markSend (pair : Nat)
  | bulkCopyStep (pair : Nat) (reads : List CodewordOutcome) (edge : Bool)
  | peerLost (pair : Nat)
  -- doorbells and ring enables (R107, R109, R112)
  | sqTail (fn ctx : Nat) (value : BitVec 32)
  | cqHead (fn ctx : Nat) (value : BitVec 32)
  | adminSqTail (fn : Nat) (value : BitVec 32)
  | adminCqHead (fn : Nat) (value : BitVec 32)
  | eventHead (fn : Nat) (value : BitVec 32)
  | admEnSet (fn : Nat)
  | admEnClear (fn : Nat)
  | evtEnSet (fn : Nat)
  | evtEnClear (fn : Nat)
  -- register-port operations
  | basinSave
  | glenSave
  | ruleAdd (edge : Bool)
  | ruleRemove (edge : Bool)
  | ruleSetResult (edge : Bool)
  | holeRestore (table : Nat)
  | lockSubmit (edge : Bool)
  | testStart
  | testStop (elapsedMs : Nat) (results : List TestResult)
  | registerWrite (fn bar off width : Nat) (value : BitVec 64)
  | tapInstructionLoad (code : BitVec 8)
  -- ring fetch (R110, R113, R114)
  | dataRingFetch (ctx : Nat) (entries : List (BitVec 512 × Area))
  | adminRingFetch (fn : Nat) (entries : List (BitVec 512 × Area))
  | fetchFailure (ring : RingId) (status : Nat)
  | dmaDone (id : Nat) (result : DmaResult) (edge : Bool)
  | heldTimeout (ctx : Nat)
  -- Col and the pipeline
  | grainEdge (idle : Nat)
  | commandTimeout (id : Nat) (edge : Bool)
  | gateProceed (id : Nat)
  | indexUpdateDone (id : Nat) (poisoned : Bool)
  | journalEntryWritten (id : Nat) (edge : Bool)
  | firstByteReleased (id : Nat) (edge : Bool)
  | bufferGrant (pool : Nat)
  | bufferRelease (handle : Handle) (requester : OwnerTag) (edge : Bool)
  | waitListTimeout (pool : Nat)
  | fetchHoldTimeout
  | gorgeWorkUnit (fault : CipherFault)
  | entropyTestFailure (test : Nat)
  -- frames and the wire
  | frameReceive (frame : RxFrame)
  | requestSegmentReceive (frame : LfFrame)
  | pingReceive (frame : LfFrame)
  | pongReceive (frame : LfFrame)
  | ackSend (session : Nat)
  | creditSend (session : Nat)
  | reassemblyTimeout (session : Nat) (seq : BitVec 32)
  | keepalivePing (session : Nat)
  | keepaliveExpiry (session : Nat) (edge : Bool)
  | frameCounterExhausted (session : Nat) (edge : Bool)
  | sessionFree (session : Nat)
  | sessionOpenResolveTimeout (session : Nat)
  | responseSegmentSend (session : Nat) (seq : BitVec 32)
  | frameTransmit (port : Nat) (late part : Bool)
  | thresholdDecay (port : Nat)
  | controlFrameReceive (port : Nat) (frame : ControlFrame)
  -- time
  | syncReceive (exchange : SyncExchange)
  | timeStep
  | announceReceive (announce : Announce)
  | announceReceiptTimeout (port : Nat)
  | timePortReturn
  | pdelayReqReceive (port : Nat) (receiveNs transmitNs correction : Nat) (requester : BitVec 80) (seqId : BitVec 16)
  | delayReqSend (port : Nat)
  | ppsInEdge (ns : Nat)
  | ppsInMissing
  | ppsOutEdge
  | timebaseClkFault (ppm : Int)
  | holdoverHalf
  | holdoverLimitReached
  | calendarStartEdge (window : Nat) (edge : Bool)
  | calendarEndEdge (window : Nat) (edge : Bool)
  | idleTimerExpiry (power : Nat) (edge : Bool)
  -- the map on the network
  | mapPublishReceive (datagram : MapDatagram) (edge : Bool)
  | mapRequestReceive (datagram : MapDatagram)
  | mapPublishTimer
  | mapGatherTimeout
  | mapSilenceTimeout
  -- links
  | autonegPageReceived (port : Nat)
  | linkTrainingDone (port : Nat) (taps : BitVec 24)
  | c2mLinkUp (port : Nat) (taps : BitVec 24)
  | trainingTimeout (port : Nat)
  | autonegRestart (port : Nat)
  | linkFault (port cause : Nat)
  | preemptVerifyDone (port : Nat) (ok : Bool)
  | lpiEntry (port : Nat)
  -- power, reset and temperature
  | powerOn (straps : Straps)
  | sysReset (straps : Straps)
  | pwrGoodLoss
  | pwrFailNotice (edge : Bool)
  | pwrFailRelease
  | holdupOkDeassert
  | holdupOkStable
  | temperatureSample (celsius : Int)
  | thermalWarning (celsius : Int)
  | thermtrip (celsius : Int)
  | thermalBackstop
  | fatalMemoryFault (core addr : Nat)
  | perst (edge : Bool)
  | hotReset (edge : Bool)
  | pcieLinkDown (edge : Bool)
  | pcieLinkChange (speed width : Nat)
  | functionLevelReset (fn : Nat) (edge : Bool)
  | vfEnableClear (edge : Bool)
  | d3hotEntry (fn : Nat)
  | d0Return (fn : Nat)
  | pcieLoopback (enter : Bool)
  -- start-up and update
  | fillDone (training : DramTraining) (rom : RomFindings)
  | rebuildRun (findings : RebuildFindings)
  | serviceEntry
  | activationPreparationDone (edge : Bool)
  | quiesceTimeout
  | warmRestart (rom : RomFindings)
  | trialHalfWindow
  | trialWindowExpiry (edge : Bool)
  | linkTestQuiesceTimeout
  | linkTestEnd (results : List TestResult)
  -- flash media
  | programDone (slot : Nat) (edge : Bool)
  | programFailure (slot channel : Nat) (edge : Bool)
  | eraseDone (channel die block : Nat) (edge : Bool)
  | eraseFailure (channel die block : Nat) (edge : Bool)
  | codewordReadDone (channel die : Nat) (outcome : CodewordOutcome) (edge : Bool)
  | xorRebuild (id : Nat) (edge : Bool)
  | forcedProgramIdle (slot : Nat)
  | forcedProgramWriteThrough (slot : Nat)
  | forcedProgramPool6
  | gcStep (reads : List CodewordOutcome) (lost : Bool) (edge : Bool)
  | foldingStep (reads : List CodewordOutcome) (lost : Bool) (edge : Bool)
  | refreshStep (reads : List CodewordOutcome) (lost : Bool) (edge : Bool)
  | patrolRead (segment channel page : Nat) (reads : List CodewordOutcome) (edge : Bool)
  | patrolRateUpdate (edge : Bool)
  | patrolReread (segment channel : Nat) (reads : List CodewordOutcome) (edge : Bool)
  | patrolCycleEnd (edge : Bool)
  | checkpointTimer (lines : List (DramLine × LineOutcome)) (edge : Bool)
  | retentionSweep (edge : Bool)
  | metadataMerge (logical unit channel die : Nat) (inOrder copyFails : Bool)
  | secureDeleteErase (id : Nat)
  | namespaceRemovalDone (ns : Nat)
  | rekeySweepStep (page : Nat) (reads : List CodewordOutcome) (tagFails : Bool) (edge : Bool)
  -- memory protection
  | mergeEntryRetire (line : DramLine) (cause : MergeCause) (outcome : LineOutcome)
  | scrubRead (line : DramLine) (outcome : LineOutcome)
  | glenScrub (bank row : Nat) (copy : SramFault)
  -- recorder and settings
  | recorderFlushDone (edge : Bool)
  | settingsStore
  | healthStore
  -- management
  | smbusAlertResponse
  | setEndpointId (eid : BitVec 8)
  | getEndpointId
  | getMctpVersionSupport (type : BitVec 8)
  | getMessageTypeSupport
  | getVersion
  | getCapabilities
  | negotiateAlgorithms (p384 sha384 : Bool)
  | getDigests
  | getCertificate (slot offset length : Nat)
  | challenge (slot : Nat) (nonce : BitVec 256)
  | getMeasurements (index : MeasurementIndex) (nonce : BitVec 256)
  | vendorDefinedRequest (c : Submission) (edge : Bool)
  | getTid
  | getPldmVersion (type : Nat)
  | getPldmTypes
  | getPldmCommands (type : Nat)
  | getSensorReading (sensor : Nat)
  | getStateSensorReadings (sensor : Nat)
  | getPdrRepositoryInfo
  | getPdr (record : Nat)
  -- later rows
  | receiveLpi (port : Nat) (enter : Bool)
  | checkerLock (target : Nat)
  | checkerLockLoss (target : Nat)
  | entropyStartupTestPass
  | powerStateExitDone
  | msixVectorUnmask (fn vector : Nat)
  | peerSessionFrameReceive (frame : PeerFrame) (edge : Bool)
  | pairMessageRetransmit (pair : Nat) (seq : BitVec 32)
  | secureDeleteRelocationStep (id : Nat) (reads : List CodewordOutcome) (edge : Bool)
  | perstDeassertion
  | junctionBelowWarning (celsius : Int)
  | lldpTransmit (port : Nat)
  | testDurationEnd (results : List TestResult)
  | latchingRead (fn bar off width : Nat)
  deriving DecidableEq, Repr

end Sys2Proof
end

