-- ==== Sys2Proof/Machine/StateHost.lean ====
section
/-! DEFINITION. State groups of the host side: time and Col, events, recorder, queues, functions, interrupts. -/

namespace Sys2Proof.Machine

/-- The modes of R14, with IDENTIFY's codes 0 to 6 in this order. -/
inductive Mode where
  | fill | boot | rebuild | service | paired | maintenance | sealed
  deriving DecidableEq, Repr, Inhabited

/-- The roles of R16, with IDENTIFY's codes 0 to 2 in this order. -/
inductive Role where
  | standalone | worker | manager
  deriving DecidableEq, Repr, Inhabited

/-- Time quality (R26), with TIME_GET's codes 0 to 4 in this order. -/
inductive Quality where
  | unlocked | acquiring | locked | holdover | lost
  deriving DecidableEq, Repr, Inhabited

/-- The status codes of R81, in the table's order (their index is that of R397). -/
inductive Status where
  | success | notFound | conditionFailed | beyondHorizon | futureStamp | moved | aborted | queueReset | timedOut | noSpace
  | sealed | keyExhausted | tagFailed | poisoned | mediaUnreadable | invalidField | keyTooLong | valueTooLong
  | notPermitted | namespaceUnknown | tagInUse | busyRetry | timeUnlocked | updateRefused
  deriving DecidableEq, Repr, Inhabited

/-- A completion's content apart from tag, ring head and phase (R78). -/
structure Result where
  status  : Status := .success
  commit  : Stamp := 0
  length  : Nat := 0
  detail  : Nat := 0
  version : Nat := 0
  deriving DecidableEq, Repr, Inhabited

/-- A completion as posted (R78). -/
structure Completion where
  tag    : BitVec 16 := 0
  head   : Nat := 0
  phase  : Bool := true
  result : Result := {}
  deriving DecidableEq, Repr, Inhabited

/-- An event entry (R115). -/
structure EventEntry where
  source   : Nat
  phase    : Bool := true
  overflow : Bool := false
  lost     : Nat := 0
  seqNo    : Nat := 0
  stamp    : Stamp := 0
  data     : BitVec 128 := 0
  deriving DecidableEq, Repr, Inhabited

/-! ## Time (R17 to R29, R38, R394, R411, R412) -/

/-- A calendar window (R38, R99). `anchor` is the grain before which no edge fires. -/
structure Window where
  enable   : Bool := false
  period   : Nat := 1000
  start    : Nat := 0
  duration : Nat := 1
  gc       : Nat := 255
  patrol   : Nat := 255
  floor    : Nat := 255
  hold     : Bool := false
  /-- Lowest grain whose start edge, and lowest grain whose end edge, may still fire. -/
  started  : Nat := 0
  ended    : Nat := 0
  /-- A SCHEDULE_SET has ended or disabled the window while it was active: its end edge is owed (R99). -/
  endOwed  : Bool := false
  deriving DecidableEq, Repr, Inhabited

/-- A PTP master seen on a port (R18): its Announce and how many Announce messages have qualified it. -/
structure Master where
  ann   : Announce
  count : Nat := 1
  since : Nat := 0
  /-- Grain of its latest Announce. -/
  last  : Nat := 0
  deriving DecidableEq, Repr

/-- The time configuration of TIME_SET CONFIGURE (R97), as it is stored. -/
structure TimeConfig where
  source    : Nat := 0
  timePort  : Nat := 255
  backup    : Nat := 255
  limit     : Nat := 100
  profile   : Nat := 0
  domain    : Nat := 0
  transport : Nat := 0
  delay     : Nat := 0
  asym      : Nat := 0
  deriving DecidableEq, Repr, Inhabited

/-- Time counter, servo and calendar. -/
structure Time where
  /-- The counter in units of 2^-32 ns (R394), and whether it runs (from the first release of the cores, R23). -/
  counter     : Nat := 0
  running     : Bool := false
  /-- Time-clock edges since the cores were first released: the local clock of R3, which no slew and no step touches. -/
  edges       : Nat := 0
  /-- Time-clock increment in units of 2^-32 ns per 500 MHz edge (INCREMENT, R394). -/
  increment   : Nat := Config.nominalIncrement
  /-- The counter has been set from the reference (R23). -/
  isSet       : Bool := false
  quality     : Quality := .unlocked
  relocked    : Bool := false
  lockedBoot  : Bool := false
  /-- The first grain in which time became LOCKED since boot (R24). -/
  lockGrain   : Nat := 0
  config      : TimeConfig := {}
  /-- Offset estimate in ns (R412), the samples since the reference became valid, newest first, at most 16. -/
  offset      : Int := 0
  samples     : List Int := []
  /-- Consecutive samples in bound, and consecutive samples out of ±250 ns (R26). -/
  inBound     : Nat := 0
  outBound    : Nat := 0
  /-- Uncertainty in ns at the counter value `uncAt` (ns); it grows from there while no reference is valid (R412). -/
  uncBase     : Nat := Config.maxUncertainty
  uncAt       : Nat := 0
  /-- Source 23 has been raised in this holdover (R27). -/
  halfRaised  : Bool := false
  /-- Port of the master in use and its identity (R18). -/
  inUse       : Nat := 255
  masterId    : BitVec 64 := 0
  /-- Best master of the time port and of the backup port. -/
  mainMaster  : Option Master := none
  backMaster  : Option Master := none
  /-- Masters outside the Sync and Delay_Req ranges of R17, which count as absent: port and clock identity. -/
  absent      : List (Nat × BitVec 64) := []
  /-- PPS: TAI second waiting to apply at the next edge, applied flag, counter (ns) at the last edge, missing flag. -/
  todPending  : Option Nat := none
  todApplied  : Bool := false
  /-- TAI second of the last PPS_IN edge, once a SET_TOD applies. -/
  refSecond   : Nat := 0
  ppsLast     : Nat := 0
  ppsMissing  : Bool := false
  /-- PPS_OUT: the second (ns) from which it is high for 1 ms, and its level. -/
  ppsOutAt    : Nat := 0
  ppsOut      : Bool := false
  /-- TIMEBASE_CLK: fault since power-on (R20), deviation in 0.01 ppm. -/
  clkFault    : Bool := false
  ppm         : Int := 0
  /-- A forward step (ns to add) due at the next grain edge (R21, R22). -/
  stepDue     : Option Int := none
  skipped     : Nat := 0
  carried     : Nat := 0
  /-- A TIME_SEAL has followed the latest boot record (R337). -/
  sealed      : Bool := false
  windows     : NatMap Window := []
  deriving DecidableEq, Repr

/-! ## Events and recorder (R344 to R357, R375 to R381) -/

/-- A raise waiting for the end of the grain: function and entry content (R379, R380). -/
structure Raise where
  fn     : Nat
  source : Nat
  stamp  : Stamp
  data   : BitVec 128
  deriving DecidableEq, Repr, Inhabited

/-- The rate limit of one source and subkey (R380): grain of its last raise and occurrences held back since. -/
structure Limit where
  source : Nat
  sub    : Nat
  last   : Nat
  held   : Nat
  deriving DecidableEq, Repr, Inhabited

/-- Mask, route and lost-entry state of one function's event ring (R117, R379). -/
structure EventFn where
  /-- MASK: bit s masks source s. -/
  mask  : BitVec 256 := 0
  /-- ROUTE of the 16 groups: EN and VECTOR, by group number. -/
  route : NatMap (BitVec 16) := []
  deriving DecidableEq, Repr, Inhabited

/-- A recorder record (R344). -/
structure Record where
  type  : Nat
  seqNo : Nat
  stamp : Stamp
  data  : Bytes
  deriving DecidableEq, Repr, Inhabited

/-- A recorder page, sealed (R349); `hash` is the SHA-384 of its 16,384 bytes. -/
structure RecPage where
  seqNo   : Nat
  boot    : Nat
  grain   : Nat
  partial_ : Bool
  carried : Bool
  prev    : BitVec 384
  recs    : List Record
  hash    : BitVec 384
  deriving DecidableEq, Repr, Inhabited

/-- Terrace (R344 to R357). -/
structure Terrace where
  nextSeq    : Nat := 0
  /-- Open slot: records in sequence order, and whether it opens with records kept from an earlier session (R350). -/
  open_      : List Record := []
  openCarried : Bool := false
  /-- Sealed slots awaiting flush, oldest first (at most 16 with the open slot). -/
  sealed     : List RecPage := []
  /-- Pages held in the recorder area, oldest first. -/
  pages      : List RecPage := []
  /-- Last page sealed: sequence and hash, 0 on blank media. -/
  lastSeq    : Nat := 0
  lastHash   : BitVec 384 := 0
  /-- Always-on anchor (R351). -/
  anchorValid : Bool := false
  anchorSeq  : Nat := 0
  anchorHash : BitVec 384 := 0
  /-- Policy of R354: false HOLD, true RING; and the counters of R356. -/
  ring       : Bool := false
  notKept    : Nat := 0
  /-- Records not kept in this session, whatever clears (R333, R356). -/
  sessionLost : Nat := 0
  ringDropped : Nat := 0
  clearNonce : BitVec 64 := 0
  deriving DecidableEq, Repr, Inhabited

/-! ## Host attachment (R102 to R125, R397) -/

/-- The carrier that a bound queue context serves. -/
inductive Binding where
  | ring
  | session
  deriving DecidableEq, Repr, Inhabited

/-- A submission/completion ring pair (R108 to R112, R118): a data ring or an admin ring. -/
structure Ring where
  fn       : Nat := 0
  sqBase   : Nat := 0
  cqBase   : Nat := 0
  sqSize   : Nat := 4
  cqSize   : Nat := 4
  vector   : Nat := 0
  intr     : Bool := false
  fetch    : Nat := 0
  tail     : Nat := 0
  cqTail   : Nat := 0
  cqHead   : Nat := 0
  phase    : Bool := true
  held     : Bool := false
  heldSince : Nat := 0
  heldRaised : Bool := false
  faulted  : Bool := false
  discard  : Nat := 0
  resume   : Nat := 0
  /-- Commands fetched from it so far (positions of R32). -/
  position : Nat := 0
  /-- Completion entries posted and not yet returned; commands fetched and not yet posted. -/
  posted   : Nat := 0
  fetched  : Nat := 0
  deriving DecidableEq, Repr, Inhabited

/-- An event ring (R116, R117). -/
structure EventRing where
  live    : Bool := false
  base    : Nat := 0
  size    : Nat := 4
  tail    : Nat := 0
  head    : Nat := 0
  phase   : Bool := true
  seqNo   : Nat := 0
  lost    : Nat := 0
  /-- Pending overflow: source, lost count, latest raise. -/
  overs   : NatMap (Nat × Raise) := []
  deriving DecidableEq, Repr, Inhabited

/-- What a function in D3hot holds back (R121): a completion of a data ring, or of its admin ring; an event. -/
inductive Held where
  | post (ctx : Option Nat) (tag : BitVec 16) (result : Result)
  | event (r : Raise)
  deriving DecidableEq, Repr

/-- What R102, R113 and R121 name of a function's configuration space. No row writes it: the values are those of reset (log entry 124),
but for MSI-X Enable, which an access to the MSI-X table shows set. -/
structure PciFn where
  /-- Max Payload Size and Max Read Request Size in bytes. -/
  maxPayload : Nat := 128
  maxRead    : Nat := 512
  /-- Enable Relaxed Ordering. -/
  relaxed    : Bool := true
  /-- MSI-X Enable and Function Mask; the capability's BAR. -/
  msixEnable : Bool := false
  msixMask   : Bool := false
  msixBar    : Nat := 0
  noSoftReset : Bool := true
  /-- AER: uncorrectable and correctable error status. -/
  uncorrectable : BitVec 32 := 0
  correctable   : BitVec 32 := 0
  deriving DecidableEq, Repr

/-- The SR-IOV capability's values, and ARI (R103). -/
structure SrIov where
  totalVfs    : Nat := 63
  firstOffset : Nat := 1
  stride      : Nat := 1
  /-- ARI Capable Hierarchy: set before NumVFs goes above 7. -/
  ari         : Bool := false
  deriving DecidableEq, Repr

/-- A function page and what goes with it (R107, R119, R121, R286). -/
structure Fn where
  pci       : PciFn := {}
  ctrl      : BitVec 32 := 0
  cfgCode   : Nat := 0
  admFault  : Bool := false
  cfgError  : Bool := false
  evtReady  : Bool := false
  admReady  : Bool := false
  /-- ADM_EN has gone to 0 while admin commands run (R107). -/
  admClosing : Bool := false
  sqBase    : BitVec 64 := 0
  cqBase    : BitVec 64 := 0
  admCfg    : BitVec 32 := 0
  evtBase   : BitVec 64 := 0
  evtCfg    : BitVec 32 := 0
  hostErr   : Nat := 0
  doorErr   : Nat := 0
  admin     : Ring := {}
  events    : EventRing := {}
  d3hot     : Bool := false
  /-- MSI-X: masked vectors are absent entries; address and data by vector, unmasked and pending bits. -/
  msix      : NatMap (BitVec 64 × BitVec 32 × BitVec 32) := []
  pendingMsi : List Nat := []
  /-- Completions and event entries held because of D3hot (R121), oldest first. -/
  heldBack  : List Held := []
  /-- Vectors to signal at the end of the grain (R115). -/
  signal    : List Nat := []
  /-- Staging area of the key-page window (R284). -/
  stage     : Bytes := []
  kek       : Option (BitVec 256) := none
  kekVersion : Nat := 0
  nonce     : BitVec 64 := 0
  deriving DecidableEq, Repr

/-- Host block: functions, data rings, link, counters. -/
structure HostSide where
  fns        : NatMap Fn := []
  rings      : NatMap Ring := []
  /-- Virtual functions enabled (NumVFs while VF Enable is set); configuration writes have no row, so an access by function k
  shows that k are enabled (log entry 15). -/
  vfs        : Nat := 0
  sriov      : SrIov := {}
  /-- Number of the ring that had the last turn (R110). -/
  turn       : Nat := 8191
  /-- Commands caught, and kept, by the resets of a reset of every function, so far (R120). -/
  flrCaught  : Nat := 0
  flrKept    : Nat := 0
  linkSpeed  : Nat := 0
  linkWidth  : Nat := 0
  /-- PERST# asserted, and the link in Loopback as follower (R387). -/
  perst      : Bool := false
  loopback   : Bool := false
  /-- Loopback states entered (1) or left (0) whose source 226 waits for the link to come up (R381). -/
  loopPending : List Nat := []
  /-- STATUS_TOTAL and CTX_COUNT (R397): by status index; by context × 32 + status index. -/
  total      : NatMap Nat := []
  ctxCount   : NatMap Nat := []
  /-- Power (R123 to R125): state, grain from which the device is idle, state being left and the grain of the arrival. -/
  power      : Nat := 0
  idleSince  : Nat := 0
  exiting    : Option Nat := none
  /-- Data-ring fetch hold by the fetch reserve (R194): grain from which it holds, and whether 181 was raised. -/
  fetchHold  : Option Nat := none
  fetchRaised : Bool := false
  deriving DecidableEq, Repr

end Sys2Proof.Machine
end

