-- ==== Sys2Proof/Machine/StateData.lean ====
section
/-! DEFINITION. State groups of the data side: namespaces, index, directory, buffers, cipher, commands in flight. -/

namespace Sys2Proof.Machine

/-! ## Namespaces, versions and the index (R42 to R72) -/

/-- A namespace's parameters (R44). -/
structure NsParams where
  owner    : Nat := 0
  page     : Nat := 0
  horizon  : Nat := 0
  early    : Bool := false
  timeout  : Nat := 0
  quota    : Nat := 0
  cold     : Bool := false
  secure   : Bool := false
  expiry   : Bool := false
  deriving DecidableEq, Repr, Inhabited

/-- A namespace (R44 to R48). -/
structure Namespace where
  params   : NsParams := {}
  /-- Retention floor F (R46). -/
  floor    : Stamp := 0
  /-- Charge of writes that have proceeded and are not indexed yet (R47). -/
  charged  : Nat := 0
  /-- A quota refusal has been reported since the count was last below the quota (R47). -/
  refused  : Bool := false
  /-- Stamp at which it was created. -/
  created  : Stamp := 0
  deriving DecidableEq, Repr, Inhabited

/-- A hold point (R57) with the namespaces it protects, ascending. -/
structure Hold where
  stamp : Stamp
  ns    : List Nat
  deriving DecidableEq, Repr, Inhabited

/-- The kinds of version (R52, R70), with the header's codes 1 to 3 in this order. -/
inductive Kind where
  | value | tombstone | touch
  deriving DecidableEq, Repr, Inhabited

/-- Where a record lies: its segment and its first 256-byte unit in fill order (R219). Channel, page and unit of the
*Location word* follow from it; IN_BASIN holds while its row group is not programmed (R227). -/
structure Loc where
  segment : Nat
  unit    : Nat
  deriving DecidableEq, Repr, Inhabited

/-- A version as Vale holds it, with its record's content (R68, R70). The plaintext stands for the encrypted record. -/
structure Version where
  stamp   : Stamp
  kind    : Kind := .value
  /-- Expiry grain, 0 for none, and for a TOUCH the stamp of the version whose value it shares. -/
  expiry  : Nat := 0
  ref     : Stamp := 0
  value   : Bytes := []
  /-- Stamp of the DELETE_SECURE that destroyed it, 0 for none (R67). -/
  secured : Stamp := 0
  loc     : Option Loc := none
  wseq    : Nat := 0
  page    : Nat := 0
  gen     : Nat := 0
  counter : Nat := 0
  batch   : Nat := 1
  index   : Nat := 0
  deriving DecidableEq, Repr, Inhabited

/-- A key's entry: primary entry and chain, newest version first (R51, R68). -/
structure KeyEntry where
  ns       : Nat
  fp       : BitVec 64
  key      : Bytes
  versions : List Version
  /-- The index line that holds it is poisoned (R12, R275). -/
  poisoned : Bool := false
  deriving DecidableEq, Repr, Inhabited

/-- Index, namespaces and hold points (Vale). -/
structure Index where
  spaces    : NatMap Namespace := []
  /-- Namespaces whose removal runs (R48), with the stamp of the NAMESPACE_DELETE that completes, none after a restart. -/
  removing  : NatMap (Namespace × Option Stamp) := []
  holds     : List Hold := []
  /-- Entries in order of namespace, fingerprint, key length and key bytes (R62). -/
  keys      : List KeyEntry := []
  fpKey     : Option (BitVec 128) := none
  /-- Next write sequence and the first value not reserved yet (R71). -/
  wseq      : Nat := 0
  wseqEnd   : Nat := 0
  over90    : Bool := false
  reserveHit : Bool := false
  /-- Index checkpoint: next slice, the write sequence W of each held image, slices changed since their image (R233). -/
  ckptNext  : Nat := 0
  ckptW     : NatMap Nat := []
  ckptDirty : List Nat := []
  /-- Slices held after an uncorrectable line (R275). -/
  heldSlices : List Nat := []
  deriving DecidableEq, Repr, Inhabited

/-! ## Glen (R197 to R213) -/

/-- A rule of NAMESPACE or ACCESS (R205). -/
structure Rule where
  id       : Nat
  access   : Bool
  reqKind  : Nat
  reqNum   : Nat
  ns       : Nat
  prefix_  : Bytes
  priority : Nat
  result   : BitVec 32
  /-- The entry's valid bit and move flag (R197, R208). -/
  valid    : Bool := true
  move     : Bool := false
  deriving DecidableEq, Repr, Inhabited

/-- The rule port's registers as written (R205). -/
structure RulePort where
  op       : BitVec 2 := 0
  target   : BitVec 32 := 0
  match_   : BitVec 32 := 0
  priority : BitVec 16 := 0
  result   : BitVec 32 := 0
  prefix_  : NatMap (BitVec 32) := []
  deriving DecidableEq, Repr, Inhabited

/-- An INFLIGHT entry with its pending list, oldest first (R201, R209). -/
structure Gate where
  ns      : Nat
  fp      : BitVec 64
  pending : List Stamp
  /-- Its position in the table. -/
  pos     : Nat := 0
  deriving DecidableEq, Repr, Inhabited

/-- The associative directory. Tables are lists of positions; a free position holds no rule (R207). -/
structure Glen where
  /-- Bank assignment now and for the next start: table code and log2 width (R197, R198). -/
  banks      : List (Nat × Nat) := []
  next       : List (Nat × Nat) := []
  stored     : Option (List (Nat × Nat)) := none
  saveCode   : Nat := 0
  saveError  : Bool := false
  saveDone   : Bool := false
  defaulted  : Bool := false
  /-- Positions of NAMESPACE and of ACCESS, in position order; trailing free positions are not listed. -/
  nsTable    : List (Option Rule) := []
  accTable   : List (Option Rule) := []
  /-- Rules as stored in the metadata region (R212). -/
  rules      : List Rule := []
  port       : RulePort := {}
  busy       : Bool := false
  busyWrite  : Bool := false
  ruleId     : Nat := 0
  ruleCode   : Nat := 0
  ruleError  : Bool := false
  ruleStamp  : Stamp := 0
  /-- Hole interval log2 at the last table build. -/
  holeBuilt  : Nat := 4
  /-- Tables with holes to restore after an insertion that moved more than 2H entries (R207). -/
  restore    : List Nat := []
  moves      : Nat := 0
  /-- Sessions that a power-on or SYS_RESET# made FREE: their rules go at the next REBUILD (R206). -/
  freed      : List Nat := []
  inflight   : List Gate := []
  /-- Gate backlog: fingerprint, namespace, stamp (R211), oldest first. -/
  backlog    : List (BitVec 64 × Nat × Stamp) := []
  peak       : Nat := 0
  multi      : NatMap Nat := []
  waits      : Nat := 0
  backWaits  : Nat := 0
  stalls     : Nat := 0
  /-- The full backlog has stopped a command in this grain. -/
  stalled    : Bool := false
  deriving DecidableEq, Repr, Inhabited

/-! ## Basin (R185 to R196) -/

/-- A step of an internal requester (R32): the work that it makes a request for. -/
inductive Step where
  | checkpoint (slice w : Nat) (lines : List (DramLine × LineOutcome))
  | gc (lost : Bool)
  | fold (lost : Bool)
  | refresh (lost : Bool)
  | patrol (seg channel page : Nat) (reads : List CodewordOutcome)
  | patrolAgain (seg channel : Nat) (reads : List CodewordOutcome)
  | copy (pair : Nat)
  | rekey (page : Nat) (tagFails : Bool)
  | secure (id : Stamp)
  | recorder
  deriving DecidableEq, Repr

/-- Rank of its requester (R32), which is its number as a buffer owner (R187). -/
def Step.rank : Step → Nat
  | .checkpoint _ _ _ => 0
  | .gc _ | .fold _ | .refresh _ => 1
  | .patrol _ _ _ _ | .patrolAgain _ _ _ => 2
  | .copy _ => 3
  | .rekey _ _ => 4
  | .secure _ => 5
  | .recorder => 6

/-- Owner tag of an internal requester (R187). -/
def Step.owner (k : Step) : OwnerTag := { cls := 3, number := k.rank }

/-- What a buffer request is for: a command, the next page of a segment, a step of an internal requester by its number. -/
inductive Want where
  | work (id : Stamp)
  | page (seg : Nat)
  | step (id : Nat)
  deriving DecidableEq, Repr

/-- A buffer that has been allocated at least once: generation, allocated bit, owner, and the bytes written to it. -/
structure Buffer where
  gen   : Nat
  alloc : Bool
  owner : OwnerTag
  /-- Contents from offset 0; the bytes behind them are zero. -/
  bytes : Bytes := []
  /-- Poisoned contents (R273). -/
  poisoned : Bool := false
  deriving DecidableEq, Repr

/-- A waiting buffer request (R191, R192): its own stamp, owner, and what it is for. -/
structure Waiter where
  stamp : Stamp
  owner : OwnerTag
  wants : Want
  deriving DecidableEq, Repr

/-- A buffer pool. -/
structure Pool where
  mib     : Nat := 8
  count   : Nat := 0
  next    : Nat := 8
  buffers : NatMap Buffer := []
  free    : Nat := 0
  waiters : List Waiter := []
  peak    : Nat := 0
  waitSince : Nat := 0
  waitRaised : Bool := false
  allocs  : Nat := 0
  releases : Nat := 0
  waits   : Nat := 0
  fails   : Nat := 0
  deriving DecidableEq, Repr

/-- The buffer pool manager. -/
structure Basin where
  pools     : NatMap Pool := []
  stored    : Option (List Nat) := none
  saveCode  : Nat := 0
  saveError : Bool := false
  saveDone  : Bool := false
  defaulted : Bool := false
  doubleFree : Nat := 0
  nonOwner  : Nat := 0
  badRange  : Nat := 0
  badAlign  : Nat := 0
  badGen    : Nat := 0
  fetchHeld : Nat := 0
  deriving DecidableEq, Repr

/-! ## Gorge (R280 to R300) -/

/-- A key generation (R284): the key stays inside Gorge. -/
structure Generation where
  number : Nat := 0
  key    : BitVec 256 := 0
  salt   : BitVec 32 := 0
  uses   : Nat := 0
  /-- log2 of its usage limit: the LIMIT field, the limit in force (R392) and the one in the metadata region (R393); and whether the warning
  at 15/16 of it has been raised (R293). -/
  limit  : Nat := 40
  force  : Nat := 40
  kept   : Nat := 40
  warned : Bool := false
  deriving DecidableEq, Repr, Inhabited

/-- A key page (R284, R290 to R293). -/
structure KeyPage where
  owner    : Nat := 0
  current  : Generation := {}
  previous : Option Generation := none
  counter  : Nat := 0
  /-- First counter value not reserved yet (R291). -/
  reserved : Nat := 0
  sweep    : Bool := false
  rewritten : Nat := 0
  refused  : Bool := false
  deriving DecidableEq, Repr, Inhabited

/-- The cipher engine. -/
structure Gorge where
  /-- The storage key that the boot ROM has loaded, empty before (R285, R328 step 2). -/
  storageKey : Bytes := []
  pages      : NatMap KeyPage := []
  fenced     : List Nat := []
  pairCount  : NatMap Nat := []
  pairLast   : NatMap Nat := []
  encrypted  : Nat := 0
  decrypted  : Nat := 0
  secureFrames : Nat := 0
  tagFails   : Nat := 0
  mismatches : Nat := 0
  reseeds    : Nat := 0
  entropyFails : Nat := 0
  /-- Consecutive health-test failures, DRBG state code of GORGE_STATUS, requests since the last reseed. -/
  consecutive : Nat := 0
  drbg       : Nat := 0
  requests   : Nat := 0
  /-- Received SECURE frames that wait for their tag check, oldest first (R281 order 1). -/
  rx         : List LfFrame := []
  /-- Blocks that each pair's lanes have run since the DRBG last reseeded their mask generators (R282). -/
  maskBlocks : NatMap Nat := []
  deriving DecidableEq, Repr, Inhabited

/-! ## Commands in flight -/

/-- What a stamped command still waits for or does. -/
inductive Phase where
  | ordered | gate | buffer | media | cipher | journal | index | release | dma | program | flush | erase | admin
  deriving DecidableEq, Repr, Inhabited

/-- One write of one key (a command's own, or a BATCH item). -/
structure Item where
  opcode  : Nat
  key     : Bytes
  value   : Bytes
  arg     : Nat
  fp      : BitVec 64
  cold    : Bool
  counter : Nat := 0
  /-- Decided when it proceeds: visible version before it, stamp whose value a TOUCH shares, charge. -/
  prev    : Stamp := 0
  ref     : Stamp := 0
  charge  : Nat := 0
  /-- Placement. -/
  loc     : Option Loc := none
  wseq    : Nat := 0
  deriving DecidableEq, Repr, Inhabited

/-- A command in flight (the work record of file 01). -/
structure Work where
  stamp    : Stamp
  carrier  : Carrier
  fn       : Nat
  desc     : Descriptor
  area     : Area
  phase    : Phase
  /-- Position on its ring (R32). -/
  pos      : Nat := 0
  /-- Phase that follows the grant of a buffer it waits for. -/
  after    : Phase := .cipher
  key      : Bytes := []
  fp       : BitVec 64 := 0
  items    : List Item := []
  bound    : Stamp := 0
  /-- An APPLY on a peer session (R312). -/
  applied  : Bool := false
  /-- Deadline grain (R34), 0 for none. -/
  deadline : Nat := 0
  early    : Bool := false
  /-- It runs on a command core: by its opcode (R11), or diverted (R12). -/
  diverted : Bool := false
  /-- The namespace's settings and hold points that its stamp found (R45, R57). -/
  space    : Option Namespace := none
  holds    : List Stamp := []
  page     : Nat := 0
  gen      : Nat := 0
  /-- Cipher units done and in all. -/
  unit     : Nat := 0
  units    : Nat := 0
  /-- Chunk at which the read fails, plus one; 0 none. -/
  result   : Result := {}
  data     : Bytes := []
  /-- Version that a read returns: key entry's version stamp, and its record's location. -/
  loc      : Option Loc := none
  handles  : List Handle := []
  /-- The buffer of the value or chunk in hand (R190), and the bytes that it was requested for. -/
  buf      : Option Handle := none
  need     : Nat := 0
  /-- Codewords of its record that it has read (R220, R236); while a page of it is rebuilt, the channels whose pages of the row are
  still to be read, with the codewords left of each (R238). -/
  cw       : Nat := 0
  row      : List (Nat × Nat) := []
  /-- A point-of-no-return completion has been stamped (R35). -/
  ponr     : Bool := false
  /-- Its completion has been posted; only its index update or erase remains. -/
  posted   : Bool := false
  /-- Nothing more is written to the host for it: dropped by a reset (R119). -/
  dropped  : Bool := false
  /-- Its completion is not posted: its admin ring has been disabled (R107). -/
  muted    : Bool := false
  /-- Its exit from a power state counts as executing (R124). -/
  exit     : Bool := false
  /-- Steps left of a long duty (relocations of a DELETE_SECURE, blocks to erase, APPLYs to come). -/
  left     : Nat := 0
  applyDue : Bool := false
  deriving DecidableEq, Repr

end Sys2Proof.Machine
end

