-- ==== Sys2Proof/Machine/StateWire.lean ====
section
/-! DEFINITION. State groups of the wire: sessions, messages, responses; and Col's intake. -/

namespace Sys2Proof.Machine

/-- The session block's parameters (R132). -/
structure SessionParams where
  v6       : Bool := false
  secure   : Bool := false
  admin    : Bool := false
  vlan     : Option Nat := none
  tci      : Nat := 0
  port     : Nat := 0
  dscp     : Nat := 0
  srcPort  : BitVec 16 := 0
  srcIp    : BitVec 128 := 0
  dstIp    : BitVec 128 := 0
  initial  : BitVec 32 := 0
  credit   : Nat := 64
  budget   : Nat := 128
  keepalive : Nat := 0
  hops     : Nat := 64
  salt     : BitVec 32 := 0
  key      : BitVec 256 := 0
  deriving DecidableEq, Repr, Inhabited

/-- A request message being reassembled (R143, R144): the first-segment length P where known, count, segments held. -/
structure Message where
  seqNo   : BitVec 32
  count   : Nat
  segs    : NatMap Bytes := []
  handles : List Handle := []
  /-- Grain of the latest new segment. -/
  last    : Nat := 0
  deriving DecidableEq, Repr

/-- A response being sent (R146 to R150): data, decided result, next segment. -/
structure Response where
  seqNo    : BitVec 32
  tag      : BitVec 16
  stamp    : Stamp
  data     : Bytes
  result   : Result
  streamed : Bool
  urgent   : Bool
  /-- Data bytes of the response as it was planned: its count before R147 shortens it. -/
  planned  : Nat := 0
  next     : Nat := 0
  /-- The read still runs: `data` grows as decryption yields it (R149), and the result is not decided. -/
  growing  : Bool := false
  /-- Buffers that go back when the LAST segment is handed to a MAC (R187). -/
  handles  : List Handle := []
  deriving DecidableEq, Repr

/-- A request in the replay window (R142): completed with what, or still in progress, and its segment count. -/
structure Seen where
  seqNo  : BitVec 32
  count  : Nat
  done   : Option Completion := none
  deriving DecidableEq, Repr

/-- Session states (R134). -/
inductive SessionState where
  | resolving | open_ | closing
  deriving DecidableEq, Repr, Inhabited

/-- A wire session (R132 to R154). -/
structure Session where
  state    : SessionState := .open_
  fn       : Nat := 0
  params   : SessionParams := {}
  /-- Segment size S (R128). -/
  seg      : Nat := 0
  highest  : BitVec 32 := 0
  /-- Cumulative acknowledgement (R139), whole or refused sequences beyond it. -/
  ack      : BitVec 32 := 0
  beyond   : List (BitVec 32) := []
  /-- L of R140: lowest sequence not completed; completed sequences beyond it. -/
  lowest   : BitVec 32 := 0
  finished : List (BitVec 32) := []
  /-- Credit grant last sent. -/
  sent     : BitVec 32 := 0
  /-- An ACK is owed, and the highest sequence of a whole message for which (R139). -/
  ackOwed  : Bool := false
  ackFor   : BitVec 32 := 0
  messages : List Message := []
  seen     : List Seen := []
  responses : List Response := []
  /-- Whether a SECURE counter has been accepted, the highest, and which of the 1,024 up to it were (R137). -/
  rxAny    : Bool := false
  rxHigh   : Nat := 0
  rxSeen   : List Nat := []
  txCounter : Nat := 9223372036854775808
  /-- Keepalive: grain of the last accepted frame, PINGs sent since. -/
  lastRx   : Nat := 0
  pings    : Nat := 0
  /-- NAKs sent: sequence, reason, grain (R153). -/
  naks     : List (BitVec 32 × Nat × Nat) := []
  rx       : Nat := 0
  tx       : Nat := 0
  stamped  : Nat := 0
  replayed : Nat := 0
  refusals : NatMap Nat := []
  discards : NatMap Nat := []
  /-- Stamp of the SESSION_OPEN that waits for a resolution (R133), or of the SESSION_CLOSE that waits for FREE. -/
  closer   : Option Stamp := none
  deriving DecidableEq, Repr

/-- The wire: sessions by number, neighbour resolutions. -/
structure Wire where
  sessions  : NatMap Session := []
  neighbours : List (BitVec 128 × BitVec 48) := []
  deriving DecidableEq, Repr

/-- What a P0 reset of every function was caused by (R120). -/
inductive FlrCause where
  | function | perst | hotReset | linkDown | vfClear
  deriving DecidableEq, Repr, Inhabited

/-- A command at Col's intake: the submission, its position on its ring (R32), the pool 0 buffers of its fetch, and whether its
ring has closed since (R107, R119). -/
structure Arrival where
  c       : Submission
  pos     : Nat := 0
  hs      : List Handle := []
  dropped : Bool := false
  muted   : Bool := false
  deriving DecidableEq, Repr

/-- An event at Col's intake (R31). -/
inductive Event where
  | cmd (a : Arrival)
  -- P0
  | powerFail
  | deviceReset (rom : RomFindings)
  /-- A function's reset; `last` ends a reset of every function. -/
  | flr (fn : Nat) (cause : FlrCause) (last : Bool)
  | sessionReset (session cause : Nat)
  -- P1
  | journal (id : Stamp)
  | firstByte (id : Stamp)
  | dmaDone (id : Stamp) (r : DmaResult)
  | mediaRead (channel die : Nat) (o : CodewordOutcome)
  | xorDone (id : Stamp)
  | programDone (slot : Nat)
  | programFail (slot channel : Nat)
  | eraseDone (channel die block : Nat)
  | eraseFail (channel die block : Nat)
  | stepDone (id : Nat)
  | peerAck (f : PeerFrame)
  | proposeAnswer (pair status : Nat)
  | markAnswer (pair : Nat)
  /-- A release, with the position of the command that held the buffer. -/
  | release (h : Handle) (o : OwnerTag) (place : Nat)
  | prepared
  | seal (channel die block segment : Nat)
  -- P2 and P3: requests for buffers (R190)
  | bufRequest (id : Stamp)
  | pageRequest (seg : Nat)
  | step (k : Step) (reads : List CodewordOutcome)
  -- P6
  | ruleOp (op : Nat)
  | lockSubmit
  | mapAdopt (epoch : Nat)
  -- P7
  | timeout (id : Stamp)
  | calEnd (w : Nat)
  | calStart (w : Nat)
  | idle (p : Nat)
  | trial
  | checkpoint (lines : List (DramLine × LineOutcome))
  | patrolRate
  | patrolEnd
  | patrolReread (seg channel : Nat) (reads : List CodewordOutcome)
  | sweep
  deriving DecidableEq, Repr

/-- Col's intake: arrivals of the grain in arrival order, carried events in R31 order, and the latest stamp assigned. -/
structure Col where
  intake  : List Event := []
  carry   : List Event := []
  last    : Stamp := 0
  /-- Carried count since the last event 22, and the grain of that event. -/
  carriedSince : Nat := 0
  carriedGrain : Nat := 0
  carriedOnce : Bool := false
  deriving DecidableEq, Repr

end Sys2Proof.Machine
end

