-- ==== Sys2Proof/Machine/StateMedia.lean ====
section
/-! DEFINITION. State groups of the media: segments, dies, journal, metadata region, patrol, health; and bulk DRAM. -/

namespace Sys2Proof.Machine

/-- What a record's header says of its version besides its identity, and its value (R70, R292). The plaintext stands for the ciphertext, which
follows from it, the generation's key and the nonce counter. -/
structure RecordBody where
  kind    : Kind := .value
  expiry  : Nat := 0
  ref     : Stamp := 0
  value   : Bytes := []
  page    : Nat := 0
  gen     : Nat := 0
  counter : Nat := 0
  batch   : Nat := 1
  index   : Nat := 0
  deriving DecidableEq, Repr, Inhabited

/-- A version's record. -/
def Version.body (v : Version) : RecordBody :=
  { kind := v.kind, expiry := if v.kind = .touch then v.expiry else 0, ref := v.ref, value := if v.kind = .value then v.value else []
    page := v.page, gen := v.gen, counter := v.counter, batch := v.batch, index := v.index }

/-- A journal entry in the journal buffer (R232, R250). -/
structure JEntry where
  ns     : Nat
  fp     : BitVec 64
  stamp  : Stamp
  wseq   : Nat
  kind   : Nat
  loc    : Loc
  length : Nat
  count  : Nat := 1
  index  : Nat := 0
  deriving DecidableEq, Repr, Inhabited

/-- A record as placed in a segment (R219, R226): the version it belongs to and its units. -/
structure Placed where
  ns    : Nat
  fp    : BitVec 64
  key   : Bytes
  stamp : Stamp
  wseq  : Nat
  unit  : Nat
  units : Nat
  body  : RecordBody := {}
  deriving DecidableEq, Repr, Inhabited

/-- A segment (R217 to R227). -/
structure Segment where
  group    : Nat
  slc      : Bool
  stream   : Nat
  open_    : Bool := true
  openSeq  : Nat := 0
  openStamp : Stamp := 0
  /-- Physical block of each channel (R223). -/
  blocks   : List Nat := []
  /-- Channels whose block has been retired while the segment holds it (R254): never erased or used again. -/
  bad      : List Nat := []
  /-- Units filled, programmed, and those that a forced program has padded to (R227). -/
  filled   : Nat := 0
  done     : Nat := 0
  forced   : Nat := 0
  recs     : List Placed := []
  /-- Units whose row group's parity is programmed too (R227). -/
  par      : Nat := 0
  /-- Pool 6 buffers by data page in fill order (R225, R227); data pages that wait for theirs, and whether a request for the first of
  them is on its way (R191); and row groups whose last program is done: the stamp of that completion and the page at which the group
  ends. -/
  handles  : List (Nat × Handle) := []
  want     : List Nat := []
  asked    : Bool := false
  rel      : List (Stamp × Nat) := []
  /-- Programs done: the first unit, whether it is parity, and the write sequence of its first page's header (R221). -/
  seqs     : List (Nat × Bool × Nat) := []
  /-- Journal segment: highest write sequence of its entries, and the entries of each page (R232). -/
  high     : Nat := 0
  jpages   : List (List JEntry) := []
  /-- Grain of its latest record, local time in µs at which the first record of its last program unit was placed, and the write sequence current when its forced
  program was asked for (R227). -/
  lastRec  : Nat := 0
  placedAt : Nat := 0
  forcedSeq : Nat := 0
  /-- Marked as the next victim after a failure (R254), queued for refresh (R256), holds a lost record (R255). -/
  failed   : Bool := false
  refresh  : Bool := false
  lost     : Bool := false
  /-- Its next program unit failed and its records still wait to be re-placed (R254). -/
  broken   : Bool := false
  /-- Released: waits for every command stamped before this stamp (R230); 0 while not released. -/
  freeAt   : Stamp := 0
  deriving DecidableEq, Repr, Inhabited

/-- A die (R215, R217, R224, R237, R259): blocks by use. -/
structure Die where
  failed    : Bool := false
  /-- Blocks never used yet start here; every lower block is used, free or retired. Blocks that the factory has marked bad are never used. -/
  virgin    : Nat := 0
  bad       : List Nat := []
  /-- Erased blocks that have been used before; released blocks; retired blocks. -/
  erased    : List Nat := []
  released  : List Nat := []
  retired   : Nat := 0
  spares    : Nat := 0
  spares0   : Nat := 0
  lowRaised : Bool := false
  /-- Erase counts of blocks erased at least once. -/
  wear      : NatMap Nat := []
  /-- Start levels (R237): SLC, native; the level of consecutive retried successes and their count; good reads in a row. -/
  levelSlc  : Nat := 0
  levelNat  : Nat := 0
  retryAt   : NatMap (Nat × Nat) := []
  goodRun   : NatMap Nat := []
  trial     : NatMap Bool := []
  raised    : Bool := false
  deriving DecidableEq, Repr, Inhabited

/-- An operation of a die (R239): a codeword read of a command, a program unit or parity page of a segment, a journal page, an erase,
the read of an internal requester's step. -/
inductive DieOp where
  | read (id : Stamp)
  | program (seg : Nat)
  | journal
  | erase (block : Nat)
  | step (id : Nat)
  deriving DecidableEq, Repr

/-- An operation that waits for a die (R239): the die's key, its queue (1 URGENT, 2 READ, 3 FORCED, 4 PROGRAM, 5 INTERNAL, 6 PATROL) and
its order within. -/
structure MediaOp where
  die   : Nat
  queue : Nat
  order : List Nat
  op    : DieOp
  deriving DecidableEq, Repr

/-- A step of an internal requester that has been granted its buffer: whether its die has taken it (R32, R239). -/
structure StepRun where
  id     : Nat
  step   : Step
  /-- How the codewords that it reads go. -/
  reads  : List CodewordOutcome := []
  handle : Option Handle := none
  taken  : Bool := false
  /-- The live record that the die reads for it, with its segment. -/
  target : Option (Nat × Placed) := none
  deriving DecidableEq, Repr

/-- A secure-delete intent (R257). -/
structure Intent where
  ns    : Nat
  fp    : BitVec 64
  key   : Bytes
  stamp : Stamp
  /-- Confirmed segments, those still to relocate, and the stamp that its last location update follows. -/
  segments : List Nat
  todo  : List Nat := []
  after : Stamp := 0
  deriving DecidableEq, Repr, Inhabited

/-- Lifetime counters of the health log (R261). -/
structure Health where
  softDecodes : Nat := 0
  codewords : Nat := 0
  retries   : Nat := 0
  rebuilds  : Nat := 0
  unreadable : Nat := 0
  lost      : Nat := 0
  programFails : Nat := 0
  eraseFails : Nat := 0
  copyFalls : Nat := 0
  refreshed : Nat := 0
  patrolled : Nat := 0
  missed    : Nat := 0
  minutes   : NatMap Nat := []
  highest   : Int := -1000
  lowest    : Int := 1000
  hours     : Nat := 0
  notices   : Nat := 0
  unsafe_   : Nat := 0
  deriving DecidableEq, Repr, Inhabited

/-- Counters of one channel (R242). -/
structure Channel where
  codewords : Nat := 0
  soft      : Nat := 0
  retries   : Nat := 0
  rebuilds  : Nat := 0
  unreadable : Nat := 0
  deriving DecidableEq, Repr, Inhabited

/-- Delta. -/
structure Delta where
  pop       : Option NandPopulation := none
  /-- Die indices in use, and channel states (code of CH_STATUS.STATE). -/
  inUse     : List Nat := []
  chState   : Nat := 0
  chFailed  : List Nat := []
  dies      : NatMap Die := []
  segments  : NatMap Segment := []
  /-- Open segment of each open slot (R225), the group whose turn it is in each stream (R226). -/
  slots     : NatMap Nat := []
  turn      : NatMap Nat := []
  journal   : List JEntry := []
  /-- Entries of the open journal segment and of the journal segments: written entries with their write sequences. -/
  jPages    : Nat := 0
  jForced   : Bool := false
  /-- GC. -/
  gcLevel   : Nat := 0
  paced     : Bool := false
  budgetLow : Bool := false
  noSpace   : Bool := false
  /-- Segments that GC has released, while write-paced, that pay for segments to open (R231). -/
  credit    : Nat := 0
  /-- Lost-record list (R255). -/
  lostList  : List (Nat × BitVec 64 × Stamp) := []
  lostFull  : Bool := false
  /-- Segment that holds each slice's latest image (R233). -/
  images    : NatMap Nat := []
  /-- Slice images being written: slice, segment, unit at which the image ends, write sequence W. -/
  imaging   : List (Nat × Nat × Nat × Nat) := []
  intents   : List Intent := []
  sealed    : Bool := false
  /-- Metadata region (R234): logical blocks that hold a log block, least recently written first; units on one copy. -/
  merging   : List Nat := []
  fallbacks : List (Nat × Nat) := []
  copyMerges : Nat := 0
  /-- Patrol (R240): pages read in this cycle, by segment, channel and page in the block; pages that the cycle before left unread; pages left
  at the latest rate, start grain of the cycle, rate. -/
  patrolSeen : List (Nat × Nat × Nat) := []
  patrolFirst : List (Nat × Nat × Nat) := []
  patrolTodo : Nat := 0
  patrolStart : Nat := 0
  patrolRate : Nat := 0
  /-- Blocks to be read again, by segment and channel, with the grain of their read (R256). -/
  tracked   : List (Nat × Nat × Nat) := []
  /-- The operation that each die runs, by die key (R239). -/
  running   : NatMap DieOp := []
  /-- Steps of the internal requesters under way, and the number of the next one. -/
  steps     : List StepRun := []
  stepNext  : Nat := 0
  /-- Grain of the latest checkpoint timer (R233), local times in µs of the latest patrol rate (R240) and of the latest forced program for
  pool 6 (R227). -/
  ckptAt    : Option Nat := none
  rateAt    : Nat := 0
  pool6At   : Nat := 0
  forcedCount : Nat := 0
  padUnits  : Nat := 0
  gcCopied  : Nat := 0
  foldCopied : Nat := 0
  deadCopies : Nat := 0
  erases    : Nat := 0
  ckptBytes : Nat := 0
  sparesLow : Bool := false
  wearHigh  : Nat := 0
  programFails : Nat := 0
  eraseFails : Nat := 0
  lostCount : Nat := 0
  refreshes : Nat := 0
  discards  : Nat := 0
  channels  : NatMap Channel := []
  health    : Health := {}
  healthStored : Health := {}
  /-- Rebuild (R251): phase, and the last rebuild's page of the health log. -/
  phase     : Nat := 0
  progress  : Nat := 0
  path      : Nat := 0
  scanCause : Nat := 0
  headerMs  : Nat := 0
  loadMs    : Nat := 0
  replayMs  : Nat := 0
  replayed  : Nat := 0
  mediaGrain : Nat := 0
  rebuildBoot : Nat := 0
  clean     : Bool := false
  /-- The header scan's, load's or replay's index-area sums were sealed at a quiesce (R251), and still hold. -/
  sumsSealed : Bool := false
  sumsGood  : Bool := false
  deriving DecidableEq, Repr

end Sys2Proof.Machine
end

