-- ==== Sys2Proof/Machine/StatePort.lean ====
section
/-! DEFINITION. State groups of the Ethernet ports, quads and bulk DRAM. -/

namespace Sys2Proof.Machine

/-- Link states, with PORT_STATUS's codes 0 to 3 in this order (R165, R183). -/
inductive Link where
  | disabled | down | training | up
  deriving DecidableEq, Repr, Inhabited

/-- An IP address entry of a port (R162). -/
structure IpEntry where
  version : Nat := 0
  prefix_ : Nat := 0
  vlan    : Option Nat := none
  addr    : BitVec 128 := 0
  gateway : BitVec 128 := 0
  deriving DecidableEq, Repr, Inhabited

/-- A port's configuration (R162, R396). -/
structure PortConfig where
  type     : Nat := 0
  maxFrame : Nat := 9216
  enable   : Bool := false
  lpi      : Bool := false
  preempt  : Bool := false
  fixed    : Bool := false
  minFrag  : Nat := 0
  base     : Nat := 2048
  unicast  : List (BitVec 48) := []
  ip0      : IpEntry := {}
  ip1      : IpEntry := {}
  deriving DecidableEq, Repr, Inhabited

/-- What kind of frame is queued for transmission (R151, R172). -/
inductive TxKind where
  | lerfold | control | ptp | map
  deriving DecidableEq, Repr, Inhabited

/-- The IP and UDP part of a frame that Ranegal sends (R126, R127). An IPv4 address stands in the upper 32 bits; `proto` is 17 for UDP, 1
for ICMP, 58 for ICMPv6. Don't Fragment is always set on IPv4, and ECN always Not-ECT. -/
structure IpOut where
  v6      : Bool := false
  src     : BitVec 128 := 0
  dst     : BitVec 128 := 0
  hops    : Nat := 64
  dscp    : Nat := 0
  proto   : Nat := 17
  srcPort : Nat := 0
  dstPort : Nat := 0
  deriving DecidableEq, Repr

/-- A frame queued for transmission on a port: its length with the FCS, its 802.1Q tag, its layers. -/
structure TxFrame where
  kind    : TxKind
  express : Bool := false
  len     : Nat
  tci     : Option Nat := none
  cast    : Nat := 0
  src     : BitVec 48 := 0
  etherType : Nat := 0x0800
  ip      : Option IpOut := none
  header  : Option LfHeader := none
  payload : Bytes := []
  counter : Nat := 0
  tag     : BitVec 128 := 0
  dst     : BitVec 48 := 0
  stamped : Bool := false
  /-- Ended early, with an inverted FCS (R176). -/
  aborted : Bool := false
  deriving DecidableEq, Repr

/-- A preemptable frame whose transmission is under way (R172, R173): how often it has been preempted, and whether it stands preempted. -/
structure Sending where
  frame    : TxFrame
  preempts : Nat := 0
  paused   : Bool := false
  deriving DecidableEq, Repr

/-- A port (R159 to R184). -/
structure Port where
  config   : PortConfig := {}
  /-- A PORT_SET PORT has been accepted for it, or a stored configuration applied. -/
  everSet  : Bool := false
  link     : Link := .disabled
  since    : Nat := 0
  restartAt : Nat := 0
  localFault : Bool := false
  remoteFault : Bool := false
  preemptOn : Bool := false
  /-- A Clause 99 verify runs (R165, R172). -/
  verifying : Bool := false
  lpiRx    : Bool := false
  lpiTx    : Bool := false
  lpiRxAt  : Nat := 0
  lpiTxAt  : Nat := 0
  partnerTw : Option Nat := none
  partnerPreempt : Bool := false
  /-- Start threshold T and frames sent in a row without underrun (R176, R177). -/
  threshold : Nat := 2048
  clean    : Nat := 0
  /-- CNT[0..95] (R182). -/
  cnt      : NatMap Nat := []
  queue    : List TxFrame := []
  sending  : Option Sending := none
  /-- sequenceId of the next PTP request. -/
  ptpSeq   : BitVec 16 := 0
  /-- Echo requests answered in the second that began at the grain (R170). -/
  echoAt   : Nat := 0
  echoes   : Nat := 0
  taps     : BitVec 24 := 0
  trained  : Bool := false
  deriving DecidableEq, Repr

/-- Ports, quads, the device's Lerfold UDP port. -/
structure Ports where
  ports   : NatMap Port := []
  /-- Quad modes 0 to 4, 255 disabled (R159). -/
  quads   : List Nat := [255, 255, 255, 255]
  udp     : Nat := Config.defaultUdpPort
  /-- The configuration as stored in the metadata region (R164): quad modes, ports, UDP port. -/
  stQuads : Option (List Nat) := none
  stPorts : NatMap PortConfig := []
  stUdp   : Nat := Config.defaultUdpPort
  deriving DecidableEq, Repr

/-! ## Bulk DRAM and on-chip memory (R264 to R279) -/

/-- A remap entry (R272): the line's byte address. -/
abbrev Remap := Nat

/-- The memory controller. -/
structure Dram where
  rate      : Nat := 0
  density   : Nat := 0
  ranks     : Nat := 0
  fillDone  : Bool := false
  trainDone : Bool := false
  trainFail : Option (Nat × Nat) := none
  indexPoisoned : Bool := false
  remapFull : Bool := false
  /-- Failed device by channel × 2 + rank. -/
  failed    : NatMap Nat := []
  /-- Distinct lines with corrected symbols of each device since power-on: by (channel × 2 + rank) × 16 + device. -/
  lines     : NatMap (List Nat) := []
  /-- Correction log: line key, count, tick of the latest increment (R270). -/
  log       : List (Nat × Nat × Nat) := []
  tick      : Nat := 0
  remaps    : List Remap := []
  /-- Lines that hold the poison signature. -/
  poison    : List Nat := []
  /-- Merge buffer (R269): line address, byte mask, bytes written so far, least recently written first. -/
  merge     : List (Nat × BitVec 128 × Bytes) := []
  /-- Scrub period (R271): the grain at which it began, and the lines read in it. -/
  scrubStart : Nat := 0
  scrubbed  : List Nat := []
  corrected : Nat := 0
  uncorrectable : Nat := 0
  poisonReads : Nat := 0
  consumed  : Nat := 0
  mergeRmw  : Nat := 0
  mergeFull : Nat := 0
  refused   : Nat := 0
  refusedRaised : Bool := false
  sramCorrected : Nat := 0
  sramBad   : Nat := 0
  glenFixes : Nat := 0
  /-- Uncorrectable errors in the index area since the sums were sealed (R251). -/
  sinceSeal : Nat := 0
  deriving DecidableEq, Repr, Inhabited

end Sys2Proof.Machine
end

