-- ==== Sys2Proof/Machine/StateCluster.lean ====
section
/-! DEFINITION. State groups of the cluster: identity, slice map, map gathering, pairs (R305 to R319, R398). -/

namespace Sys2Proof.Machine

/-- The cluster identity that MAP_SET IDENTITY sets (R306). -/
structure Identity where
  v6      : Bool := false
  device  : Nat := 0
  manager : Nat := 0
  udp     : Nat := 0
  port    : Nat := 0
  group   : BitVec 128 := 0
  address : BitVec 128 := 0
  deriving DecidableEq, Repr, Inhabited

/-- Pair states (R317), with PAIR_STATE's codes 1 to 5 in this order. -/
inductive PairState where
  | copying | comparing | proposed | committed | uncertain
  deriving DecidableEq, Repr, Inhabited

/-- An APPLY or COMPARE that a source has to send or has sent (R313). -/
structure PeerMsg where
  /-- Peer kind: 1 APPLY, 2 COMPARE, 3 COPY_DONE, 4 PROPOSE, 5 MARK (R311). -/
  kind   : Nat
  seqNo  : BitVec 32
  /-- Descriptor and message area. -/
  desc   : Descriptor
  area   : Bytes
  /-- Stamp of the source write that it mirrors, 0 for others. -/
  origin : Stamp := 0
  sentAt : Nat := 0
  acked  : Bool := false
  deriving DecidableEq, Repr

/-- A mirror pair (R311 to R318). -/
structure Pair where
  number   : Nat
  kind     : Nat
  target   : Bool
  peer     : Nat
  session  : Nat
  slices   : List Nat
  state    : PairState := .copying
  fn       : Nat := 0
  /-- Source: copy rate, lead, sample, binding of the peer tuple and session key (of a pair, `params.tci` holds the target's UDP port, R311). -/
  rate     : Nat := 2000
  lead     : Nat := 1000
  sample   : Nat := 0
  params   : SessionParams := {}
  /-- T0 on a source. -/
  t0       : Stamp := 0
  /-- Local time of a source's start, in µs, against which the copy rate is held (R313). -/
  startedAt : Nat := 0
  cutover  : Nat := 0
  refusals : Nat := 0
  /-- Messages sent and not completed, oldest first; next sequence; credit grant received. -/
  waiting  : List PeerMsg := []
  nextSeq  : BitVec 32 := 0
  credit   : BitVec 32 := 0
  /-- Next SECURE frame counter toward the target. -/
  txCounter : Nat := 0
  /-- Messages that wait for credit. -/
  toSend   : List PeerMsg := []
  /-- PAIR slot of R398, and the cause of a failure that is due to end the pair. -/
  slot     : Nat := 0
  failed   : Option Nat := none
  /-- Bulk copy position: the last version sent, by fingerprint, namespace, key and stamp; done; COPY_DONE completed (source) or
  noted (target). -/
  cursor   : Option (BitVec 64 × Nat × Bytes × Stamp) := none
  walkDone : Bool := false
  copyDone : Bool := false
  proposeSent : Bool := false
  markSent : Bool := false
  reads    : Nat := 0
  applied  : Nat := 0
  copied   : Nat := 0
  mismatches : Nat := 0
  /-- Highest stamp of copied versions kept on a target: those to drop if the pair fails. -/
  copies   : List (Nat × BitVec 64 × Stamp) := []
  deriving DecidableEq, Repr

/-- The cluster group. -/
structure Cluster where
  role      : Role := .standalone
  strapFault : Bool := false
  /-- Role stored in the SPI NOR control area (R16), if a ROLE_SET stored one. -/
  roleStored : Option Role := none
  identity  : Option Identity := none
  epoch     : Nat := 0
  mapStamp  : Stamp := 0
  adopt     : Stamp := 0
  /-- Owner by slice where it differs from the default of R305; overrides of cutovers with the epoch held then. -/
  owners    : NatMap Nat := []
  overrides : NatMap (Nat × Nat) := []
  /-- Device table (R306): present devices: version, UDP port, address. -/
  devices   : NatMap (Nat × Nat × BitVec 128) := []
  /-- Map fragments being gathered (R310): epoch, stamp, grain of the first, payloads. -/
  gatherEpoch : Nat := 0
  gatherStamp : Stamp := 0
  gatherAt  : Nat := 0
  gathered  : NatMap Bytes := []
  /-- A whole map that waits for its adoption's stamp. -/
  whole     : Option (Nat × Stamp × NatMap Bytes) := none
  /-- Grain of the last adoption or refresh, and whether 193 was raised since. -/
  refreshed : Nat := 0
  silent    : Bool := false
  publishedAt : Nat := 0
  /-- REQUESTs answered in the current second, by port. -/
  reqAt     : Nat := 0
  reqs      : NatMap Nat := []
  discards  : NatMap Nat := []
  published : Nat := 0
  answered  : Nat := 0
  dropped   : Nat := 0
  adoptions : Nat := 0
  moved     : Nat := 0
  pairs     : List Pair := []
  /-- Versions of slices being dropped in the background (R316, R317): slice lists with the stamp below which. -/
  drops     : List (List Nat × Stamp) := []
  deriving DecidableEq, Repr

end Sys2Proof.Machine
end

