-- ==== Sys2Proof/Machine/StateSys.lean ====
section
/-! DEFINITION. State groups of start-up, update, SPI NOR, management, test, pins, settings; and the outputs. -/

namespace Sys2Proof.Machine

/-- Update states, with the record's codes 0 to 4 in this order (R372). -/
inductive UpState where
  | idle | applyPending | trial | revertRequested | confirmed
  deriving DecidableEq, Repr, Inhabited

/-- An update state record (R372). -/
structure UpRecord where
  state    : UpState := .idle
  boots    : Nat := 0
  seqNo    : Nat := 0
  deadline : Nat := 0
  window   : Nat := 0
  previous : Nat := 0
  outcome  : Nat := 0
  target   : Nat := 0
  deriving DecidableEq, Repr, Inhabited

/-- A boot record as written in a ring slot of the control area (R328, R333, R336): its 1,232 bytes and the anchors. -/
structure BootSlot where
  slot    : Nat
  count   : Nat
  bytes   : Bytes
  /-- Its signature checks: it was signed by the DeviceID key, which a boot under TEST_MODE does not derive (R326). -/
  valid   : Bool := true
  anchors : List (Nat × BitVec 384) := []
  deriving DecidableEq, Repr

/-- The SPI NOR (R334): slots, staging and owner material beyond its key as memory bytes (unlisted bytes read 0xFF, erased); the
control area's governing records, and the boot-record ring. -/
structure Spi where
  mem      : List Host.Cell := []
  pointer  : Nat := 0
  ptrSeq   : Nat := 0
  ptrHash  : BitVec 384 := 0
  up       : UpRecord := {}
  lock     : Bool := false
  lockSeq  : Nat := 0
  ownerKey : Option (BitVec 768) := none
  /-- Boot-record ring, newest first, and the next slot. -/
  boots    : List BootSlot := []
  deriving DecidableEq, Repr

/-- Firmware update and boot (R358 to R374, R328 to R337). -/
structure Update where
  running   : Nat := 0
  preparing : Bool := false
  progress  : Nat := 0
  /-- 0 none, 1 accepted and quiescing, 2 after the warm restart. -/
  quiesce   : Nat := 0
  quiesceAt : Nat := 0
  /-- Stamp of the FW_ACTIVATE in progress. -/
  active    : Option Stamp := none
  activeBy  : Option Submission := none
  revert    : Bool := false
  expired   : Bool := false
  halfRaised : Bool := false
  outcome   : Nat := 0
  window    : Nat := 600
  nonce     : BitVec 64 := 0
  token     : NatMap (BitVec 32) := []
  lockCode  : Nat := 0
  lockError : Bool := false
  lockBusy  : Bool := false
  busyWrite : Bool := false
  fuse      : Nat := 0
  fuseShort : Bool := false
  bootCount : Nat := 0
  /-- Boot record of this start. -/
  bootRec   : Bytes := []
  manifestHash : BitVec 384 := 0
  /-- The alias key of the control cores (empty with NO_FIRMWARE), and its certificate (R331, R332). -/
  aliasKey  : Bytes := []
  aliasCert : Bytes := []
  /-- The fuses of the unique device secret are locked until the next reset release (R328 step 2). -/
  secretLocked : Bool := false
  warm      : Bool := false
  /-- REBUILD has rebuilt or checked the index (R251). -/
  rebuilt   : Bool := false
  /-- Device events found before REBUILD: source, record type (none written at 0), data (R343). -/
  later     : List (Nat × Nat × BitVec 128) := []
  resetCause : Nat := 0
  bootHold  : Nat := 0
  sfdpOk    : Bool := true
  octal     : Bool := true
  /-- The parts in effect since the last power-on or SYS_RESET#, which a warm restart leaves (R359): types 4, 5 and 6, with their hashes. -/
  coldParts : List (Nat × Bytes) := []
  deriving DecidableEq, Repr

/-- MCTP, SPDM and PLDM on the management path (R338 to R342). -/
structure Mgmt where
  eid       : BitVec 8 := 0
  /-- SPDM progress: 0 none, 1 GET_VERSION, 2 GET_CAPABILITIES, 3 NEGOTIATE_ALGORITHMS. -/
  spdm      : Nat := 0
  alert     : Bool := false
  transcript : Bytes := []
  deriving DecidableEq, Repr

/-- Straps, pins and temperature (R321 to R326, R401, R409). -/
structure Pins where
  straps    : Straps := { role := 0, boot := 0, test := false }
  strapFault : Bool := false
  holdupOk  : Bool := false
  holdupStable : Bool := false
  holdupEarly : Bool := false
  writeThrough : Bool := true
  pwrFail   : Bool := false
  flushed   : Bool := false
  nandWp    : Bool := true
  pwrGood   : Bool := true
  temperature : Int := 0
  warning   : Bool := false
  thermtrip : Bool := false
  backstop  : Bool := false
  alert     : Bool := false
  /-- Every core has been released: the firmware drives the GPIO outputs (R401). -/
  ready     : Bool := false
  deriving DecidableEq, Repr

/-- A running test (R382 to R387). -/
structure TestRun where
  block    : Bytes
  stamp    : Option Stamp := none
  /-- Local time of the acceptance, in µs; grain in which the patterns started, and its local time. -/
  accepted : Nat := 0
  started  : Nat := 0
  startUs  : Nat := 0
  quiesced : Bool := false
  kind     : Nat := 0
  duration : Nat := 0
  targets  : List Nat := []
  locked   : List Nat := []
  losses   : NatMap Nat := []
  deriving DecidableEq, Repr

/-- LINK_TEST, TEST block, TAP (R381 to R388). -/
structure Test where
  run      : Option TestRun := none
  /-- A TEST_CTRL test is running (TEST_MODE high). -/
  direct   : Option TestRun := none
  code     : Nat := 0
  done     : Bool := false
  error    : Bool := false
  result   : Bytes := []
  ir       : BitVec 8 := 1
  deriving DecidableEq, Repr

/-- Counts and limits of the event sources (R375 to R380). -/
structure Events where
  raised   : NatMap Nat := []
  limits   : List Limit := []
  /-- Raises of the current grain, waiting for its end. -/
  raises   : List Raise := []
  deriving DecidableEq, Repr

/-- RW settings (R392, R393). The State holds them twice: as written, and as in force from the grain after. -/
structure Settings where
  gcCtrl      : BitVec 32 := 0
  slcCtrl     : BitVec 32 := 0
  patrol      : Nat := 7
  refresh     : Nat := 96
  dieRetry    : NatMap (BitVec 32) := []
  remap       : Nat := 4
  device      : Nat := 8
  scrub       : Nat := 24
  holeLog     : Nat := 4
  poolLow     : NatMap Nat := []
  rxReserve   : Nat := 1024
  fetchReserve : Nat := 256
  power       : BitVec 32 := 0
  ctxSelect   : Nat := 0
  testParam   : NatMap (BitVec 32) := []
  evt         : NatMap EventFn := []
  window      : Nat := 600
  deriving DecidableEq, Repr

/-- What leaves the device. -/
inductive Output where
  | completion (ring : RingId) (slot : Nat) (c : Completion)
  /-- A write of data to host memory; `relaxed` is its Relaxed Ordering attribute, which no other write and no message has (R113). -/
  | dataWrite (fn addr : Nat) (relaxed : Bool) (bytes : Bytes)
  | msix (fn vector : Nat)
  | event (fn slot : Nat) (e : EventEntry)
  | frame (port : Nat) (f : TxFrame)
  | mgmt (bytes : Bytes)
  | mgmtCompletion (c : Completion) (data : Bytes)
  | read (value : BitVec 64)
  | dropped (c : Completion)
  deriving DecidableEq, Repr

end Sys2Proof.Machine
end

