-- ==== Sys2Proof/Machine/State.lean ====
section
/-! DEFINITION. The state of the block: every register, table, queue and pin that the spec names, and the queue of waiting
commands. The groups stand in the files StateHost to StateSys. -/

namespace Sys2Proof.Machine

/-- The reasons why a step stops with a fault. -/
inductive Fault where
  /-- Raised by the step that would advance the counter to grain number 2^52: the spec gives a grain number 52 bits and no
  behaviour beyond them (R30). Safe: the machine stops where the spec states nothing. -/
  | grainNumberExhausted
  deriving DecidableEq, Repr

/-- The reasons why a step is refused. -/
inductive Refusal where
  /-- Raised by an arm of `exec` whose command has no meaning in the model yet. Safe: nothing is claimed of it. -/
  | notModelled (mnemonic : String)
  deriving DecidableEq, Repr

/-- The state of the block. -/
structure State where
  /-- Commands that wait for a step, first in, first out. -/
  pending : List Instr := []
  /-- Mode of R14, R15. -/
  mode    : Mode := .fill
  time    : Time := {}
  col     : Col := {}
  /-- Commands in flight, in stamp order. -/
  works   : List Work := []
  host    : HostSide := {}
  events  : Events := {}
  terrace : Terrace := {}
  index   : Index := {}
  glen    : Glen := {}
  basin   : Basin := {}
  gorge   : Gorge := {}
  wire    : Wire := {}
  ports   : Ports := {}
  delta   : Delta := {}
  dram    : Dram := {}
  cluster : Cluster := {}
  spi     : Spi := {}
  update  : Update := {}
  mgmt    : Mgmt := {}
  pins    : Pins := {}
  test    : Test := {}
  /-- RW settings as written, as in force in this grain, and as stored in the metadata region (R392, R393). -/
  written : Settings := {}
  inForce : Settings := {}
  stored  : Settings := {}
  /-- Read latches (R391) by register address, and low halves of 64-bit RW registers awaiting their high half (R392). -/
  latches : NatMap (BitVec 32) := []
  lows    : NatMap (BitVec 32) := []
  /-- What has left the device, newest first (the model's own record of its outputs). -/
  out     : List Output := []
  /-- Free values drawn so far (the model's own counter, log entry 1). -/
  free    : Nat := 0
  deriving DecidableEq, Repr

/-- The block right after a power-on reset release with all straps low, before FILL has ended: mode FILL, every register at
the reset value of its table, every table and queue empty, blank media. -/
def State.reset : State := {}

end Sys2Proof.Machine
end

