-- ==== Sys2Proof/Machine/Updates.lean ====
section
/-! DEFINITION. One update function per group of the state; every operation changes the state through them. -/

namespace Sys2Proof.Machine

/-- The mode set. -/
def State.setMode (s : State) (m : Mode) : State := { s with mode := m }
/-- The waiting commands replaced. -/
def State.setPending (s : State) (q : List Instr) : State := { s with pending := q }
/-- The counter of free values set. -/
def State.setFree (s : State) (n : Nat) : State := { s with free := n }
/-- Group `time` changed. -/
def State.updTime (s : State) (f : Time → Time) : State := { s with time := f s.time }
/-- Group `col` changed. -/
def State.updCol (s : State) (f : Col → Col) : State := { s with col := f s.col }
/-- Group `works` changed. -/
def State.updWorks (s : State) (f : List Work → List Work) : State := { s with works := f s.works }
/-- Group `host` changed. -/
def State.updHost (s : State) (f : HostSide → HostSide) : State := { s with host := f s.host }
/-- Group `events` changed. -/
def State.updEvents (s : State) (f : Events → Events) : State := { s with events := f s.events }
/-- Group `terrace` changed. -/
def State.updTerrace (s : State) (f : Terrace → Terrace) : State := { s with terrace := f s.terrace }
/-- Group `index` changed. -/
def State.updIndex (s : State) (f : Index → Index) : State := { s with index := f s.index }
/-- Group `glen` changed. -/
def State.updGlen (s : State) (f : Glen → Glen) : State := { s with glen := f s.glen }
/-- Group `basin` changed. -/
def State.updBasin (s : State) (f : Basin → Basin) : State := { s with basin := f s.basin }
/-- Group `gorge` changed. -/
def State.updGorge (s : State) (f : Gorge → Gorge) : State := { s with gorge := f s.gorge }
/-- Group `wire` changed. -/
def State.updWire (s : State) (f : Wire → Wire) : State := { s with wire := f s.wire }
/-- Group `ports` changed. -/
def State.updPorts (s : State) (f : Ports → Ports) : State := { s with ports := f s.ports }
/-- Group `delta` changed. -/
def State.updDelta (s : State) (f : Delta → Delta) : State := { s with delta := f s.delta }
/-- Group `dram` changed. -/
def State.updDram (s : State) (f : Dram → Dram) : State := { s with dram := f s.dram }
/-- Group `cluster` changed. -/
def State.updCluster (s : State) (f : Cluster → Cluster) : State := { s with cluster := f s.cluster }
/-- Group `spi` changed. -/
def State.updSpi (s : State) (f : Spi → Spi) : State := { s with spi := f s.spi }
/-- Group `update` changed. -/
def State.updUpdate (s : State) (f : Update → Update) : State := { s with update := f s.update }
/-- Group `mgmt` changed. -/
def State.updMgmt (s : State) (f : Mgmt → Mgmt) : State := { s with mgmt := f s.mgmt }
/-- Group `pins` changed. -/
def State.updPins (s : State) (f : Pins → Pins) : State := { s with pins := f s.pins }
/-- Group `test` changed. -/
def State.updTest (s : State) (f : Test → Test) : State := { s with test := f s.test }
/-- Group `written` changed. -/
def State.updWritten (s : State) (f : Settings → Settings) : State := { s with written := f s.written }
/-- Group `inForce` changed. -/
def State.updInForce (s : State) (f : Settings → Settings) : State := { s with inForce := f s.inForce }
/-- Group `stored` changed. -/
def State.updStored (s : State) (f : Settings → Settings) : State := { s with stored := f s.stored }
/-- Group `latches` changed. -/
def State.updLatches (s : State) (f : NatMap (BitVec 32) → NatMap (BitVec 32)) : State := { s with latches := f s.latches }
/-- Group `lows` changed. -/
def State.updLows (s : State) (f : NatMap (BitVec 32) → NatMap (BitVec 32)) : State := { s with lows := f s.lows }
/-- Group `out` changed. -/
def State.updOut (s : State) (f : List Output → List Output) : State := { s with out := f s.out }

end Sys2Proof.Machine
end

