-- ==== Sys2Proof/Machine/Data.lean ====
section
/-! DEFINITION. Byte strings and their fields, CRC-32C (R129), CRC-32 (R169), SipHash-2-4 (R49), and the byte memory of
the SPI NOR (R334). -/

namespace Sys2Proof.Machine

/-! ## Fields -/

/-- The low `n` bytes of a number, least significant first (R2). -/
def leBytes : Nat → Nat → Bytes
  | 0, _ => []
  | n + 1, x => BitVec.ofNat 8 x :: leBytes n (x / 256)

/-- The low `n` bytes of a number, most significant first. -/
def beBytes (n x : Nat) : Bytes := (leBytes n x).reverse

/-- The number that little-endian bytes spell. -/
def leNat : Bytes → Nat
  | [] => 0
  | b :: rest => b.toNat + 256 * leNat rest

/-- The number that big-endian bytes spell. -/
def beNat (b : Bytes) : Nat := leNat b.reverse

/-- `n` bytes from offset `off`. -/
def slice (b : Bytes) (off n : Nat) : Bytes := (b.drop off).take n

/-- The little-endian field of `n` bytes at offset `off`. -/
def field (b : Bytes) (off n : Nat) : Nat := leNat (slice b off n)

/-- The big-endian field of `n` bytes at offset `off`. -/
def fieldBe (b : Bytes) (off n : Nat) : Nat := beNat (slice b off n)

/-- `n` zero bytes. -/
def zeros (n : Nat) : Bytes := List.replicate n 0

/-- A byte string padded with zeros, or cut, to `n` bytes. -/
def padTo (n : Nat) (b : Bytes) : Bytes := (b ++ zeros n).take n

/-- Zero padding up to a multiple of `m`. -/
def padUp (m : Nat) (b : Bytes) : Bytes := b ++ zeros ((m - b.length % m) % m)

/-- A string with the bytes from `off` on replaced. -/
def patch (b : Bytes) (off : Nat) (v : Bytes) : Bytes := b.take off ++ v ++ b.drop (off + v.length)

/-- All bytes are zero. -/
def allZero (b : Bytes) : Bool := b.all (· == 0)

/-- The first non-zero byte's offset among ranges (offset, size), reported as the range's offset. -/
def firstNonZero (b : Bytes) : List (Nat × Nat) → Option Nat
  | [] => none
  | (off, n) :: rest => if allZero (slice b off n) then firstNonZero b rest else some off

/-- A signed number in `bits` bits, two's complement. -/
def twos (bits : Nat) (i : Int) : Nat := (i % (2 ^ bits : Int)).toNat

/-- The signed value of a `bits`-bit number. -/
def signedOf (bits n : Nat) : Int := if n < 2 ^ (bits - 1) then n else (n : Int) - 2 ^ bits

/-- Ceiling division. -/
def ceilDiv (a b : Nat) : Nat := (a + b - 1) / b

/-- A count saturating at `m`. -/
def satAdd (m a b : Nat) : Nat := min m (a + b)

/-- 2^32 - 1 and 2^64 - 1. -/
def max32 : Nat := 4294967295
def max64 : Nat := 18446744073709551615

/-- A 64-bit saturating counter's next value (R397). -/
def inc64 (n : Nat) : Nat := satAdd max64 n 1

/-- ASCII text padded with spaces to `n` bytes. -/
def ascii (n : Nat) (codes : List Nat) : Bytes := (codes.map (BitVec.ofNat 8) ++ List.replicate n 32).take n

/-- Lexicographic order of byte strings as unsigned bytes. -/
def bytesLe : Bytes → Bytes → Bool
  | [], _ => true
  | _ :: _, [] => false
  | a :: as, b :: bs => if a = b then bytesLe as bs else decide (a.toNat < b.toNat)

/-! ## CRC -/

/-- One bit of a reflected CRC. -/
def crcBit (poly c : BitVec 32) : BitVec 32 := if c.getLsbD 0 then (c >>> 1) ^^^ poly else c >>> 1

/-- One byte of a reflected CRC. -/
def crcByte (poly c : BitVec 32) (b : Byte) : BitVec 32 :=
  let x := c ^^^ b.setWidth 32
  crcBit poly (crcBit poly (crcBit poly (crcBit poly (crcBit poly (crcBit poly (crcBit poly (crcBit poly x)))))))

/-- A reflected CRC with initial value and final XOR of all ones. -/
def crcWith (poly : BitVec 32) (b : Bytes) : BitVec 32 := ~~~ (b.foldl (crcByte poly) 0xFFFFFFFF#32)

/-- CRC-32C (R129). -/
def crc32c (b : Bytes) : BitVec 32 := crcWith 0x82F63B78#32 b

/-- The IEEE 802.3 CRC-32 (R169). -/
def crc32 (b : Bytes) : BitVec 32 := crcWith 0xEDB88320#32 b

/-- Bin of a group address in the group hash: bits [31:20] of its CRC-32 (R169). -/
def groupBin (mac : BitVec 48) : Nat := (crc32 (beBytes 6 mac.toNat)).toNat / 1048576

/-! ## SipHash-2-4 (R49) -/

/-- The four words of SipHash. -/
structure Sip where
  v0 : BitVec 64
  v1 : BitVec 64
  v2 : BitVec 64
  v3 : BitVec 64

/-- One SipRound. -/
def sipRound (s : Sip) : Sip :=
  let a0 := s.v0 + s.v1
  let a1 := (s.v1.rotateLeft 13) ^^^ a0
  let a0 := a0.rotateLeft 32
  let a2 := s.v2 + s.v3
  let a3 := (s.v3.rotateLeft 16) ^^^ a2
  let a0 := a0 + a3
  let a3 := (a3.rotateLeft 21) ^^^ a0
  let a2 := a2 + a1
  let a1 := (a1.rotateLeft 17) ^^^ a2
  { v0 := a0, v1 := a1, v2 := a2.rotateLeft 32, v3 := a3 }

/-- Absorbs one message word: two rounds. -/
def sipWord (s : Sip) (m : BitVec 64) : Sip :=
  let t := sipRound (sipRound { s with v3 := s.v3 ^^^ m })
  { t with v0 := t.v0 ^^^ m }

/-- Little-endian words of 8 bytes; the last word carries the rest and the length. -/
def sipWords (len : Nat) : Nat → Bytes → List (BitVec 64)
  | 0, b => [BitVec.ofNat 64 (leNat (b.take 7) + (len % 256) * 2 ^ 56)]
  | n + 1, b => BitVec.ofNat 64 (leNat (b.take 8)) :: sipWords len n (b.drop 8)

/-- SipHash-2-4 of a message under a 128-bit key (k0 in the low half). -/
def sipHash (key : BitVec 128) (msg : Bytes) : BitVec 64 :=
  let k0 := key.setWidth 64
  let k1 := (key >>> 64).setWidth 64
  let s : Sip := { v0 := k0 ^^^ 0x736F6D6570736575#64, v1 := k1 ^^^ 0x646F72616E646F6D#64,
                   v2 := k0 ^^^ 0x6C7967656E657261#64, v3 := k1 ^^^ 0x7465646279746573#64 }
  let s := (sipWords msg.length (msg.length / 8) msg).foldl sipWord s
  let s := { s with v2 := s.v2 ^^^ 0xFF#64 }
  let s := sipRound (sipRound (sipRound (sipRound s)))
  s.v0 ^^^ s.v1 ^^^ s.v2 ^^^ s.v3

/-- Fingerprint of a key in a namespace (R49). -/
def fingerprintOf (fpKey : BitVec 128) (ns : Nat) (key : Bytes) : BitVec 64 := sipHash fpKey (leBytes 2 ns ++ key)

/-- Slice of a fingerprint: its top 14 bits (R49). -/
def sliceOf (fp : BitVec 64) : Nat := fp.toNat / 2 ^ 50

/-! ## SPI NOR bytes (R334): unlisted bytes read 0xFF, the erased state -/

/-- A byte of the SPI NOR. -/
def spiByte (m : List Host.Cell) (a : Nat) : Byte := mapGet 0xFF m a

/-- `n` bytes from an address. -/
def spiRead (m : List Host.Cell) (a n : Nat) : Bytes := (List.range n).map fun i => spiByte m (a + i)

/-- A byte written; 0xFF removes the entry, so that equal memories are equal lists. -/
def spiPut (m : List Host.Cell) (a : Nat) (b : Byte) : List Host.Cell := if b = 0xFF then mapErase m a else mapSet m a b

/-- Bytes written from an address on. -/
def spiWrite (m : List Host.Cell) (a : Nat) : Bytes → List Host.Cell
  | [] => m
  | b :: rest => spiWrite (spiPut m a b) (a + 1) rest

/-- The entries whose address lies outside a range. -/
def spiErase (m : List Host.Cell) (a n : Nat) : List Host.Cell := m.filter fun c => decide (c.1 < a ∨ a + n ≤ c.1)

/-- A range replaced by a copy of another range of `n` bytes. -/
def spiCopy (m : List Host.Cell) (dst src n : Nat) : List Host.Cell :=
  (m.filter fun c => decide (src ≤ c.1 ∧ c.1 < src + n)).foldl (fun acc c => spiPut acc (c.1 - src + dst) c.2)
    (spiErase m dst n)

/-- The canonical form of the SPI NOR's bytes: addresses strictly rising, no listed byte erased. -/
def Memory.wf (m : List Host.Cell) : Bool := mapSorted m && m.all (fun c => c.2 != 0xFF)

end Sys2Proof.Machine
end

