-- ==== Sys2Proof/Machine/Flags.lean ====
section
/-! DEFINITION. Codes of the named values (modes, roles, time quality, statuses) and the bits of descriptor flags and
register fields. -/

namespace Sys2Proof.Machine

/-- IDENTIFY's code of a mode (R101). -/
def Mode.code : Mode → Nat
  | .fill => 0 | .boot => 1 | .rebuild => 2 | .service => 3 | .paired => 4 | .maintenance => 5 | .sealed => 6

/-- IDENTIFY's code of a role (R101). -/
def Role.code : Role → Nat
  | .standalone => 0 | .worker => 1 | .manager => 2

/-- The role that a ROLE_STRAP code or a ROLE_SET parameter names (R16). -/
def roleOf : Nat → Role
  | 1 => .worker | 2 => .manager | _ => .standalone

/-- TIME_GET's code of a time quality (R98). -/
def Quality.code : Quality → Nat
  | .unlocked => 0 | .acquiring => 1 | .locked => 2 | .holdover => 3 | .lost => 4

/-- PORT_STATUS's code of a link state (R183). -/
def Link.code : Link → Nat
  | .disabled => 0 | .down => 1 | .training => 2 | .up => 3

/-- PAIR_STATE's code of a pair state (R398). -/
def PairState.code : PairState → Nat
  | .copying => 1 | .comparing => 2 | .proposed => 3 | .committed => 4 | .uncertain => 5

/-- Code of an update state (R372). -/
def UpState.code : UpState → Nat
  | .idle => 0 | .applyPending => 1 | .trial => 2 | .revertRequested => 3 | .confirmed => 4

/-- Code of a session state (R157). -/
def SessionState.code : SessionState → Nat
  | .resolving => 0 | .open_ => 1 | .closing => 2

/-- Code of a version kind in a record header (R70). -/
def Kind.code : Kind → Nat
  | .value => 1 | .tombstone => 2 | .touch => 3

/-- Status codes and their indices (R81, R397). -/
def Status.codeIndex : Status → Nat × Nat
  | .success => (0x0000, 0) | .notFound => (0x0001, 1) | .conditionFailed => (0x0002, 2) | .beyondHorizon => (0x0003, 3)
  | .futureStamp => (0x0004, 4) | .moved => (0x0005, 5) | .aborted => (0x0010, 6) | .queueReset => (0x0011, 7)
  | .timedOut => (0x0012, 8) | .noSpace => (0x0020, 9) | .sealed => (0x0021, 10) | .keyExhausted => (0x0022, 11)
  | .tagFailed => (0x0023, 12) | .poisoned => (0x0024, 13) | .mediaUnreadable => (0x0025, 14)
  | .invalidField => (0x0030, 15) | .keyTooLong => (0x0031, 16) | .valueTooLong => (0x0032, 17)
  | .notPermitted => (0x0033, 18) | .namespaceUnknown => (0x0034, 19) | .tagInUse => (0x0035, 20)
  | .busyRetry => (0x0040, 21) | .timeUnlocked => (0x0041, 22) | .updateRefused => (0x0042, 23)

/-- Status code (R81). -/
def Status.code (s : Status) : Nat := s.codeIndex.1

/-- Status index (R397). -/
def Status.index (s : Status) : Nat := s.codeIndex.2

/-- The bytes of a completion (R78). -/
def Completion.bytes (c : Completion) : Bytes :=
  leBytes 2 c.tag.toNat ++ leBytes 2 c.result.status.code ++ leBytes 2 c.head ++ [if c.phase then 1 else 0] ++ [0] ++
  leBytes 8 c.result.commit ++ leBytes 4 c.result.length ++ leBytes 4 c.result.detail ++ leBytes 8 c.result.version

/-- The bytes of an event entry (R115). -/
def EventEntry.bytes (e : EventEntry) : Bytes :=
  leBytes 1 e.source ++ leBytes 1 ((if e.phase then 1 else 0) + (if e.overflow then 2 else 0)) ++ leBytes 2 e.lost ++
  leBytes 4 e.seqNo ++ leBytes 8 e.stamp ++ leBytes 16 e.data.toNat

/-- A bit of a number. -/
def bitOf (n i : Nat) : Bool := n.testBit i

/-- A Bool as a number. -/
def b2n (b : Bool) : Nat := if b then 1 else 0

/-- A bit mask from the numbers whose bit is set. -/
def maskOf (l : List Nat) : Nat := l.foldl (fun acc i => if acc.testBit i then acc else acc + 2 ^ i) 0

end Sys2Proof.Machine

namespace Sys2Proof

/-- Descriptor flags (R74). -/
def Descriptor.ordered (d : Descriptor) : Bool := d.flags.getLsbD 0
def Descriptor.urgent (d : Descriptor) : Bool := d.flags.getLsbD 1
def Descriptor.keyInline (d : Descriptor) : Bool := d.flags.getLsbD 2
def Descriptor.valueList (d : Descriptor) : Bool := d.flags.getLsbD 3
def Descriptor.verified (d : Descriptor) : Bool := d.flags.getLsbD 4
def Descriptor.reservedFlags (d : Descriptor) : Bool := d.flags.getLsbD 5 || d.flags.getLsbD 6 || d.flags.getLsbD 7

/-- The key field's 32 bytes, byte 0x20 first. -/
def Descriptor.keyBytes (d : Descriptor) : Bytes := Machine.leBytes 32 d.keyField.toNat

/-- The key-field number of `n` bytes at descriptor offset `off` (0x20 or above). -/
def Descriptor.param (d : Descriptor) (off n : Nat) : Nat := (d.keyField.toNat / 2 ^ (8 * (off - 32))) % 2 ^ (8 * n)

/-- The 64 bytes of a descriptor (R73). -/
def Descriptor.bytes (d : Descriptor) : Bytes :=
  Machine.leBytes 1 d.opcode.toNat ++ Machine.leBytes 1 d.flags.toNat ++ Machine.leBytes 2 d.tag.toNat ++ Machine.leBytes 2 d.ns.toNat ++
  Machine.leBytes 2 d.keyLen.toNat ++ Machine.leBytes 4 d.valLen.toNat ++ Machine.leBytes 2 d.timeout.toNat ++ Machine.leBytes 2 d.aux.toNat ++
  Machine.leBytes 8 d.stampArg.toNat ++ Machine.leBytes 8 d.valAddr.toNat ++ d.keyBytes

end Sys2Proof
end

