-- ==== Sys2Proof/Decode.lean ====
section
/-! DEFINITION. Reading a command from bits. The table gives its rows no bits, so no word spells a row; a descriptor's 64
bytes are read by R73 (`Descriptor.bytes` in Flags.lean writes them). -/

namespace Sys2Proof

/-- The command that a word spells by the table's bits: the table gives no row any bits, so no word spells one. -/
def decodeTableWord (_nbits _w : Nat) : Option Instr := none

/-- A descriptor as one word of 512 bits, byte 0x00 in bits [7:0] (R73). -/
def Descriptor.toWord (d : Descriptor) : BitVec 512 :=
  d.keyField ++ d.valAddr ++ d.stampArg ++ d.aux ++ d.timeout ++ d.valLen ++ d.keyLen ++ d.ns ++ d.tag ++ d.flags ++ d.opcode

/-- The descriptor that a word of 512 bits spells (R73). -/
def Descriptor.ofWord (w : BitVec 512) : Descriptor where
  opcode   := w.extractLsb' 0 8
  flags    := w.extractLsb' 8 8
  tag      := w.extractLsb' 16 16
  ns       := w.extractLsb' 32 16
  keyLen   := w.extractLsb' 48 16
  valLen   := w.extractLsb' 64 32
  timeout  := w.extractLsb' 96 16
  aux      := w.extractLsb' 112 16
  stampArg := w.extractLsb' 128 64
  valAddr  := w.extractLsb' 192 64
  keyField := w.extractLsb' 256 256

/-- The descriptor that 64 bytes spell (R73). -/
def Descriptor.ofBytes (b : Bytes) : Descriptor := Descriptor.ofWord (BitVec.ofNat 512 (Machine.leNat (b.take 64)))

end Sys2Proof
end

