-- ==== Sys2Proof/Machine/Keys.lean ====
section
/-! DEFINITION. The device's keys and certificates: the derivations of TCG DICE layering (R331), the alias certificate and its chain (R330,
R332), the identity that every one of them names (R329). -/

namespace Sys2Proof.Machine

/-- The 16 bytes of the identity that tokens name (R286, R354). -/
def identityBytes : Bytes :=
  leBytes 8 Config.lot.toNat ++ leBytes 1 Config.wafer.toNat ++ leBytes 1 Config.dieX.toNat ++ leBytes 1 Config.dieY.toNat ++
  leBytes 1 Config.fabSite.toNat ++ zeros 4

/-- The identity fuses in the order of *Identity fuses* (R329), as boot records and certificates name them (R330, R333). -/
def fuseIdentity : Bytes := identityBytes.take 12 ++ leBytes 4 Config.testDate.toNat

/-- Private key of the DeviceID pair: 56 bytes, held by the boot ROM until step 9 of R328. -/
def deviceKey : Bytes := Config.hkdf Config.deviceSecret "LKV DeviceID" 56

/-- The key that wraps pages and KEKs in the metadata region (R285). -/
def storageKey : Bytes := Config.hkdf Config.deviceSecret "LKV Storage" 32

/-- The CDI of a boot: over manifest hash, owner material hash and fuse security version (the version's 4 bytes: log entry 140, DEDUCED). -/
def cdiOf (manifest owner : BitVec 384) (fuse : Nat) : BitVec 384 :=
  Config.hmac384 (Config.hkdf Config.deviceSecret "LKV CDI" 48) (beBytes 48 manifest.toNat ++ beBytes 48 owner.toNat ++ leBytes 4 fuse)

/-- Private key of the alias pair that a CDI yields; the control cores hold it. -/
def aliasOf (cdi : BitVec 384) : Bytes := Config.hkdf (beBytes 48 cdi.toNat) "LKV Alias" 56

/-- A boot record, or an alias certificate, signed by the DeviceID key. -/
def deviceSign (message : Bytes) : BitVec 768 := Config.p384Sign deviceKey message

/-- The alias certificate (R332): alias public key, identity as subject serial number, each part's type and measurement, manifest and fuse
security versions; signed by the DeviceID key. -/
def aliasCertificate (alias_ : Bytes) (parts : List (Nat × Bytes)) (manifest fuse : Nat) : Bytes :=
  let body := Config.aliasTbs (Config.p384Public alias_) fuseIdentity parts manifest fuse
  Config.x509 body (deviceSign body)

/-- The chain of certificate slot 0 below the vendor root: product CA, DeviceID certificate, alias certificate (R330, R332). -/
def chainOf (aliasCert : Bytes) : Bytes := Config.productCa ++ Config.deviceCert ++ aliasCert

end Sys2Proof.Machine
end

