-- ==== Sys2Proof/Machine/Ops.lean ====
section
/-! DEFINITION. The named operations that every family uses: the time of the state, free values, outputs, recorder records
(R344 to R348), event raises with their data layout and rate limits (R376 to R380), field checks. -/

namespace Sys2Proof.Machine

/-! ## Time of the state -/

/-- Grain that holds the time counter (R394). -/
def State.grain (s : State) : Nat := s.time.counter / Config.grainUnit

/-- The counter in ns. -/
def State.nowNs (s : State) : Nat := s.time.counter / Config.nsUnit

/-- Microseconds of the local clock (R3): 500 time-clock edges each. Durations that are not of external time are measured on it. -/
def State.localUs (s : State) : Nat := s.time.edges / 500

/-- The stamp of a grain's slot (R30). -/
def stampOf (grain slot : Nat) : Stamp := grain * 4096 + slot

/-- Grain of a stamp (R30). -/
def grainOf (st : Stamp) : Nat := st / 4096

/-- A time reference is valid (R26): a qualified master on the time port or the backup port, or PPS_IN edges with a SET_TOD
applied. -/
def Time.refValid (t : Time) : Bool :=
  if t.config.source = 0 then t.mainMaster.isSome || t.backMaster.isSome else t.todApplied && !t.ppsMissing

/-- The uncertainty in ns (R412). -/
def Time.uncertainty (t : Time) : Nat :=
  if !t.isSet then Config.maxUncertainty
  else if t.refValid then min Config.maxUncertainty (t.offset.natAbs + t.config.asym)
  else
    let elapsed := t.counter / Config.nsUnit - t.uncAt
    min Config.maxUncertainty (t.uncBase + (if t.clkFault then elapsed / 10000 else elapsed * 5 / 10000000))

/-- Time-clock edges until the counter stands at or above a target. -/
def edgesTo (counter inc target : Nat) : Nat := ceilDiv (target - counter) (max 1 inc)

/-! ## Free values, outputs, counters -/

/-- Draws one free value's number (log entry 1). -/
def State.draw (s : State) : State := s.setFree (s.free + 1)

/-- Records something that leaves the device. -/
def State.emit (s : State) (o : Output) : State := s.updOut (o :: ·)

/-- Lexicographic order of ranks. -/
def rankLe : List Nat → List Nat → Bool
  | [], _ => true
  | _ :: _, [] => false
  | a :: x, b :: y => decide (a < b) || (decide (a = b) && rankLe x y)

/-- An event reaches Col's intake. -/
def State.arrive (s : State) (e : Event) : State := s.updCol fun c => { c with intake := c.intake ++ [e] }

/-- Nothing waits for a stamp, and no step of the time for the grain's edge. -/
def State.quiet (s : State) : Bool := s.col.intake.isEmpty && s.col.carry.isEmpty && s.time.stepDue.isNone

/-- A counter in a map, one up, saturating at 64 bits. -/
def bump (m : NatMap Nat) (k : Nat) : NatMap Nat := mapUpd 0 m k inc64

/-- Draws from the DRBG (R297): counts a request and reseeds after every 2^20. -/
def State.drbg (s : State) : State :=
  (s.updGorge fun g =>
    if g.requests + 1 = 1048576 then { g with requests := 0, reseeds := inc64 g.reseeds }
    else { g with requests := g.requests + 1 }).draw

/-! ## Recorder (R344 to R349) -/

/-- A record's bytes, padded to 8 (R344). -/
def Record.bytes (r : Record) : Bytes :=
  padUp 8 (leBytes 2 r.type ++ leBytes 2 (16 + r.data.length) ++ leBytes 4 r.seqNo ++ leBytes 8 r.stamp ++ r.data)

/-- The room that records take in a page's record area. -/
def recordRoom (l : List Record) : Nat := (l.map fun r => ceilDiv (16 + r.data.length) 8 * 8).sum

/-- A page's 16,384 bytes (R349). -/
def RecPage.bytes (p : RecPage) : Bytes :=
  leBytes 4 0x54524750 ++ leBytes 2 1 ++ leBytes 2 p.recs.length ++ leBytes 8 p.seqNo ++ leBytes 8 p.boot ++
  leBytes 4 ((p.recs.head?.map Record.seqNo).getD 0) ++ leBytes 4 ((p.recs.getLast?.map Record.seqNo).getD 0) ++
  leBytes 8 p.grain ++ leBytes 1 (b2n p.partial_ + 2 * b2n p.carried) ++ zeros 7 ++ beBytes 48 p.prev.toNat ++ zeros 32 ++
  padTo Config.recordArea (p.recs.flatMap Record.bytes)

/-- The page that sealing a slot makes. -/
def sealedPage (seqNo boot grain : Nat) (part carried : Bool) (prev : BitVec 384) (recs : List Record) : RecPage :=
  let p : RecPage := { seqNo := seqNo, boot := boot, grain := grain, partial_ := part, carried := carried, prev := prev,
                       recs := recs, hash := 0 }
  { p with hash := Config.sha384 p.bytes }

/-- Seals the open slot (R347, R348); an open slot with no record stays open. -/
def State.sealSlot (s : State) (part : Bool) : State :=
  match s.terrace.open_ with
  | [] => s
  | recs =>
    s.updTerrace fun t =>
      let p := sealedPage (t.lastSeq + 1) s.update.bootCount s.grain part t.openCarried t.lastHash recs
      { t with open_ := [], openCarried := false, sealed := t.sealed ++ [p], lastSeq := p.seqNo, lastHash := p.hash }

/-- A record enters the buffer, or is counted as not kept when all 16 slots are sealed (R347, R355, R356). The Bool says
whether it was kept. -/
def State.addRecord (s : State) (type : Nat) (stamp : Stamp) (data : Bytes) : State × Bool :=
  let r : Record := { type := type, seqNo := s.terrace.nextSeq, stamp := stamp, data := data }
  let s := s.updTerrace fun t => { t with nextSeq := (t.nextSeq + 1) % 4294967296 }
  let s := if recordRoom (s.terrace.open_ ++ [r]) ≤ Config.recordArea then s else s.sealSlot false
  if s.terrace.sealed.length < Config.recorderSlots then
    (s.updTerrace fun t => { t with open_ := t.open_ ++ [r] }, true)
  else (s.updTerrace fun t => { t with notKept := inc64 t.notKept, sessionLost := inc64 t.sessionLost }, false)

/-! ## Event data and raises (R376 to R380) -/

/-- The lowest free offset for a field of `size` bytes, given the bytes in use as a bit mask. -/
def freeOffset (used size : Nat) : List Nat → Nat
  | [] => 16
  | off :: rest =>
    if off % size = 0 ∧ off + size ≤ 16 ∧ (List.range size).all (fun i => !used.testBit (off + i)) then off
    else freeOffset used size rest

/-- Places fields (size, value) in order by R376. -/
def placeFields (used acc : Nat) : List (Nat × Nat) → Nat
  | [] => acc
  | (size, v) :: rest =>
    let off := freeOffset used size (List.range 16)
    placeFields (used + (2 ^ size - 1) * 2 ^ off) (acc + v % 2 ^ (8 * size) * 2 ^ (8 * off)) rest

/-- The 16 data bytes that hold fields (size, value) in the order listed (R376). -/
def eventData (fields : List (Nat × Nat)) : BitVec 128 := BitVec.ofNat 128 (placeFields 0 0 fields)

/-- A 4-byte offset estimate or uncertainty: ns, saturating at ±2^31 − 1 (R376). -/
def ns32 (i : Int) : Nat := twos 32 (max (-2147483647) (min 2147483647 i))

/-- The 24-byte event payload of a record (R346). -/
def eventPayload (source fn : Nat) (raised : Bool) (data : BitVec 128) : Bytes :=
  [BitVec.ofNat 8 source, BitVec.ofNat 8 fn, if raised then 1 else 0] ++ zeros 5 ++ leBytes 16 data.toNat

/-- Counts a raise and keeps it for the end of the grain (R379, R380). -/
def State.raiseOnly (s : State) (source fn : Nat) (stamp : Stamp) (data : BitVec 128) : State :=
  s.updEvents fun e =>
    { e with raised := mapUpd 0 e.raised source (fun n => satAdd max32 n 1),
             raises := { fn := fn, source := source, stamp := stamp, data := data } :: e.raises }

/-- Whether an occurrence raises its source now, with the count, and the limits after it (R380). -/
def limitStep (limits : List Limit) (source sub grain : Nat) : Option Nat × List Limit :=
  match limits.find? fun l => l.source = source ∧ l.sub = sub with
  | none => (some 1, { source := source, sub := sub, last := grain, held := 0 } :: limits)
  | some l =>
    let rest := limits.filter fun m => !(m.source = source ∧ m.sub = sub)
    if grain < l.last + 1000000 then (none, { l with held := satAdd max32 l.held 1 } :: rest)
    else (some (satAdd max32 l.held 1), { l with last := grain, held := 0 } :: rest)

/-- Forgets the limit of a source and subkey: its next occurrence is a first one (R380). -/
def State.forgetLimit (s : State) (source sub : Nat) : State :=
  s.updEvents fun e => { e with limits := e.limits.filter fun m => !(m.source = source ∧ m.sub = sub) }

/-- Writes a record; a record not kept raises source 210 under its limit (R356, R357). -/
def State.record (s : State) (type : Nat) (stamp : Stamp) (data : Bytes) : State :=
  match s.addRecord type stamp data with
  | (s, true) => s
  | (s, false) =>
    match limitStep s.events.limits 210 0 s.grain with
    | (none, l) => s.updEvents fun e => { e with limits := l }
    | (some n, l) =>
      let d := eventData [(4, n)]
      let s := (s.updEvents fun e => { e with limits := l }).raiseOnly 210 0 0 d
      (s.addRecord 5 0 (eventPayload 210 0 true d)).1

/-- Raises a source toward a function and writes its record of the given type. -/
def State.raise (s : State) (source fn : Nat) (stamp : Stamp) (type : Nat) (data : BitVec 128) : State :=
  (s.raiseOnly source fn stamp data).record type stamp (eventPayload source fn true data)

/-- Writes the event-payload record of a happening that raises no event (R346). -/
def State.recordEvent (s : State) (source : Nat) (stamp : Stamp) (type : Nat) (data : BitVec 128) : State :=
  s.record type stamp (eventPayload source 255 false data)

/-- Keeps an event of the physical function for the entry into REBUILD (R343). -/
def State.later (s : State) (source type : Nat) (data : BitVec 128) : State :=
  s.updUpdate fun u => { u with later := u.later ++ [(source, type, data)] }

/-- Raises a source toward the physical function, or keeps it for the entry into REBUILD while the cores do not run (R343). -/
def State.raiseDevice (s : State) (source type : Nat) (stamp : Stamp) (data : BitVec 128) : State :=
  match s.mode with
  | .fill | .boot => s.later source type data
  | _ => s.raise source 0 stamp type data

/-- Raises a source under the limit of R380, with the data as a function of the count; the record, where the source has one,
is written with each raise. -/
def State.raiseLimited (s : State) (source sub fn : Nat) (stamp : Stamp) (type : Option Nat) (data : Nat → BitVec 128) :
    State :=
  match limitStep s.events.limits source sub s.grain with
  | (none, l) => s.updEvents fun e => { e with limits := l }
  | (some n, l) =>
    let s := s.updEvents fun e => { e with limits := l }
    match type with
    | none => s.raiseOnly source fn stamp (data n)
    | some ty => s.raise source fn stamp ty (data n)

/-! ## Mode changes (R15, R343, R401) -/

/-- The mode changes: source 1 with a MODE record, once REBUILD has begun (R343). -/
def State.enterMode (s : State) (m : Mode) : State :=
  let old := s.mode
  let s := s.setMode m
  let s := s.updPins fun p =>
    { p with alert := p.warning || m = .sealed || (m = .boot && s.update.bootHold != 0) || s.dram.trainFail.isSome }
  let d := eventData [(1, old.code), (1, m.code)]
  match m with
  | .fill => s
  | .boot => s.updUpdate fun u => { u with later := u.later ++ [(1, 6, d)] }
  | _ => s.raise 1 0 0 6 d

/-- Modes in which the cores run and commands are stamped. -/
def Mode.running : Mode → Bool
  | .fill => false | .boot => false | _ => true

/-- Modes that fetch data rings and serve data reads (R14, R110). -/
def Mode.serves : Mode → Bool
  | .service => true | .paired => true | .sealed => true | _ => false

/-! ## Field checks (R77, R80) -/

/-- A failed check: what the command completes with. -/
abbrev Fail := Status × Nat

/-- INVALID_FIELD at a descriptor offset. -/
def badField (off : Nat) : Fail := (.invalidField, off)

/-- INVALID_FIELD at an offset within a data area (detail bit 31, R80). -/
def badArea (off : Nat) : Fail := (.invalidField, 2147483648 + off)

/-- The first failing check of a list of (passes, failure). -/
def firstFail : List (Bool × Fail) → Option Fail
  | [] => none
  | (ok, f) :: rest => if ok then firstFail rest else some f

/-- Descriptor fields that must be zero: the first non-zero one among (offset, size) ranges of its 64 bytes. -/
def reservedFail (b : Bytes) (ranges : List (Nat × Nat)) : Option Fail := (firstNonZero b ranges).map badField

/-- Area fields that must be zero. -/
def reservedAreaFail (b : Bytes) (ranges : List (Nat × Nat)) : Option Fail := (firstNonZero b ranges).map badArea

end Sys2Proof.Machine
end

