-- ==== Sys2Proof/Machine/Operands.lean ====
section
/-! DEFINITION. The operand forms of a command: bytes reached through its addresses (R75, R113), inline and addressed keys
(R74), segment lists (R76), BATCH items (R85), enumeration cursors (R61). -/

namespace Sys2Proof.Machine

/-- `n` bytes from an address of the memory a command reaches; none where a byte is not there (R113, R145). -/
def readArea (area : Area) : Nat → Nat → Nat → Option Bytes
  | 0, _, n => if n = 0 then some [] else none
  | fuel + 1, addr, n =>
    if n = 0 then some []
    else
      match area.find? fun e => e.1 ≤ addr ∧ addr < e.1 + e.2.length with
      | none => none
      | some e =>
        let part := (e.2.drop (addr - e.1)).take n
        if part.length = n then some part
        else (readArea area fuel (addr + part.length) (n - part.length)).map (part ++ ·)

/-- `n` bytes from an address of a submission's memory. -/
def subRead (c : Submission) (addr n : Nat) : Option Bytes := readArea c.area (c.area.length + 1) addr n

/-- The key bytes: inline, or at the key address (R74, *Key field*); a failed read names offset 0x20 (R113). -/
def keyOf (c : Submission) : Except Fail Bytes :=
  if c.desc.keyInline then .ok (c.desc.keyBytes.take c.desc.keyLen.toNat)
  else
    match subRead c (c.desc.param 0x20 8) c.desc.keyLen.toNat with
    | some b => .ok b
    | none => .error (badField 0x20)

/-- The prefix bytes of an ENUMERATE; a failed read names offset 0x28. -/
def prefixOf (c : Submission) : Except Fail Bytes :=
  match subRead c (c.desc.param 0x28 8) (c.desc.param 0x30 2) with
  | some b => .ok b
  | none => .error (badField 0x28)

/-- The data area of `n` bytes at the value address; a failed read names offset 0x18. -/
def areaOf (c : Submission) (n : Nat) : Except Fail Bytes :=
  match subRead c c.desc.valAddr.toNat n with
  | some b => .ok b
  | none => .error (badField 0x18)

/-- Walks a segment list (R76): address of the next entry, entries left in this piece (none: not bounded), position counted
over all entries, data entries so far, bytes still to cover. Answers the segments in order. -/
def walkSegments (c : Submission) : Nat → Nat → Option Nat → Nat → Nat → Nat → Except Fail (List (Nat × Nat))
  | 0, _, _, pos, _, _ => .error (badArea (16 * pos))
  | fuel + 1, addr, left, pos, count, need =>
    if need = 0 then .ok []
    else if left = some 0 then .error (badArea (16 * pos))
    else
      match subRead c addr 16 with
      | none => .error (badField 0x18)
      | some e =>
        let a := field e 0 8
        let len := field e 8 4
        let flags := field e 12 4
        if bitOf flags 0 then
          if len % 16 ≠ 0 ∨ len < 16 ∨ 4096 < len ∨ a % 16 ≠ 0 then .error (badArea (16 * pos))
          else if 2 ≤ flags then .error (badArea (16 * pos + 12))
          else walkSegments c fuel a (some (len / 16)) (pos + 1) count need
        else if count = Config.maxSegmentList then .error (badArea (16 * pos))
        else if len = 0 ∨ Config.maxValue < len then .error (badArea (16 * pos + 8))
        else if 2 ≤ flags then .error (badArea (16 * pos + 12))
        else
          (walkSegments c fuel (addr + 16) (left.map (· - 1)) (pos + 1) (count + 1) (need - min need len)).map
            ((a, min need len) :: ·)

/-- Steps that a walk over a list can take without meeting an entry twice: CHAIN entries between two of the 4,096 data entries lie at
different places of the memory. DESIGN CHOICE (log entry 112): CHAIN entries that lead round in a circle, for which R76 gives no outcome,
end the walk as a list that does not cover the value. -/
def walkBound (c : Submission) : Nat := (Config.maxSegmentList + 2) * ((c.area.map fun e => e.2.length).sum + 2)

/-- The host-memory pieces that cover the first `n` bytes of the value (R75, R76). -/
def valuePieces (c : Submission) (n : Nat) : Except Fail (List (Nat × Nat)) :=
  if n = 0 then .ok []
  else if c.desc.valueList then
    if c.desc.valAddr.toNat % 16 ≠ 0 then .error (badField 0x18)
    else walkSegments c (walkBound c) c.desc.valAddr.toNat none 0 0 n
  else .ok [(c.desc.valAddr.toNat, n)]

/-- Reads pieces in order; a failed read names the value address field (R113). -/
def readPieces (c : Submission) : List (Nat × Nat) → Except Fail Bytes
  | [] => .ok []
  | (a, n) :: rest =>
    match subRead c a n with
    | none => .error (badField 0x18)
    | some b => (readPieces c rest).map (b ++ ·)

/-- The value that a PUT or PUT_IF writes. -/
def valueOf (c : Submission) : Except Fail Bytes :=
  match valuePieces c c.desc.valLen.toNat with
  | .error f => .error f
  | .ok p => readPieces c p

/-- Data laid over host-memory pieces: the writes (address, bytes), in order. -/
def scatter (data : Bytes) : List (Nat × Nat) → List (Nat × Bytes)
  | [] => []
  | (a, n) :: rest => if data.isEmpty then [] else (a, data.take n) :: scatter (data.drop n) rest

/-- An item header of a BATCH (R85). -/
structure ItemHeader where
  opcode   : Nat
  reserved : Bool
  keyLen   : Nat
  valLen   : Nat
  arg      : Nat
  keyOff   : Nat
  valOff   : Nat
  tail     : Bool
  deriving DecidableEq, Repr

/-- The item header at position `i` of an item area. -/
def itemHeader (area : Bytes) (i : Nat) : ItemHeader :=
  let b := slice area (32 * i) 32
  { opcode := field b 0 1, reserved := field b 1 1 = 0, keyLen := field b 2 2, valLen := field b 4 4, arg := field b 8 8,
    keyOff := field b 16 4, valOff := field b 20 4, tail := field b 24 8 = 0 }

/-- The item form of a detail (R80): bit 30, item index, reason or offset. -/
def itemDetail (i r : Nat) : Nat := 1073741824 + r * 65536 + i

/-- Whether an item's key and value lie within an area of `size` bytes. -/
def ItemHeader.keyFits (h : ItemHeader) (size : Nat) : Bool := decide (h.keyOff + h.keyLen ≤ size)
def ItemHeader.valFits (h : ItemHeader) (size : Nat) : Bool := decide (h.valLen = 0 ∨ h.valOff + h.valLen ≤ size)

/-- The key bytes of an item. -/
def ItemHeader.key (h : ItemHeader) (area : Bytes) : Bytes := slice area h.keyOff h.keyLen

/-- Offsets within an item header that the field checks of R77 and R85 find wrong, lowest first; a PUT of an APPLY may carry its expiry in the
argument (R312). -/
def itemFieldFail (h : ItemHeader) (size : Nat) (peer : Bool) : Option Nat :=
  if !(h.opcode = 0x10 || h.opcode = 0x11 || h.opcode = 0x12 || h.opcode = 0x15) then some 0
  else if !h.reserved then some 1
  else if (h.opcode = 0x12 || h.opcode = 0x15) && h.valLen != 0 then some 4
  else if ((h.opcode = 0x10 && !peer) || h.opcode = 0x12) && h.arg != 0 then some 8
  else if !h.keyFits size then some 0x10
  else if !h.valFits size then some 0x14
  else if !h.tail then some 0x18
  else none

/-- An enumeration cursor (R61). -/
structure Cursor where
  fp      : Nat := 0
  ordinal : Nat := 0
  ns      : Nat := 0
  end_    : Bool := false
  deriving DecidableEq, Repr

/-- The cursor that 16 bytes spell. -/
def cursorOf (b : Bytes) : Cursor :=
  { fp := field b 0 8, ordinal := field b 8 4, ns := field b 12 2, end_ := bitOf (field b 14 2) 0 }

/-- The 16 bytes of a cursor. -/
def Cursor.bytes (c : Cursor) : Bytes :=
  leBytes 8 c.fp ++ leBytes 4 c.ordinal ++ leBytes 2 c.ns ++ leBytes 2 (b2n c.end_)

end Sys2Proof.Machine
end

