-- ==== Sys2Proof/Machine/Basin.lean ====
section
/-! DEFINITION. Basin (R185 to R196): the carving of the pools, draws, requests, handle checks, releases and the wait
lists. -/

namespace Sys2Proof.Machine

/-! ## Lines of data DRAM (R272) -/

/-- The spare lines: the top 2 KiB of data DRAM. -/
def Dram.spareLine (d : Dram) (i : Nat) : Nat := Config.dataDram d.density d.ranks - 2048 + 128 * i
def State.spareLine (s : State) (i : Nat) : Nat := s.dram.spareLine i

/-- Where an access to a line goes (R272). -/
def Dram.lineAt (d : Dram) (addr : Nat) : Nat :=
  match d.remaps.findIdx? (· = addr) with
  | some i => d.spareLine i
  | none => addr
def State.lineAt (s : State) (addr : Nat) : Nat := s.dram.lineAt addr

/-! ## Pools -/

/-- Pool `p`. -/
def State.pool (s : State) (p : Nat) : Pool := mapGet {} s.basin.pools p

/-- Pool `p` changed. -/
def State.updPool (s : State) (p : Nat) (f : Pool → Pool) : State :=
  s.updBasin fun b => { b with pools := mapUpd {} b.pools p f }

/-- Carves the pools from sizes in MiB (R185, R186). -/
def carvePools (mibs : List Nat) : NatMap Pool :=
  (List.range 8).map fun p =>
    let m := mibs.getD p 8
    (p, { mib := m, next := m, count := Config.poolCount p m, free := Config.poolCount p m })

/-- The low-water mark W of a pool (R191, R195). -/
def State.lowWater (s : State) (p : Nat) : Nat :=
  min (s.pool p).count (mapGet ((s.pool p).count / 16) s.inForce.poolLow p)

/-- The receive reserve and the fetch reserve (R191, R195). -/
def State.rxReserve (s : State) : Nat := min (s.pool 3).count s.inForce.rxReserve
def State.fetchReserve (s : State) : Nat := min (s.pool 0).count s.inForce.fetchReserve

/-- The smallest pool whose buffer holds `n` bytes (R190). -/
def poolFor (n : Nat) : Nat := ((List.range 8).find? fun p => n ≤ Config.bufferSize p).getD 7

/-- The buffer that an allocation takes: the lowest free index (log entry 12). -/
def Pool.nextIndex (p : Pool) : Nat :=
  match p.buffers.find? fun b => !b.2.alloc with
  | some b => b.1
  | none => p.buffers.length

/-- The 32-bit form of a handle (R187). -/
def handleWord (h : Handle) : Nat := h.pool * 536870912 + h.index * 256 + h.gen

/-- The 16-bit form of an owner tag (R187): the class in bits [15:12], the number in bits [11:0]. DEDUCED (log entry 117): the number of an
admin ring, 4,096 + function, has 13 bits, of which the word holds the lower 12. -/
def ownerWord (o : OwnerTag) : Nat := o.cls % 16 * 4096 + o.number % 4096

/-- Source 176 where a pool's free count has fallen to its mark, or pool 3's to the receive reserve (R194, R196), with the count since the
previous one behind the fields that the table lists (log entry 118). -/
def State.lowEvents (s : State) (p : Nat) : State :=
  let f := (s.pool p).free
  let s := if f = s.lowWater p then
    s.raiseLimited 176 0 0 0 (some 0x400) fun n => eventData [(1, p), (4, f), (4, s.lowWater p), (4, n)] else s
  if p = 3 ∧ f = s.rxReserve then
    s.raiseLimited 176 0 0 0 (some 0x400) fun n => eventData [(1, p), (4, f), (4, s.rxReserve), (4, n)] else s

/-- Takes a buffer: the generation advances from 255 to 1, never to 0 (R187). -/
def State.takeBuffer (s : State) (p : Nat) (o : OwnerTag) : State × Handle :=
  let pl := s.pool p
  let i := pl.nextIndex
  let g := match mapGet? pl.buffers i with
    | none => 1
    | some b => if b.gen = 255 then 1 else b.gen + 1
  let s := s.updPool p fun pl =>
    { pl with buffers := mapSet pl.buffers i { gen := g, alloc := true, owner := o }, free := pl.free - 1,
              allocs := inc64 pl.allocs }
  (s.lowEvents p, { pool := p, index := i, gen := g })

/-- A refused draw is counted (R190). -/
def State.failDraw (s : State) (p : Nat) : State := s.updPool p fun pl => { pl with fails := inc64 pl.fails }

/-- A receive draw from pool 3 (R191). -/
def State.rxDraw (s : State) (o : OwnerTag) : State × Option Handle :=
  if 1 ≤ (s.pool 3).free then let (s, h) := s.takeBuffer 3 o; (s, some h) else (s.failDraw 3, none)

/-- `n` receive draws as a frame lands. Answers the buffers taken, and whether every draw succeeded (R178, R179). -/
def State.rxDraws (s : State) (o : OwnerTag) : Nat → List Handle → State × List Handle × Bool
  | 0, acc => (s, acc.reverse, true)
  | n + 1, acc =>
    match s.rxDraw o with
    | (s, some h) => s.rxDraws o n (h :: acc)
    | (s, none) => (s, acc.reverse, false)

/-- A ring-fetch draw from pool 0; data rings leave the fetch reserve (R191). -/
def State.fetchDraw (s : State) (admin : Bool) (o : OwnerTag) : State × Option Handle :=
  let f := (s.pool 0).free
  if (if admin then 1 ≤ f else s.fetchReserve < f) then let (s, h) := s.takeBuffer 0 o; (s, some h)
  else (s.failDraw 0, none)

/-- Whether a pool's free count meets the limits of a request (R191). -/
def State.grantable (s : State) (p : Nat) (o : OwnerTag) : Bool :=
  let f := (s.pool p).free
  decide (0 < f) && (!(o.cls = 3 || o.cls = 5) || decide (s.lowWater p < f)) && (p != 3 || decide (s.rxReserve < f))

/-- A waiter enters a pool's wait list in stamp order (R191, R192). -/
def State.joinWait (s : State) (p : Nat) (w : Waiter) : State :=
  s.updPool p fun pl =>
    let l := insertBy (fun a b => a.stamp ≤ b.stamp) w pl.waiters
    { pl with waiters := l, waits := inc64 pl.waits, peak := max pl.peak l.length,
              waitSince := if pl.waiters.isEmpty then s.localUs else pl.waitSince,
              waitRaised := if pl.waiters.isEmpty then false else pl.waitRaised }

/-- A request at its stamp: granted when the pool meets its limit and no earlier-stamped request waits; otherwise it waits (R191). -/
def State.request (s : State) (p : Nat) (o : OwnerTag) (stamp : Stamp) (wants : Want) : State × Option Handle :=
  if s.grantable p o && (s.pool p).waiters.all (fun w => decide (stamp < w.stamp)) then
    let (s, h) := s.takeBuffer p o; (s, some h)
  else (s.joinWait p { stamp := stamp, owner := o, wants := wants }, none)

/-- A command leaves every wait list (R192). -/
def State.leaveWait (s : State) (work : Stamp) : State :=
  s.updBasin fun b =>
    { b with pools := b.pools.map fun e => (e.1, { e.2 with waiters := e.2.waiters.filter fun w => w.wants != .work work }) }

/-- The checks of R188 on an operation, in order: 0 passed, else the number of the first failing check. `access` is an
access at an offset and length; a release or a transfer otherwise. -/
def State.checkHandle (s : State) (h : Handle) (o : OwnerTag) (access : Option (Nat × Nat)) : Nat :=
  let pl := s.pool h.pool
  if 8 ≤ h.pool ∨ pl.count = 0 ∨ pl.count ≤ h.index then 1
  else if (match access with
      | none => false
      | some (off, len) => !(off % 8 = 0 && decide (off + len ≤ Config.bufferSize h.pool))) then 2
  else
    match mapGet? pl.buffers h.index with
    | none => if h.gen = 0 then 4 else 3
    | some b => if b.gen ≠ h.gen then 3 else if !b.alloc then 4 else if b.owner ≠ o then 5 else 0

/-- Counts a failed check and raises its source (R188, R189, R196). `op` is the operation's code: 1 access, 2 release,
3 transfer. -/
def State.handleFault (s : State) (h : Handle) (o : OwnerTag) (op check : Nat) : State :=
  let s := s.updBasin fun b =>
    match check with
    | 1 => { b with badRange := inc64 b.badRange }
    | 2 => { b with badAlign := inc64 b.badAlign }
    | 3 => { b with badGen := inc64 b.badGen }
    | 4 => if op = 1 then { b with badGen := inc64 b.badGen } else { b with doubleFree := inc64 b.doubleFree }
    | _ => { b with nonOwner := inc64 b.nonOwner }
  let owner := ((mapGet? (s.pool h.pool).buffers h.index).map Buffer.owner).getD { cls := 0, number := 0 }
  if check = 4 ∧ op ≠ 1 then
    s.raiseLimited 178 0 0 0 (some 0x401) fun n => eventData [(4, handleWord h), (2, ownerWord o), (4, n)]
  else if check = 5 then
    s.raiseLimited 179 0 0 0 (some 0x401) fun n => eventData [(4, handleWord h), (2, ownerWord o), (2, ownerWord owner), (4, n)]
  else s.raiseLimited 180 0 0 0 (some 0x401) fun n => eventData [(4, handleWord h), (1, op), (1, check), (4, n)]

/-- A transfer of ownership, checked (R187, R188). -/
def State.transfer (s : State) (h : Handle) (src dst : OwnerTag) : State :=
  match s.checkHandle h src none with
  | 0 => s.updPool h.pool fun pl =>
      { pl with buffers := pl.buffers.map fun e => if e.1 = h.index then (e.1, { e.2 with owner := dst }) else e }
  | k => s.handleFault h src 3 k

/-- A buffer's entry changed. -/
def State.updBuffer (s : State) (h : Handle) (f : Buffer → Buffer) : State :=
  s.updPool h.pool fun pl => { pl with buffers := pl.buffers.map fun e => if e.1 = h.index then (e.1, f e.2) else e }

/-- A release at its stamp: the buffer is free (R189, R193). -/
def State.freeBuffer (s : State) (h : Handle) (o : OwnerTag) : State :=
  match s.checkHandle h o none with
  | 0 => (s.updBuffer h fun b => { b with alloc := false, bytes := [], poisoned := false }).updPool h.pool fun pl =>
      { pl with free := pl.free + 1, releases := inc64 pl.releases }
  | k => s.handleFault h o 2 k

/-- A buffer and its check bits are zeroed before its release is presented (R193); a handle that does not pass the checks changes nothing. -/
def State.zeroBuffer (s : State) (h : Handle) (o : OwnerTag) : State :=
  if s.checkHandle h o none = 0 then s.updBuffer h fun b => { b with bytes := [], poisoned := false } else s

/-- A buffer, zeroed, is presented to Col for its release (R31 class P1, R193), at the position of the command that held it. -/
def State.presentRelease (s : State) (h : Handle) (o : OwnerTag) (place : Nat) : State :=
  (s.zeroBuffer h o).arrive (.release h o place)

/-- A release of several buffers reaches Col's intake. -/
def State.queueRelease (s : State) (hs : List Handle) (o : OwnerTag) (place : Nat) : State :=
  hs.foldl (fun s h => s.presentRelease h o place) s

/-- An access to a buffer, checked (R188): whether it is made. `off` and `len` are its place. -/
def State.access (s : State) (h : Handle) (o : OwnerTag) (off len : Nat) : State × Bool :=
  match s.checkHandle h o (some (off, len)) with
  | 0 => (s, true)
  | k => (s.handleFault h o 1 k, false)

/-- A write of bytes into a buffer (R188, R189): a refused one is discarded. The Bool says whether it was made. -/
def State.writeBuffer (s : State) (h : Handle) (o : OwnerTag) (off : Nat) (b : Bytes) : State × Bool :=
  match s.access h o off b.length with
  | (s, true) => (s.updBuffer h fun x => { x with bytes := patch (padTo (off + b.length) x.bytes) off b }, true)
  | (s, false) => (s, false)

/-- A read of a buffer (R188, R189): its bytes, or none where it is refused or meets poisoned contents: the data is then poisoned. -/
def State.readBuffer (s : State) (h : Handle) (o : OwnerTag) (off len : Nat) : State × Option Bytes :=
  match s.access h o off len with
  | (s, true) =>
    match mapGet? (s.pool h.pool).buffers h.index with
    | some b => (s, if b.poisoned then none else some ((padTo (off + len) b.bytes |>.drop off).take len))
    | none => (s, none)
  | (s, false) => (s, none)

/-- Source 177 for a wait list that has been non-empty for 10 ms (R194). -/
def State.waitTimeout (s : State) (p : Nat) : State :=
  let pl := s.pool p
  match pl.waiters with
  | [] => s
  | w :: _ =>
    if !pl.waitRaised && decide (pl.waitSince + 10000 ≤ s.localUs) then
      (s.updPool p fun pl => { pl with waitRaised := true }).raiseLimited 177 0 0 w.stamp (some 0x400) fun n =>
        eventData [(1, p), (2, pl.waiters.length), (4, n)]
    else s

/-- The hold of data-ring fetching by the fetch reserve begins or ends (R194). -/
def State.fetchHoldUpdate (s : State) : State :=
  if (s.pool 0).free ≤ s.fetchReserve then
    match s.host.fetchHold with
    | some _ => s
    | none =>
      (s.updHost fun h => { h with fetchHold := some s.localUs, fetchRaised := false }).updBasin fun b =>
        { b with fetchHeld := inc64 b.fetchHeld }
  else s.updHost fun h => { h with fetchHold := none }

/-- Source 181 for a hold that has lasted 1 ms (R194). -/
def State.fetchHoldTimeout (s : State) : State :=
  match s.host.fetchHold with
  | none => s
  | some g =>
    if !s.host.fetchRaised && decide (g + 1000 ≤ s.localUs) then
      (s.updHost fun h => { h with fetchRaised := true }).raise 181 0 0 0x400
        (eventData [(4, (s.pool 0).free), (4, s.fetchReserve)])
    else s

/-- A unit write to a logical block: its log block, or the least recently written one, which is merged first (R234). The
blocks of one row of R234's table count as their first (log entry 99). -/
def State.metaWrite (s : State) (logical : Nat) : State :=
  let l := s.delta.merging.filter (· != logical)
  let taken := logical ∈ s.delta.merging
  if !taken ∧ 16 ≤ l.length then
    s.updDelta fun d => { d with merging := l.drop 1 ++ [logical], copyMerges := inc64 d.copyMerges }
  else s.updDelta fun d => { d with merging := l ++ [logical] }

/-- A word of on-chip SRAM is read (R277). The memories of R277 are numbered in its order: 1 Basin, 2 the journal buffer, 3 the recorder buffer,
4 core local memory, 5 the gate SRAM, 6 controller tables (DESIGN CHOICE, log entry 135). -/
def State.sramRead (s : State) (memory addr : Nat) : SramFault → State
  | .clean => s
  | .corrected => (s.updDram fun d => { d with sramCorrected := inc64 d.sramCorrected }).raiseLimited 150 0 0 0 (some 0x600) fun n =>
      eventData [(1, memory), (8, addr), (4, n)]
  | .doubleBit => (s.updDram fun d => { d with sramBad := inc64 d.sramBad }).raise 151 0 0 0x604 (eventData [(1, memory), (8, addr)])

/-- BASIN_CTRL.SAVE (R186): checks the split named by POOL_NEXT and stores it. -/
def State.basinSave (s : State) : State :=
  let next := (List.range 8).map fun p => (s.pool p).next
  let code := if next.sum ≠ 64 then 1 else if next.any (· = 0) ∨ next.getD 3 0 < 4 then 2 else 0
  if code = 0 then
    (s.updBasin fun b => { b with stored := some next, saveDone := true, saveError := false, saveCode := 0 }).metaWrite 0
  else
    (s.updBasin fun b => { b with saveDone := false, saveError := true, saveCode := code }).raise 182 0 0 0x402
      (eventData [(1, code)])

/-- The carving at entry into REBUILD after power-on or SYS_RESET# (R186). The cause of the default in source 182 is 0 where no split is
stored, and 1 where it is unreadable: DESIGN CHOICE (log entry 119), no value is stated. -/
def State.basinCarve (s : State) (unreadable : Bool) : State :=
  match (if unreadable then none else s.basin.stored) with
  | some l => s.updBasin fun b => { b with pools := carvePools l, defaulted := false }
  | none =>
    (s.updBasin fun b => { b with pools := carvePools (List.replicate 8 8), defaulted := true }).raise 182 0 0 0x402
      (eventData [(1, b2n s.basin.stored.isSome)])

end Sys2Proof.Machine
end

