-- ==== Sys2Proof/Machine/Clock.lean ====
section
/-! DEFINITION. Time: the servo's sample (R411, R412, R21), time-quality states (R26 to R29), best master and port in use
(R18), steps (R22, R23), the TIME_SEAL record (R337), and the calendar's formula (R38). -/

namespace Sys2Proof.Machine

/-! ## Calendar formula -/

/-- Window `w` is active in grain `g` (R38). -/
def Window.active (w : Window) (g : Nat) : Bool := w.enable && decide ((g + w.period - w.start) % w.period < w.duration)

/-- The latest grain at or before `g` that holds a start edge. -/
def Window.lastEdge (w : Window) (g : Nat) : Nat := g - (g + w.period - w.start) % w.period

/-- The latest grain at or before `g` that holds an end edge. -/
def Window.lastEnd (w : Window) (g : Nat) : Nat := g - (g + 2 * w.period - w.start - w.duration) % w.period

/-- A start edge is due in grain `g`: one has fallen in `g` or in a grain passed without it (R37, R38). -/
def Window.startDue (w : Window) (g : Nat) : Bool := w.enable && decide (w.started ≤ w.lastEdge g)

/-- An end edge is due in grain `g`: a change has ended the active window, or an end edge has fallen in `g` or in a grain passed
without it (R37, R38, R99). -/
def Window.endDue (w : Window) (g : Nat) : Bool := w.endOwed || (w.enable && decide (w.ended ≤ w.lastEnd g))

/-- A restored window acts from grain `g`: no edge of an earlier grain fires, and its actions apply if it is active. -/
def Window.restore (w : Window) (g : Nat) : Window := { w with started := g, ended := g, endOwed := false }

/-- Windows active in grain `g`. -/
def State.activeWindows (s : State) (g : Nat) : List Window := if !s.time.isSet then [] else (s.time.windows.map Prod.snd).filter (·.active g)

/-- Least value among the active windows' actions that are not "none". -/
def leastAction (l : List Nat) : Option Nat :=
  l.foldl (fun acc x => if x = 255 then acc else match acc with | none => some x | some a => some (min a x)) none

/-- GC intensity: the highest among active windows; none means adaptive (R38). -/
def State.calendarGc (s : State) : Option Nat :=
  ((s.activeWindows s.grain).map Window.gc).foldl
    (fun acc x => if x = 255 then acc else match acc with | none => some x | some a => some (max a x)) none

/-- Patrol: off wins (R38). -/
def State.calendarPatrol (s : State) : Option Nat := leastAction ((s.activeWindows s.grain).map Window.patrol)

/-- Power-state floor: the shallowest (R38); PS3 with none. -/
def State.calendarFloor (s : State) : Nat := (leastAction ((s.activeWindows s.grain).map Window.floor)).getD 3

/-! ## Time quality -/

/-- Data of source 16. -/
def State.qualityData (s : State) (old new : Quality) : BitVec 128 :=
  eventData [(1, old.code), (1, new.code), (4, ns32 s.time.offset), (4, ns32 s.time.uncertainty)]

/-- Writes the TIME_SEAL of R337 with the stamp of the LOCKED moment, unless one has followed the latest boot record. -/
def State.timeSeal (s : State) (stamp : Stamp) : State :=
  if s.time.sealed ∨ !s.mode.running then s
  else
    let t := s.time
    let body := leBytes 8 s.update.bootCount ++ beBytes 48 (Config.sha384 s.update.bootRec).toNat ++ leBytes 8 (grainOf stamp) ++
      leBytes 8 (twos 64 t.offset) ++ leBytes 8 t.uncertainty ++ leBytes 8 (if t.config.source = 1 then 0 else t.masterId.toNat) ++
      leBytes 1 t.config.source ++ leBytes 1 t.inUse ++ zeros 6
    let header := leBytes 2 2 ++ leBytes 2 208 ++ leBytes 4 s.terrace.nextSeq ++ leBytes 8 stamp
    let sig := Config.p384Sign s.update.aliasKey (header ++ body)
    (s.updTime fun t => { t with sealed := true }).record 2 stamp (body ++ beBytes 96 sig.toNat)

/-- Time quality changes: source 16 and TIME_STATE (R26); entering LOCKED sets "LOCKED since boot" and seals (R25, R337). -/
def State.setQuality (s : State) (q : Quality) (stamp : Stamp) : State :=
  if s.time.quality = q then s
  else
    let old := s.time.quality
    let was := s.time.lockedBoot
    let s := s.updTime fun t =>
      { t with quality := q, lockedBoot := t.lockedBoot || q = .locked, relocked := t.relocked && q = .lost,
               lockGrain := if t.lockedBoot ∨ q ≠ .locked then t.lockGrain else s.grain }
    let s := s.raiseDevice 16 0x100 stamp (s.qualityData old q)
    if q = .locked then
      let s := if !was && s.mode = .rebuild && s.update.rebuilt && decide (s.grain ≤ s.delta.mediaGrain) then
          s.raise 24 0 0 0x103 (eventData [(8, s.grain), (8, s.delta.mediaGrain)]) else s
      s.timeSeal (if stamp = 0 then stampOf s.grain 0 else stamp)
    else s

/-- The reference has been lost (R26), with the uncertainty that held just before. DESIGN CHOICE (log entry 101): a slew that runs ends
with the reference, and the increment returns to nominal. -/
def State.refLost (s : State) (stamp unc : Nat) : State :=
  let now := s.nowNs
  let keep (u : Nat) (s : State) : State := s.updTime fun t =>
    { t with uncBase := u, uncAt := now, halfRaised := false, inBound := 0, outBound := 0, samples := [], stepDue := none,
             increment := Config.nominalIncrement }
  match s.time.quality with
  | .acquiring => (keep unc s).setQuality .holdover stamp
  | .locked => (keep 250 s).setQuality .holdover stamp
  | .lost => (keep unc s).updTime fun t => { t with relocked := false }
  | _ => keep unc s

/-- A reference has become valid (R26). DEDUCED (log entry 102): ACQUIRING begins with the first good Announce, before the counter is
first set. -/
def State.refValidNow (s : State) (stamp : Stamp) : State :=
  let s := s.updTime fun t => { t with inBound := 0, outBound := 0, samples := [] }
  match s.time.quality with
  | .unlocked => s.setQuality .acquiring stamp
  | .holdover => s.setQuality .acquiring stamp
  | _ => s

/-- The change of validity that an update of the reference's data makes. -/
def State.refChange (s : State) (stamp : Stamp) (f : Time → Time) : State :=
  let was := s.time.refValid
  let unc := s.time.uncertainty
  let s := s.updTime f
  match was, s.time.refValid with
  | true, false => s.refLost stamp unc
  | false, true => s.refValidNow stamp
  | _, _ => s

/-! ## Best master and port in use (R18) -/

/-- The port in use after the masters have changed: stays, or goes to the other port when its master is gone. -/
def Time.choosePort (t : Time) : Nat × BitVec 64 :=
  let main := t.mainMaster.map fun m => (t.config.timePort, m.ann.clock)
  let back := t.backMaster.map fun m => (t.config.backup, m.ann.clock)
  let best := if t.inUse = t.config.backup then (back.orElse fun _ => main) else (main.orElse fun _ => back)
  best.getD (255, 0)

/-- A change of the masters: the port in use follows, with source 17 at a switch (R18), and validity follows (R26). DESIGN CHOICE (log
entry 103): a switch goes from one port to the other at one change of the masters; a time with no master between them is none. -/
def State.mastersChange (s : State) (stamp : Stamp) (f : Time → Time) : State :=
  let old := s.time.inUse
  let s := s.refChange stamp fun t => let t := f t; { t with inUse := t.choosePort.1, masterId := t.choosePort.2 }
  let new := s.time.inUse
  if old ≠ new ∧ old ≠ 255 ∧ new ≠ 255 then
    s.raise 17 0 stamp 0x101 (eventData [(1, old), (1, new), (8, s.time.masterId.toNat)])
  else s

/-- A port's master is lost: an Announce receipt timeout or a link down (R18). -/
def State.masterLost (s : State) (port : Nat) : State :=
  s.mastersChange 0 fun t =>
    { t with mainMaster := if port = t.config.timePort then none else t.mainMaster,
             backMaster := if port = t.config.backup then none else t.backMaster }

/-! ## Servo (R411, R412, R21, R26) -/

/-- The offset estimate after a sample: at once beyond 1 ms or at or below −L; else the filter, settled within 10 % of an
offset that has been constant for 16 samples (R411). -/
def servoEstimate (draw : Nat) (limit : Int) (samples : List Int) (raw : Int) : Int :=
  if 1000000 < raw ∨ raw ≤ -limit then raw
  else
    let f := Config.servoFilter draw samples
    if samples.length = 16 ∧ samples.all (· = raw) ∧ raw.natAbs < (f - raw).natAbs * 10 then raw else f

/-- The increment for an estimate that calls for no step (R21, R411). -/
def servoIncrement (draw : Nat) (o : Int) : Nat :=
  if 250 < o then Config.maxIncrement
  else if o < -250 then Config.minIncrement
  else max Config.minIncrement (min Config.maxIncrement (Config.servoGain draw o))

/-- One servo sample (R411, R21, R26). DESIGN CHOICE (log entry 104): source 19 is raised where the estimate crosses -L or LOST is not
declared yet, not at every sample that stays at or below it. -/
def State.servoSample (s : State) (raw : Int) : State :=
  let limit : Int := (s.time.config.limit * 1000 : Nat)
  let before := s.time.offset
  let samples := (raw :: s.time.samples).take 16
  let o := servoEstimate s.free limit samples raw
  let inB := decide (-250 ≤ o ∧ o ≤ 250)
  let s := (s.updTime fun t =>
    { t with samples := samples, offset := o, inBound := if inB then t.inBound + 1 else 0,
             outBound := if inB then 0 else t.outBound + 1 }).draw
  let fault := s.time.clkFault
  if o ≤ -limit then
    let s := s.updTime fun t =>
      { t with increment := Config.nominalIncrement, stepDue := none, inBound := 0, outBound := 0 }
    let s := if -limit < before ∨ s.time.quality ≠ .lost then s.raise 19 0 0 0x103 (eventData [(4, ns32 o)]) else s
    s.setQuality .lost 0
  else
    let step := decide (1000000 < o) || (!s.time.isSet && decide (0 < o))
    let s := if fault then s
      else if step then s.updTime fun t => { t with stepDue := some o }
      else s.updTime fun t => { t with stepDue := none, increment := servoIncrement s.free o }
    match s.time.quality with
    | .locked => if 1000000 < o ∨ 4 ≤ s.time.outBound then s.setQuality .acquiring 0 else s
    | .acquiring => if 8 ≤ s.time.inBound ∧ s.time.isSet then s.setQuality .locked 0 else s
    | .lost =>
      if 8 ≤ s.time.inBound ∧ !s.time.relocked ∧ !fault then
        (s.updTime fun t => { t with relocked := true }).raise 21 0 0 0x100 (eventData [(4, ns32 o)])
      else s
    | _ => s

/-- The forward step that is due at the edge that ends grain `g` (R21 to R23): the counter, the grains skipped, source 18; the first
setting restores the calendar (R38). -/
def State.applyStep (s : State) (g : Nat) : State :=
  match s.time.stepDue with
  | none => s
  | some d =>
    if d ≤ 0 then s.updTime fun t => { t with stepDue := none }
    else
      let first := !s.time.isSet
      let s := s.updTime fun t =>
        { t with counter := t.counter + d.toNat * Config.nsUnit, stepDue := none, isSet := true, offset := 0, samples := [],
                 ppsLast := t.ppsLast + d.toNat,
                 inBound := 0, outBound := 0, increment := Config.nominalIncrement }
      let g' := s.grain
      let s := s.updTime fun t =>
        { t with skipped := satAdd max64 t.skipped (g' - g - 1),
                 windows := if first then t.windows.map (fun e => (e.1, e.2.restore g')) else t.windows }
      s.raise 18 0 0 0x102 (eventData [(8, g), (8, g')])

end Sys2Proof.Machine
end

