-- ==== Sys2Proof/Machine/HostQueues.lean ====
section
/-! DEFINITION. The host's rings: posting of completions (R111) and event entries (R115 to R117, R379), MSI-X messages
(R115), doorbells and heads (R109, R112), ring enables (R107), bad accesses (R105). -/

namespace Sys2Proof.Machine

/-- Function `f`. -/
def State.fn (s : State) (f : Nat) : Fn := mapGet {} s.host.fns f

/-- Function `f` changed. -/
def State.updFn (s : State) (f : Nat) (g : Fn → Fn) : State := s.updHost fun h => { h with fns := mapUpd {} h.fns f g }

/-- The data ring bound to a queue context. -/
def State.ring? (s : State) (ctx : Nat) : Option Ring := mapGet? s.host.rings ctx

/-- A bound data ring changed. -/
def State.updRing (s : State) (ctx : Nat) (g : Ring → Ring) : State :=
  s.updHost fun h => { h with rings := h.rings.map fun e => if e.1 = ctx then (e.1, g e.2) else e }

/-- A ring by its identifier. -/
def State.ringOf (s : State) : RingId → Option Ring
  | .data c => s.ring? c
  | .admin f => if (s.fn f).admReady ∧ !(s.fn f).admClosing then some (s.fn f).admin else none

/-- A ring changed. -/
def State.updRingOf (s : State) (r : RingId) (g : Ring → Ring) : State :=
  match r with
  | .data c => s.updRing c g
  | .admin f => s.updFn f fun x => { x with admin := g x.admin }

/-- Completion-ring and submission-ring entries. -/
def Ring.sqLen (r : Ring) : Nat := 2 ^ r.sqSize
def Ring.cqLen (r : Ring) : Nat := 2 ^ r.cqSize

/-- Entries that the host has published and Ranegal has not fetched. -/
def Ring.waiting (r : Ring) : Nat := (r.tail + r.sqLen - r.fetch) % r.sqLen

/-- Number of a ring: its context, or 4,096 + function for an admin ring (R397). -/
def ringNumber : RingId → Nat
  | .data c => c
  | .admin f => 4096 + f

/-- R110: fetching may go on. -/
def Ring.room (r : Ring) : Bool := decide (r.fetched + r.posted < r.cqLen - 1)

/-- HELD follows the rule of R110. -/
def Ring.holdUpdate (r : Ring) (grain : Nat) (fetching : Bool) : Ring :=
  let h := fetching && decide (0 < r.waiting) && !r.room
  { r with held := h, heldSince := if h && !r.held then grain else r.heldSince,
           heldRaised := if h && !r.held then false else r.heldRaised }

/-! ## Interrupts -/

/-- A vector to signal at the end of the grain (R115). -/
def State.signal (s : State) (f v : Nat) : State :=
  s.updFn f fun x => if v ∈ x.signal then x else { x with signal := x.signal ++ [v] }

/-- Whether an MSI-X vector is masked: by the function's MSI-X Enable and Function Mask, or by its table entry's mask bit, 1 at reset. -/
def Fn.masked (x : Fn) (v : Nat) : Bool :=
  !x.pci.msixEnable || x.pci.msixMask ||
  match mapGet? x.msix v with
  | none => true
  | some (_, _, c) => c.getLsbD 0

/-- Sends one message per signalled vector of a function; a masked one sets its pending bit (R115). -/
def State.sendSignals (s : State) (f : Nat) : State :=
  let x := s.fn f
  if x.d3hot then s
  else
    let s := s.updFn f fun x =>
      { x with signal := [], pendingMsi := (x.signal.filter fun v => x.masked v && !(v ∈ x.pendingMsi)) ++ x.pendingMsi }
    (x.signal.filter fun v => !x.masked v).foldl (fun s v => s.emit (.msix f v)) s

/-- The messages of the end of a grain. -/
def State.sendMsix (s : State) : State := (s.host.fns.map Prod.fst).foldl State.sendSignals s

/-! ## Completions -/

/-- Counts a completion by status (R397): in all, and for the context. -/
def State.countStatus (s : State) (ctx : Nat) (st : Status) : State :=
  s.updHost fun h => { h with total := bump h.total st.index, ctxCount := bump h.ctxCount (ctx * 32 + st.index) }

/-- The counts of a context or admin ring start at 0 (R397). -/
def State.clearCounts (s : State) (ctx : Nat) : State :=
  s.updHost fun h => { h with ctxCount := h.ctxCount.filter fun e => e.1 / 32 != ctx }

/-- Writes a completion entry to a ring (R111). -/
def State.postEntry (s : State) (id : RingId) (tag : BitVec 16) (res : Result) : State :=
  match s.ringOf id with
  | none => s
  | some r =>
    let c : Completion := { tag := tag, head := r.fetch, phase := r.phase, result := res }
    let s := s.emit (.completion id r.cqTail c)
    let s := s.updRingOf id fun r =>
      { r with cqTail := (r.cqTail + 1) % r.cqLen, phase := if r.cqTail + 1 = r.cqLen then !r.phase else r.phase,
               posted := r.posted + 1, fetched := r.fetched - 1 }
    let s := s.updHost fun h => { h with idleSince := s.grain }
    if r.intr then s.signal r.fn r.vector else s

/-- Posts a completion on a host ring; a function in D3hot holds it (R121). -/
def State.postRing (s : State) (id : RingId) (f : Nat) (tag : BitVec 16) (res : Result) : State :=
  if (s.fn f).d3hot then
    s.updFn f fun x => { x with heldBack := x.heldBack ++ [.post (match id with | .data c => some c | .admin _ => none) tag res] }
  else s.postEntry id tag res

/-! ## Event entries -/

/-- The vector of a source's entries (R379). -/
def State.eventVector (s : State) (f source : Nat) : Nat :=
  let r := (mapGet 0 (mapGet {} s.inForce.evt f).route (source / 16)).toNat
  if r.testBit 15 then r % 2048 else (s.fn f).evtCfg.toNat / 65536 % 2048

/-- Free entries of an event ring. -/
def EventRing.room (e : EventRing) : Nat := 2 ^ e.size - 1 - (e.tail + 2 ^ e.size - e.head) % 2 ^ e.size

/-- Writes an event entry (R116). `lost` is some count on an OVERFLOW entry. -/
def State.writeEvent (s : State) (f : Nat) (r : Raise) (lost : Option Nat) : State :=
  let e := (s.fn f).events
  let entry : EventEntry := { source := r.source, phase := e.phase, overflow := lost.isSome, lost := lost.getD 0,
                              seqNo := e.seqNo, stamp := r.stamp, data := r.data }
  let s := s.emit (.event f e.tail entry)
  let s := s.updFn f fun x => { x with events := { x.events with
    tail := (e.tail + 1) % 2 ^ e.size, phase := if e.tail + 1 = 2 ^ e.size then !e.phase else e.phase,
    seqNo := (e.seqNo + 1) % 4294967296 } }
  s.signal f (s.eventVector f r.source)

/-- An event goes into its ring, or counts as lost where the ring is full (R116, R117). -/
def State.enterEvent (s : State) (r : Raise) : State :=
  if (s.fn r.fn).events.room = 0 then
    s.updFn r.fn fun x => { x with events := { x.events with
      lost := satAdd max32 x.events.lost 1
      overs := mapUpd (0, r) x.events.overs r.source fun o => (satAdd 65535 o.1 1, r) } }
  else s.writeEvent r.fn r none

/-- Posts one raise (R116, R379): a masked one is not posted, and a function in D3hot holds it (R121). -/
def State.postEvent (s : State) (r : Raise) : State :=
  let x := s.fn r.fn
  if (mapGet {} s.inForce.evt r.fn).mask.getLsbD r.source ∨ !x.events.live then s
  else if x.d3hot then s.updFn r.fn fun x => { x with heldBack := x.heldBack ++ [.event r] }
  else s.enterEvent r

/-- Posts the pending OVERFLOW entries while there is room, in ascending source order (R117). -/
def State.postOverflow (s : State) (f : Nat) : Nat → State
  | 0 => s
  | n + 1 =>
    match (s.fn f).events.overs with
    | [] => s
    | (src, lost, r) :: _ =>
      if (s.fn f).events.room = 0 then s
      else
        let s := s.writeEvent f r (some lost)
        (s.updFn f fun x => { x with events := { x.events with overs := mapErase x.events.overs src } }).postOverflow f n

/-- Order of entries posted at the end of a grain (R380): ascending stamp, unstamped last, then source. -/
def Raise.le (a b : Raise) : Bool :=
  let k (r : Raise) : Nat := if r.stamp = 0 then 2 ^ 64 else r.stamp
  decide (k a < k b) || (decide (k a = k b) && decide (a.source ≤ b.source))

/-- Posts every raise of the grain (R380). -/
def State.postRaises (s : State) : State :=
  let l := sortBy Raise.le s.events.raises.reverse
  l.foldl State.postEvent (s.updEvents fun e => { e with raises := [] })

/-! ## Bad accesses, doorbells, heads -/

/-- Source 97 with its HOST_ERROR record (R122): kind 1 bad access, 2 doorbell, 3 head, 4 TAG_IN_USE. -/
def State.hostError (s : State) (f ctx kind value : Nat) (stamp : Stamp) : State :=
  s.raise 97 f stamp 0x301 (eventData [(1, f), (2, ctx), (1, kind), (4, value)])

/-- A discarded BAR access (R5, R105). -/
def State.badAccess (s : State) (f ctx value : Nat) : State :=
  (s.updFn f fun x => { x with hostErr := satAdd max32 x.hostErr 1 }).hostError f ctx 1 value 0

/-- A discarded doorbell value (R109, R112). -/
def State.badDoorbell (s : State) (f ctx kind value : Nat) : State :=
  (s.updFn f fun x => { x with doorErr := satAdd max32 x.doorErr 1 }).hostError f ctx kind value 0

/-- An arrival begins the exit from a power state (R124). -/
def State.beginExit (s : State) : State :=
  s.updHost fun h => if h.power ≠ 0 ∧ h.exiting.isNone then { h with exiting := some h.power } else h

/-- Whether data rings are fetched in this mode (R110, R14). -/
def State.fetchesData (s : State) : Bool := s.mode.serves && (s.update.quiesce = 0)

/-- Whether admin rings are fetched (R110, R363). -/
def State.fetchesAdmin (s : State) : Bool := s.mode.running && (s.update.quiesce = 0)

/-- HELD of every data ring follows R110 whatever has changed. -/
def State.holdRings (s : State) : State :=
  let grain := s.grain
  let fetching := s.fetchesData
  s.updHost fun h => { h with rings := h.rings.map fun e => (e.1, e.2.holdUpdate grain fetching) }

/-- A submission tail (R109). -/
def State.tailDoorbell (s : State) (id : RingId) (f ctx value : Nat) (live : Bool) (k : Nat) : State :=
  if live ∧ value < 2 ^ k then
    let fetching := match id with | .data _ => s.fetchesData | .admin _ => false
    (s.updRingOf id fun r => { r with tail := value }.holdUpdate s.grain fetching).beginExit
  else s.badDoorbell f ctx 2 value

/-- A completion head (R112): a value equal to the current head has no effect. -/
def State.headDoorbell (s : State) (id : RingId) (f ctx value : Nat) (live : Bool) (r : Ring) : State :=
  let back := (value + r.cqLen - r.cqHead) % r.cqLen
  if live ∧ value < r.cqLen ∧ back ≤ r.posted then
    if back = 0 then s else
    let fetching := match id with | .data _ => s.fetchesData | .admin _ => false
    (s.updRingOf id fun r => { r with cqHead := value, posted := r.posted - back }.holdUpdate s.grain fetching).beginExit
  else s.badDoorbell f ctx 3 value

/-- An event head (R112, R116, R117). -/
def State.eventHead (s : State) (f value : Nat) : State :=
  let e := (s.fn f).events
  let len := 2 ^ e.size
  let back := (value + len - e.head) % len
  if e.live ∧ value < len ∧ back ≤ (e.tail + len - e.head) % len then
    if back = 0 then s else
    ((s.updFn f fun x => { x with events := { x.events with head := value } }).postOverflow f 256).beginExit
  else s.badDoorbell f 0xFFFF 3 value

/-! ## Ring enables (R106, R107) -/

/-- Highest vector of a function. -/
def maxVector (f : Nat) : Nat := if f = 0 then 2047 else 31

/-- A refused enable: source 96 (R107). -/
def State.refuseEnable (s : State) (f code : Nat) (mask : BitVec 32) : State :=
  (s.updFn f fun x => { x with ctrl := x.ctrl &&& mask, cfgError := true, cfgCode := code }).raise 96 f 0 0x300
    (eventData [(1, f), (1, code)])

/-- ADM_EN goes from 0 to 1. -/
def State.admEnable (s : State) (f : Nat) : State :=
  let x := s.fn f
  let cfg := x.admCfg.toNat
  let sq := cfg % 16
  let cq := cfg / 256 % 16
  let v := cfg / 65536 % 2048
  let code := if sq < 4 ∨ 12 < sq then 1 else if cq < 4 ∨ 12 < cq then 2 else if maxVector f < v then 4 else 0
  let s := s.updFn f fun x => { x with ctrl := x.ctrl ||| 1#32, admFault := false }
  if code ≠ 0 then s.refuseEnable f code 0xFFFFFFFE#32
  else (s.clearCounts (4096 + f)).updFn f fun x => { x with
    admReady := true, admClosing := false, cfgError := false, cfgCode := 0
    admin := { fn := f, sqBase := x.sqBase.toNat, cqBase := x.cqBase.toNat, sqSize := sq, cqSize := cq, vector := v, intr := true } }

/-- An arrival of a function's admin ring. -/
def Event.ofAdmin (f : Nat) : Event → Bool
  | .cmd a => a.c.carrier = .admin f
  | _ => false

/-- An arrival whose completion goes nowhere any more: after a reset its data neither (R107, R119). -/
def Event.mute (reset : Bool) : Event → Event
  | .cmd a => .cmd { a with dropped := a.dropped || reset, muted := true }
  | e => e

/-- Commands of a function's admin ring that wait at Col's intake lose their completion. -/
def State.muteArrivals (s : State) (f : Nat) (reset : Bool) : State :=
  let mark (l : List Event) : List Event := l.map fun e => if e.ofAdmin f then e.mute reset else e
  s.updCol fun c => { c with intake := mark c.intake, carry := mark c.carry }

/-- What D3hot holds of a function's admin ring, or of its event ring, goes (R107). -/
def Held.ofAdmin : Held → Bool
  | .post none _ _ => true
  | _ => false
def Held.isEvent : Held → Bool
  | .event _ => true
  | _ => false

/-- ADM_EN goes from 1 to 0: fetching stops, fetched admin commands run on without completion. -/
def State.admDisable (s : State) (f : Nat) : State :=
  let own := (s.works.any fun w => w.carrier = .admin f && !w.muted) || (s.col.intake ++ s.col.carry).any (Event.ofAdmin f)
  let s := (s.muteArrivals f false).updWorks fun ws => ws.map fun w => if w.carrier = .admin f then { w with muted := true } else w
  s.updFn f fun x => { x with ctrl := x.ctrl &&& 0xFFFFFFFE#32, admClosing := own && x.admReady, admReady := own && x.admReady,
                              admin := { x.admin with fetched := 0 }, heldBack := x.heldBack.filter fun p => !p.ofAdmin }

/-- What was raised toward a function in this grain while its EVT_EN was 0 is not kept for its ring (R116). -/
def State.dropRaises (s : State) (f : Nat) : State :=
  s.updEvents fun e => { e with raises := e.raises.filter fun r => r.fn != f }

/-- EVT_EN goes from 0 to 1. -/
def State.evtEnable (s : State) (f : Nat) : State :=
  let x := s.fn f
  let cfg := x.evtCfg.toNat
  let sz := cfg % 16
  let v := cfg / 65536 % 2048
  let code := if sz < 4 ∨ 12 < sz then 3 else if maxVector f < v then 4 else 0
  let s := s.updFn f fun x => { x with ctrl := x.ctrl ||| 2#32 }
  if code ≠ 0 then s.refuseEnable f code 0xFFFFFFFD#32
  else (s.dropRaises f).updFn f fun x => { x with
    evtReady := true, cfgError := false, cfgCode := 0
    events := { live := true, base := x.evtBase.toNat, size := sz, lost := x.events.lost } }

/-- EVT_EN goes from 1 to 0: posting stops at once. -/
def State.evtDisable (s : State) (f : Nat) : State :=
  s.updFn f fun x => { x with ctrl := x.ctrl &&& 0xFFFFFFFD#32, evtReady := false, heldBack := x.heldBack.filter fun p => !p.isEvent
                              events := { x.events with live := false, overs := [] } }

/-- The HOST block is out of FILL and BOOT (R106). -/
def State.hostLive (s : State) : Bool := s.mode.running

end Sys2Proof.Machine
end

