-- ==== Sys2Proof/Machine/Vale.lean ====
section
/-! DEFINITION. Vale: namespaces, answerability (R54), which version a read sees (R53 to R56, R67), lists (R57, R84) and
enumeration (R61, R62), which versions stay (R64, R65), quota (R47), index space (R68, R69), hold points (R57). -/

namespace Sys2Proof.Machine

/-! ## Namespaces -/

/-- A namespace's state, where it exists. -/
def State.space? (s : State) (ns : Nat) : Option Namespace := mapGet? s.index.spaces ns

/-- The namespace as a command stamped `st` sees it: one being removed still serves the commands stamped before its
NAMESPACE_DELETE (R48). -/
def State.spaceAt (s : State) (ns : Nat) (st : Stamp) : Option Namespace :=
  (s.space? ns).orElse fun _ =>
    match mapGet? s.index.removing ns with
    | some (n, some d) => if st < d then some n else none
    | _ => none

/-- A namespace changed: a defined one, or one whose removal runs (R48). -/
def State.updSpace (s : State) (ns : Nat) (f : Namespace → Namespace) : State :=
  s.updIndex fun i =>
    { i with spaces := i.spaces.map (fun e => if e.1 = ns then (e.1, f e.2) else e)
             removing := i.removing.map fun e => if e.1 = ns then (e.1, (f e.2.1, e.2.2)) else e }

/-- Bound B of R54 under a horizon, at a grain. -/
def boundB (horizon grain : Nat) : Stamp := (grain - 1000000 * horizon) * 4096

/-- The namespace's parameters and floor while any version of it is held: defined, or being removed (R48). -/
def State.spaceHeld (s : State) (ns : Nat) : Option Namespace :=
  (s.space? ns).orElse fun _ => (mapGet? s.index.removing ns).map Prod.fst

/-- max(B, F) of a namespace at a grain; beyond every stamp where the namespace is gone. -/
def State.answerFrom (s : State) (ns grain : Nat) : Stamp :=
  match s.spaceHeld ns with
  | none => 2 ^ 64
  | some n => max (boundB n.params.horizon grain) n.floor

/-- Hold points that protect a namespace (R57). -/
def State.holdsOf (s : State) (ns : Nat) : List Stamp := (s.index.holds.filter fun h => ns ∈ h.ns).map Hold.stamp

/-- An argument is answerable in a namespace for a read stamped `st` (R54); `none` where it is above the stamp. -/
def State.answerable (s : State) (ns : Nat) (a st : Stamp) : Bool :=
  decide (a ∈ s.holdsOf ns) || decide (s.answerFrom ns (grainOf st) ≤ a)

/-- The checks of R54 on a non-zero argument. -/
def State.asOfFail (s : State) (ns : Nat) (a st : Stamp) : Option Fail :=
  if st < a then some (.futureStamp, 0)
  else if s.answerable ns a st then none
  else some (.beyondHorizon, 0)

/-! ## Keys and versions -/

/-- Order of R62: namespace, fingerprint, key length, key bytes. -/
def KeyEntry.le (a b : KeyEntry) : Bool :=
  if a.ns ≠ b.ns then decide (a.ns < b.ns)
  else if a.fp ≠ b.fp then decide (a.fp.toNat < b.fp.toNat)
  else if a.key.length ≠ b.key.length then decide (a.key.length < b.key.length)
  else bytesLe a.key b.key

/-- Fingerprint under the device's fingerprint key (R49, R50). -/
def State.fingerprint (s : State) (ns : Nat) (key : Bytes) : BitVec 64 := fingerprintOf (s.index.fpKey.getD 0) ns key

/-- The entry of a key (R51: the entry whose key bytes equal the command's key). -/
def State.keyEntry (s : State) (ns : Nat) (key : Bytes) : Option KeyEntry :=
  s.index.keys.find? fun k => k.ns = ns ∧ k.key = key

/-- A key's versions, newest first. -/
def State.chain (s : State) (ns : Nat) (key : Bytes) : List Version := ((s.keyEntry ns key).map KeyEntry.versions).getD []

/-- What a walk finds: a visible version, or the reason and stamp of R55. -/
inductive Look where
  | found (v : Version)
  | missing (reason : Nat) (stamp : Stamp)
  deriving DecidableEq, Repr

/-- The newest version at or below `bound`, as a command stamped `st` sees it, with expiry judged at `grain` (R53, R55, R56,
R67: the marks of a DELETE_SECURE bear on commands stamped after it). -/
def look (vs : List Version) (bound grain st : Nat) : Look :=
  match vs.find? fun v => v.stamp ≤ bound with
  | none => .missing 0 0
  | some v =>
    if v.secured ≠ 0 ∧ v.secured < st then .missing 3 v.secured
    else if v.kind = .tombstone then .missing 1 v.stamp
    else if v.expiry ≠ 0 ∧ v.expiry ≤ grain then .missing 2 v.stamp
    else .found v

/-- Chain elements that a walk visits up to its answer (R12): version and expiry entries. DEDUCED (log entry 108): the primary entry
counts as the newest version's element, and the answer's own expiry entry is not counted. -/
def walkLength : List Version → Nat → Nat
  | [], _ => 0
  | v :: rest, bound => if v.stamp ≤ bound then 1 else 1 + (if v.expiry ≠ 0 then 1 else 0) + walkLength rest bound

/-- The end of a version's interval, given the stamp of the next newer one (R64); none while it is open. -/
def intervalEnd (v : Version) (newer : Option Stamp) : Option Stamp :=
  if v.expiry = 0 then newer
  else match newer with
    | none => some (v.expiry * 4096)
    | some sn => some (min sn (v.expiry * 4096))

/-- Pairs each version, newest first, with the stamp of the next newer one. -/
def withNewer : Option Stamp → List Version → List (Version × Option Stamp)
  | _, [] => []
  | n, v :: rest => (v, n) :: withNewer (some v.stamp) rest

/-- A version that the list of R57 holds: at or below `limit`, and some argument at or below the stamp `st` reaches it that is
answerable, from `from_` on or at a hold point. -/
def Version.listed (v : Version) (newer : Option Stamp) (from_ : Stamp) (holds : List Stamp) (limit st : Nat) : Bool :=
  let hi := match intervalEnd v newer with | none => st | some e => min st (e - 1)
  decide (v.stamp ≤ limit ∧ v.stamp ≤ hi) && (decide (from_ ≤ hi) || holds.any fun h => decide (v.stamp ≤ h ∧ h ≤ hi))

/-- A version list of R57 among a key's versions. -/
def reachable (vs : List Version) (from_ : Stamp) (holds : List Stamp) (limit st : Nat) : List Version :=
  ((withNewer none vs).filter fun p => p.1.listed p.2 from_ holds limit st).map Prod.fst

/-- max(B, F) by the settings that a command's stamp found (R45, R54). -/
def Work.answerFrom (w : Work) : Stamp :=
  match w.space with
  | none => 2 ^ 64
  | some n => max (boundB n.params.horizon (grainOf w.stamp)) n.floor

/-- The 24-byte entry of VERSIONS (R84). -/
def Version.entry (v : Version) : Bytes :=
  leBytes 8 v.stamp ++ leBytes 8 v.expiry ++ leBytes 4 v.value.length ++
  leBytes 1 (b2n (v.kind = .tombstone) + 2 * b2n (v.expiry != 0) + 4 * b2n (v.kind = .touch) + 8 * b2n (v.secured != 0)) ++ zeros 3

/-- The entry of ENUMERATE (R61). -/
def enumEntry (key : Bytes) (v : Version) : Bytes :=
  leBytes 8 v.stamp ++ leBytes 4 v.value.length ++ leBytes 2 key.length ++ leBytes 1 (b2n (v.expiry != 0)) ++ zeros 1 ++
  padUp 8 key

/-- Walks primary entries in order from a cursor (R62). DEDUCED (log entry 109): a key below the cursor's ordinal was examined by an
earlier call and does not count among the 65,536. Answers entries, count, and the next cursor (none: exhausted). -/
def enumWalk (eff grain st : Nat) (start : Cursor) (pre : Bytes) (aux room : Nat) :
    List KeyEntry → Nat → Nat → Nat → Nat → Bytes × Nat × Option (Nat × Nat)
  | [], _, _, _, _ => ([], 0, none)
  | k :: rest, fp, ord, examined, count =>
    let ord := if k.fp.toNat = fp then ord else 0
    let fp := k.fp.toNat
    if (aux ≠ 0 ∧ aux ≤ count) ∨ 65536 ≤ examined then ([], 0, some (fp, ord))
    else
      match look k.versions eff grain st with
      | .missing _ _ => enumWalk eff grain st start pre aux room rest fp ord (examined + 1) count
      | .found v =>
        if fp = start.fp ∧ ord < start.ordinal then enumWalk eff grain st start pre aux room rest fp (ord + 1) examined count
        else if !pre.isPrefixOf k.key then enumWalk eff grain st start pre aux room rest fp (ord + 1) (examined + 1) count
        else
          let e := enumEntry k.key v
          if room < e.length then ([], 0, some (fp, ord))
          else
            let (more, n, next) := enumWalk eff grain st start pre aux (room - e.length) rest fp (ord + 1) (examined + 1) (count + 1)
            (e ++ more, n + 1, next)

/-- An ENUMERATE call: the result area and the entry count. -/
def State.enumerate (s : State) (ns : Nat) (start : Cursor) (pre : Bytes) (a st aux room : Nat) : Bytes × Nat :=
  let eff := if a = 0 then st - 1 else a
  let grain := grainOf (if a = 0 then st else a)
  let l := s.index.keys.filter fun k => k.ns = ns ∧ start.fp ≤ k.fp.toNat
  let (body, n, next) := enumWalk eff grain st start pre aux (room - 16) l 0 0 0 0
  let c : Cursor := match next with
    | none => { ns := ns, end_ := true }
    | some (fp, o) => { fp := fp, ordinal := o, ns := ns }
  (c.bytes ++ body, n)

/-! ## Quota and index space -/

/-- Charge of a version (R47). -/
def chargeOf (keyLen valLen : Nat) : Kind → Nat
  | .value => keyLen + valLen + 64
  | .tombstone => keyLen + 64
  | .touch => 64

/-- The quota count of a namespace: versions in the index, and charges of writes on their way (R47). -/
def State.quotaCount (s : State) (ns : Nat) : Nat :=
  ((s.index.keys.filter fun k => k.ns = ns).map fun k =>
    (k.versions.map fun v => chargeOf k.key.length v.value.length v.kind).sum).sum +
  ((s.spaceHeld ns).map Namespace.charged).getD 0

/-- Keys and versions of a namespace. -/
def State.nsCounts (s : State) (ns : Nat) : Nat × Nat :=
  let l := s.index.keys.filter fun k => k.ns = ns
  (l.length, (l.map fun k => k.versions.length).sum)

/-- Data DRAM and index area in bytes (R68, R264). -/
def State.dataDramSize (s : State) : Nat := Config.dataDram s.dram.density s.dram.ranks
def State.indexArea (s : State) : Nat := s.dataDramSize - Config.firmwareDram

/-- Bytes of one key's entries (R68). -/
def KeyEntry.cost (k : KeyEntry) : Nat :=
  32 + 24 * (k.versions.length - 1) + 24 * (k.versions.filter fun v => v.expiry != 0).length

/-- Bytes of the index in use, and free entries. -/
def State.indexUsed (s : State) : Nat := (s.index.keys.map KeyEntry.cost).sum
def State.freeEntries (s : State) : Nat := (s.indexArea - s.indexUsed) / 24

/-- Sources 140 and 141 as fill crosses its marks (R69, R72). -/
def State.fillEvents (s : State) : State :=
  let past := decide (s.indexArea * 9 < s.indexUsed * 10)
  let hit := decide (s.freeEntries ≤ Config.indexReserve)
  let s' := if past && !s.index.over90 then
    s.raise 140 0 0 0x200 (eventData [(8, s.indexUsed / 24), (8, s.indexArea)]) else s
  let s'' := if hit && !s.index.reserveHit then
    s'.raise 141 0 0 0x200 (eventData [(8, s.freeEntries)]) else s'
  s''.updIndex fun i => { i with over90 := past, reserveHit := hit }

/-! ## Needed and droppable (R64, R65) -/

/-- A version, with the stamp of the next newer one, is the newest at or below a bound. -/
def Version.newestAt (v : Version) (newer : Option Stamp) (bound : Stamp) : Bool :=
  decide (v.stamp ≤ bound) && newer.all fun n => decide (bound < n)

/-- A command in flight can still read a version (R64): the one its bound reaches, every one that a VERSIONS lists, or the one
below a write's own stamp, which a PUT reports, a TOUCH re-times and a DELETE tests. -/
def Work.reads (w : Work) (key : Bytes) (v : Version) (newer : Option Stamp) : Bool :=
  let op := w.desc.opcode.toNat
  if op = 0x04 then v.newestAt newer w.bound
  else if op = 0x03 then w.key = key && v.listed newer w.answerFrom w.holds w.bound w.stamp || w.key = key && v.newestAt newer w.bound
  else if op = 0x01 ∨ op = 0x02 then w.key = key && v.newestAt newer w.bound
  else (w.items.any fun i => i.key = key) && w.phase != .erase && v.newestAt newer (w.stamp - 1)

/-- A command stamped before the current grain and not completed can still read a version of a namespace (R64). -/
def State.readerHolds (s : State) (ns : Nat) (key : Bytes) (v : Version) (newer : Option Stamp) : Bool :=
  s.works.any fun w => w.desc.ns.toNat = ns && decide (grainOf w.stamp < s.grain) && w.reads key v newer

/-- A version is needed on its own account; for a newest tombstone or expired version see `keep`. -/
def State.needed (s : State) (ns : Nat) (key : Bytes) (v : Version) (newer : Option Stamp) : Bool :=
  let e := intervalEnd v newer
  let expired := v.expiry ≠ 0 ∧ v.expiry ≤ s.grain
  (newer.isNone && v.kind != .tombstone && !expired && (s.spaceHeld ns).isSome) ||
  (match e with
    | none => false
    | some e => decide (s.answerFrom ns s.grain < e) || (s.holdsOf ns).any fun h => decide (v.stamp ≤ h ∧ h < e)) ||
  s.readerHolds ns key v newer

/-- The versions of a key that stay. -/
def State.keep (s : State) (ns : Nat) (key : Bytes) (vs : List Version) : List Version :=
  match withNewer none vs with
  | [] => []
  | (v, n) :: rest =>
    let older := (rest.filter fun p => s.needed ns key p.1 p.2).map Prod.fst
    if s.needed ns key v n ∨ !older.isEmpty then v :: older else []

/-- A key's entry with its droppable versions gone; none when nothing stays. -/
def State.keepEntry (s : State) (k : KeyEntry) : Option KeyEntry :=
  match s.keep k.ns k.key k.versions with
  | [] => none
  | vs => some { k with versions := vs }

/-- The version list with a version at its place in stamp order; a version of the same stamp is replaced. -/
def insertVersion (v : Version) : List Version → List Version
  | [] => [v]
  | w :: rest => if w.stamp < v.stamp then v :: w :: rest else if w.stamp = v.stamp then v :: rest else w :: insertVersion v rest

/-- The index with a key's versions rewritten (from none where the key is new), without dropping. -/
def putVersions (keys : List KeyEntry) (ns : Nat) (fp : BitVec 64) (key : Bytes) (f : List Version → List Version) :
    List KeyEntry :=
  if keys.any fun k => k.ns = ns ∧ k.key = key then
    keys.map fun k => if k.ns = ns ∧ k.key = key then { k with versions := f k.versions } else k
  else insertBy KeyEntry.le { ns := ns, fp := fp, key := key, versions := f [] } keys

/-- Drops a key's droppable versions (R65). -/
def State.dropKey (s : State) (ns : Nat) (key : Bytes) : State :=
  let keys := s.index.keys.filterMap fun k => if k.ns = ns ∧ k.key = key then s.keepEntry k else some k
  s.updIndex fun i => { i with keys := keys }

/-- Checkpoint slice of a key (R233; the bucket layout is Vale's own, log entry 14). -/
def ckptSlice (fp : BitVec 64) : Nat := fp.toNat * 240 / 2 ^ 64

/-- A key's entry has changed: its slice differs from its image (R233). -/
def Index.touch (i : Index) (fp : BitVec 64) : Index :=
  if ckptSlice fp ∈ i.ckptDirty then i else { i with ckptDirty := ckptSlice fp :: i.ckptDirty }

/-- Versions leave keys in the background (R48, R316, R317): an entry without versions goes, and the slices of what has changed differ from
their images. -/
def State.cutKeys (s : State) (cut : KeyEntry → KeyEntry) : State :=
  s.updIndex fun i =>
    let changed := i.keys.filter fun k => (cut k).versions.length < k.versions.length
    { (changed.foldl (fun i k => i.touch k.fp) i) with keys := (i.keys.map cut).filter fun k => !k.versions.isEmpty }

/-- A version enters the index, and the key's droppable versions go (R52, R65). -/
def State.addVersion (s : State) (ns : Nat) (fp : BitVec 64) (key : Bytes) (v : Version) : State :=
  let s := s.updIndex fun i => { (i.touch fp) with keys := putVersions i.keys ns fp key (insertVersion v) }
  (s.dropKey ns key).fillEvents

/-- Bytes of index that adding a version takes, beyond what the key's droppable versions give back (R65, R69). -/
def State.indexGrowth (s : State) (ns : Nat) (key : Bytes) (v : Version) : Nat :=
  let old := ((s.keyEntry ns key).map KeyEntry.cost).getD 0
  let k : KeyEntry := { ns := ns, fp := 0, key := key, versions := insertVersion v (s.chain ns key) }
  ((s.keepEntry k).map KeyEntry.cost).getD 0 - old

/-- An index entry is needed for a version (R69). -/
def State.indexNeed (s : State) (ns : Nat) (key : Bytes) (v : Version) : Bool := decide (0 < s.indexGrowth ns key v)

/-- Bytes that writes past their gate and not yet in the index may still take: a primary entry with an expiry entry each. -/
def State.indexPending (s : State) : Nat :=
  56 * ((s.works.filter fun w => [Phase.buffer, .cipher, .media, .journal, .program, .index].contains w.phase).map fun w => w.items.length).sum

/-- The retention sweep's visit of every key (R65); a namespace being removed is left to its removal, which counts its versions
(R48). -/
def State.sweep (s : State) : State :=
  let keys := s.index.keys.filterMap fun k => if (mapGet? s.index.removing k.ns).isSome then some k else s.keepEntry k
  (s.updIndex fun i => { i with keys := keys }).fillEvents

/-- Index update of a DELETE_SECURE (R67): every older version is marked and a tombstone enters, in one update, and the key's droppable
versions go (R65). -/
def State.secureMark (s : State) (ns : Nat) (fp : BitVec 64) (key : Bytes) (v : Version) : State :=
  let mark (w : Version) : Version := if w.stamp < v.stamp ∧ w.secured = 0 then { w with secured := v.stamp } else w
  let s := s.updIndex fun i =>
    { (i.touch fp) with keys := putVersions i.keys ns fp key (fun vs => insertVersion v (vs.map mark)) }
  (s.dropKey ns key).fillEvents

/-! ## Hold points (R57, R39) -/

/-- HOLD_CHANGE record (R346). -/
def State.holdRecord (s : State) (h : Stamp) (cause window protects : Nat) (stamp : Stamp) : State :=
  s.record 0x203 stamp (leBytes 8 h ++ leBytes 1 cause ++ leBytes 1 window ++ leBytes 2 protects ++ zeros 4)

/-- Namespaces in which a stamp is answerable at a command's stamp. -/
def State.protectable (s : State) (h st : Stamp) : List Nat :=
  (s.index.spaces.map Prod.fst).filter fun ns => s.answerable ns h st

/-- A hold point enters, in stamp order. -/
def State.addHold (s : State) (h : Stamp) (ns : List Nat) : State :=
  s.updIndex fun i => { i with holds := insertBy (fun a b => a.stamp ≤ b.stamp) { stamp := h, ns := ns } i.holds }

/-- The hold point of a calendar window's start edge (R39), or source 25. -/
def State.calendarHold (s : State) (w : Nat) (st : Stamp) : State :=
  let ns := s.index.spaces.map Prod.fst
  if s.index.holds.length = Config.holdPoints ∨ ns = [] then
    s.raise 25 0 st 0x105 (eventData [(1, w), (1, 4)])
  else if s.index.holds.any fun h => h.stamp = st then s
  else (s.addHold st ns).holdRecord st 1 w ns.length st

/-! ## Namespace pages (R101, R346) -/

/-- The 24 bytes 0x00 to 0x17 of the IDENTIFY namespace page. -/
def NsParams.bytes (p : NsParams) (ns : Nat) : Bytes :=
  leBytes 2 ns ++ leBytes 2 p.owner ++ leBytes 2 p.page ++ leBytes 1 (b2n p.early) ++ leBytes 1 (b2n p.cold) ++
  leBytes 4 p.horizon ++ leBytes 2 p.timeout ++ leBytes 1 (b2n p.secure + 2 * b2n p.expiry) ++ zeros 1 ++ leBytes 8 p.quota

/-- NS_CHANGE record (R72, R346). -/
def State.nsRecord (s : State) (ns : Nat) (old new : Option NsParams) (stamp : Stamp) : State :=
  let b (p : Option NsParams) : Bytes := match p with | none => zeros 24 | some p => p.bytes ns
  s.record 0x202 stamp (leBytes 2 ns ++ zeros 6 ++ b old ++ b new)

/-- The namespace page of IDENTIFY (R101). -/
def State.nsPage (s : State) (ns : Nat) (n : Namespace) : Bytes :=
  padTo 4096 (n.params.bytes ns ++ leBytes 8 (s.quotaCount ns) ++ leBytes 8 n.floor ++ leBytes 8 (s.nsCounts ns).1 ++
    leBytes 8 (s.nsCounts ns).2)

end Sys2Proof.Machine
end

