-- ==== Sys2Proof/Machine/GlenWords.lean ====
section
/-! DEFINITION. Glen's words: the units of an entry and the search words of each table (R197, R200 to R202), the search result (R199), and
the sequences by which Glen changes its entries (R208). -/

namespace Sys2Proof.Machine

/-! ## Words -/

/-- The bits of the widest entry, four units (R197); a narrower entry stands in the low bits. -/
abbrev GlenWord := BitVec 640

/-- A value at bit `lo` of a word. -/
def placed (lo v : Nat) : GlenWord := BitVec.ofNat 640 v <<< lo

/-- A run of `n` ones at bit `lo`. -/
def cared (lo n : Nat) : GlenWord := placed lo (2 ^ n - 1)

/-- An entry: its position in its table, its data and mask bits, and what is held beside its rows (R197). -/
structure Entry where
  pos      : Nat
  data     : GlenWord
  mask     : GlenWord
  valid    : Bool := true
  move     : Bool := false
  priority : Nat := 0
  result   : BitVec 32 := 0
  deriving DecidableEq, Repr

/-- An entry matches a search word: every data bit whose mask bit is 1 takes part (R197). -/
def Entry.hits (e : Entry) (word : GlenWord) : Bool := e.valid && (e.data ^^^ word) &&& e.mask == 0

/-- Data and mask bits of an entry's unit `k`, first row first, of `w` units: the most significant unit stands in the first row
(DESIGN CHOICE, log entry 129). -/
def Entry.unit (e : Entry) (w k : Nat) : BitVec 160 × BitVec 160 :=
  ((e.data >>> (160 * (w - 1 - k))).setWidth 160, (e.mask >>> (160 * (w - 1 - k))).setWidth 160)

/-! ## NAMESPACE and ACCESS (R200) -/

/-- Where the fields of a rule entry stand at width 2 or at width 1: requester kind, requester number, namespace, present, the top of the
prefix, and the prefix bytes that it holds. -/
structure RuleFields where
  kind    : Nat
  number  : Nat
  ns      : Nat
  present : Nat
  top     : Nat
  bytes   : Nat

/-- *Rule match fields*. -/
def ruleFields (wide : Bool) : RuleFields := if wide then ⟨319, 307, 297, 256, 256, 32⟩ else ⟨159, 147, 137, 96, 96, 12⟩

/-- Present bits and prefix bytes of a key's first bytes. -/
def keyBits (f : RuleFields) (key : Bytes) : GlenWord :=
  (key.take f.bytes).zipIdx.foldl (fun w (b, i) => w ||| placed (f.present + i) 1 ||| placed (f.top - 8 * (i + 1)) b.toNat) 0

/-- The same bits cared. -/
def keyMask (f : RuleFields) (n : Nat) : GlenWord := cared f.present (min n f.bytes) ||| cared (f.top - 8 * min n f.bytes) (8 * min n f.bytes)

/-- The search word of a requester, a namespace and a key. -/
def keyWord (wide : Bool) (kind num ns : Nat) (key : Bytes) : GlenWord :=
  let f := ruleFields wide
  placed f.kind kind ||| placed f.number num ||| placed f.ns ns ||| keyBits f key

/-- The entry of a rule: requester `any` and, in ACCESS, namespace 0 are don't care, and so is everything beyond the prefix. -/
def Rule.entry (r : Rule) (wide : Bool) (pos : Nat) : Entry :=
  let f := ruleFields wide
  let who := decide (r.reqKind < 2)
  { pos := pos, valid := r.valid, move := r.move, priority := r.priority, result := r.result
    data := (if who then placed f.kind r.reqKind ||| placed f.number r.reqNum else 0) ||| placed f.ns r.ns ||| keyBits f r.prefix_
    mask := (if who then cared f.kind 1 ||| cared f.number 12 else 0) ||| (if r.access && r.ns == 0 then 0 else cared f.ns 10) |||
      keyMask f r.prefix_.length }

/-! ## INFLIGHT (R201) -/

/-- The search word of a fingerprint and a namespace. -/
def gateWord (ns : Nat) (fp : BitVec 64) : GlenWord := placed 96 fp.toNat ||| placed 86 ns

/-- The entry of a key with pending writes: every bit is cared, and the result word counts the writes. -/
def Gate.entry (e : Gate) : Entry :=
  { pos := e.pos, data := gateWord e.ns e.fp, mask := cared 0 160, result := BitVec.ofNat 32 (e.pending.length % 65536) }

/-! ## FILTER (R202) -/

/-- A frame as FILTER sees it, and the fields that an entry cares about: none is don't care. -/
structure FilterFields where
  port    : Nat
  tx      : Bool
  tagged  : Option Bool := none
  vid     : Option Nat := none
  type    : Option (Nat × Nat) := none
  version : Option Nat := none
  proto   : Option Nat := none
  dst     : Option (BitVec 128) := none
  src     : Option (BitVec 128) := none
  dstPort : Option Nat := none
  srcPort : Option Nat := none
  lfType  : Option Nat := none
  lfFlags : Option (Nat × Nat) := none
  deriving DecidableEq, Repr

/-- The EtherType and the Lerfold flags: an entry may care about some of their bits only, so that they carry a value and a mask. -/
def FilterFields.pairAt (f : FilterFields) (half : Nat × Nat → Nat) : GlenWord :=
  placed 607 ((f.type.map half).getD 0) ||| placed 285 ((f.lfFlags.map half).getD 0)

/-- The other fields: lowest bit, width, value (*Filter match fields*). -/
def FilterFields.list (f : FilterFields) : List (Nat × Nat × Option Nat) :=
  [(636, 4, some f.port), (635, 1, f.tagged.map b2n), (623, 12, f.vid), (605, 2, f.version), (597, 8, f.proto),
   (469, 128, f.dst.map BitVec.toNat), (341, 128, f.src.map BitVec.toNat), (325, 16, f.dstPort), (309, 16, f.srcPort), (301, 8, f.lfType),
   (284, 1, some (b2n f.tx))]

/-- The data bits of a frame or of an entry. -/
def FilterFields.data (f : FilterFields) : GlenWord :=
  f.list.foldl (fun w (lo, _, v) => w ||| placed lo (v.getD 0)) (f.pairAt Prod.fst)

/-- The mask bits of an entry. -/
def FilterFields.mask (f : FilterFields) : GlenWord :=
  f.list.foldl (fun w (lo, n, v) => if v.isSome then w ||| cared lo n else w) (f.pairAt Prod.snd)

/-! ## Searches (R199) -/

/-- The 64-bit result word. -/
def resultWord (multi : Bool) (bank row : Nat) (result : BitVec 32) : BitVec 64 :=
  BitVec.ofNat 64 (2 ^ 63 + b2n multi * 2 ^ 62 + bank % 32 * 2 ^ 57 + row % 4096 * 2 ^ 45 + result.toNat)

/-- HIT, MULTI and RESULT of a result word. -/
def hitOf (w : BitVec 64) : Bool := w.getLsbD 63
def multiOf (w : BitVec 64) : Bool := w.getLsbD 62
def resultOf (w : BitVec 64) : BitVec 32 := w.setWidth 32

/-- Two entries are one in mid-move (R208). -/
def Entry.moving (a b : Entry) : Bool := (a.move || b.move) && a.data = b.data && a.mask = b.mask

/-- The winner among the entries that match a word, the one at the lowest position, and MULTI. -/
def winner (entries : List Entry) (word : GlenWord) : Option (Entry × Bool) :=
  match sortBy (fun a b => decide (a.pos ≤ b.pos)) (entries.filter fun e => e.hits word) with
  | [] => none
  | e :: rest => some (e, rest.any fun x => x.priority = e.priority && !e.moving x)

/-! ## The sequences that change entries (R208) -/

/-- One step on a table of positions. -/
inductive GlenOp where
  /-- The entry at one position is copied to another, with its move flag set and not valid yet. -/
  | copy (source dest : Nat)
  /-- An entry is written with its valid bit 0. -/
  | write (pos : Nat) (r : Rule)
  | validate (pos : Nat)
  | invalidate (pos : Nat)
  /-- The move flag is cleared. -/
  | settle (pos : Nat)
  /-- A result word is written, in one cycle. -/
  | result (pos : Nat) (w : BitVec 32)
  deriving DecidableEq, Repr

/-- Position `i` of a table put at a value; positions beyond the listed ones are free. -/
def setPos (l : List (Option Rule)) (i : Nat) (r : Option Rule) : List (Option Rule) :=
  (l ++ List.replicate (i + 1 - l.length) none).set i r

/-- The rule at a position. -/
def atPos (l : List (Option Rule)) (i : Nat) : Option Rule := (l[i]?).getD none

/-- A table after one step. -/
def GlenOp.apply (l : List (Option Rule)) : GlenOp → List (Option Rule)
  | .copy i j => setPos l j ((atPos l i).map fun r => { r with move := true, valid := false })
  | .write i r => setPos l i (some { r with valid := false, move := false })
  | .validate i => setPos l i ((atPos l i).map fun r => { r with valid := true })
  | .invalidate i => setPos l i none
  | .settle i => setPos l i ((atPos l i).map fun r => { r with move := false })
  | .result i w => setPos l i ((atPos l i).map fun r => { r with result := w })

/-- A move: copy, validate the copy, invalidate the original, clear the flag. -/
def moveOps (i j : Nat) : List GlenOp := [.copy i j, .validate j, .invalidate i, .settle j]

/-- An insertion: write, validate. -/
def insertOps (i : Nat) (r : Rule) : List GlenOp := [.write i r, .validate i]

/-- A change of match bits: invalidate, write, validate. -/
def rewriteOps (i : Nat) (r : Rule) : List GlenOp := [.invalidate i, .write i r, .validate i]

/-- The steps one after another. -/
def runOps (l : List (Option Rule)) (ops : List GlenOp) : List (Option Rule) := ops.foldl GlenOp.apply l

/-- Free positions nearest to position `i`: how many positions up, within the capacity, and how many down from `i - 1`. -/
def freeUp (l : List (Option Rule)) (i capacity : Nat) : Option Nat :=
  (List.range (min capacity (l.length + 1) - i)).find? fun d => (atPos l (i + d)).isNone
def freeDown (l : List (Option Rule)) (i : Nat) : Option Nat := (List.range i).find? fun d => (atPos l (i - 1 - d)).isNone

/-- The moves that open position `i` by shifting the entries between it and the nearest free position toward that position, from the end
nearest it (R207, R208), the position at which the new entry then stands, and the number of moves. Of two equally near, the upper one is taken
(DESIGN CHOICE, log entry 129). -/
def openOps (l : List (Option Rule)) (i capacity : Nat) : List GlenOp × Nat × Nat :=
  let up (u : Nat) := (((List.range u).map fun k => moveOps (i + u - 1 - k) (i + u - k)).flatten, i, u)
  let down (d : Nat) := (((List.range d).map fun k => moveOps (i - d + k) (i - d + k - 1)).flatten, i - 1, d)
  match freeUp l i capacity, freeDown l i with
  | some u, some d => if u ≤ d then up u else down d
  | some u, none => up u
  | none, some d => down d
  | none, none => ([], i, 0)

/-- The steps of an ADD at position `i`, and the number of moves. -/
def addOps (l : List (Option Rule)) (i capacity : Nat) (r : Rule) : List GlenOp × Nat :=
  let (ops, pos, n) := openOps l i capacity
  (ops ++ insertOps pos r, n)

end Sys2Proof.Machine
end

