-- ==== Sys2Proof/Machine/Glen.lean ====
section
/-! DEFINITION. Glen: banks (R197, R198), rule tables and their search (R199 to R204), rule operations (R205 to R208), and
the INFLIGHT gate (R209 to R211). -/

namespace Sys2Proof.Machine

/-! ## Banks -/

/-- The default assignment of a bank: table code and log2 of the width (R197). -/
def defaultBank (b : Nat) : Nat × Nat := if b < 4 then (0, 1) else if b < 20 then (1, 1) else if b < 28 then (2, 0) else (3, 2)

/-- Current and next assignment of a bank. -/
def Glen.bank (g : Glen) (b : Nat) : Nat × Nat := g.banks.getD b (defaultBank b)
def Glen.nextBank (g : Glen) (b : Nat) : Nat × Nat := g.next.getD b (defaultBank b)

/-- Entries that a table holds now. -/
def Glen.capacity (g : Glen) (t : Nat) : Nat :=
  ((List.range 32).map fun b => if (g.bank b).1 = t then 4096 / 2 ^ (g.bank b).2 else 0).sum

/-- Width of a table's entries as log2. -/
def Glen.width (g : Glen) (t : Nat) : Nat :=
  (((List.range 32).find? fun b => (g.bank b).1 = t).map fun b => (g.bank b).2).getD 1

/-- Bank and first row of a position (R199). -/
def Glen.placeOf (g : Glen) (t pos : Nat) : Nat × Nat :=
  let w := g.width t
  let banks := (List.range 32).filter fun b => (g.bank b).1 = t
  (banks.getD (pos / (4096 / 2 ^ w)) 0, pos % (4096 / 2 ^ w) * 2 ^ w)

/-- A rule table. -/
def Glen.rules_ (g : Glen) (access : Bool) : List (Option Rule) := if access then g.accTable else g.nsTable

/-- A rule table replaced. -/
def Glen.setTable (g : Glen) (access : Bool) (l : List (Option Rule)) : Glen :=
  if access then { g with accTable := l } else { g with nsTable := l }

/-- Whether a bank holds a rule now. -/
def Glen.bankUsed (g : Glen) (b : Nat) : Bool :=
  let t := (g.bank b).1
  t < 2 && ((g.rules_ (t == 1)).zipIdx.any fun (r, i) => r.isSome && (g.placeOf t i).1 == b)

/-- Refusal code of a SAVE (R198): 0 none. -/
def Glen.saveCheck (g : Glen) : Nat :=
  let l := (List.range 32).map fun b => (b, g.nextBank b)
  let ok (t w : Nat) : Bool := if t < 2 then w < 2 else if t = 2 then w == 0 else w == 2
  let count (t : Nat) : Nat := (l.filter fun e => e.2.1 = t).length
  let mixed (t : Nat) : Bool := match l.filter fun e => e.2.1 = t with
    | [] => false
    | e :: rest => rest.any fun f => f.2.2 != e.2.2
  if l.any fun e => !ok e.2.1 e.2.2 then 1
  else if count 0 = 0 ∨ count 1 = 0 ∨ count 2 < 4 ∨ count 3 ≠ 4 ∨ (mixed 0 || mixed 1) then 2
  else if l.any fun e => e.2 != g.bank e.1 && g.bankUsed e.1 then 3
  else 0

/-- GLEN_CTRL.SAVE (R198). -/
def State.glenSave (s : State) : State :=
  let code := s.glen.saveCheck
  if code = 0 then
    (s.updGlen fun g => { g with stored := some ((List.range 32).map g.nextBank), saveDone := true, saveError := false, saveCode := 0 }).metaWrite 0
  else
    (s.updGlen fun g => { g with saveDone := false, saveError := true, saveCode := code }).raise 188 0 0 0x406
      (eventData [(1, code)])

/-! ## Search -/

/-- The entries of a rule table. -/
def Glen.ruleEntries (g : Glen) (access : Bool) : List Entry :=
  (g.rules_ access).zipIdx.filterMap fun (r, i) => r.map fun r => r.entry (g.width (b2n access) != 0) i

/-- The entries of INFLIGHT. -/
def Glen.gateEntries (g : Glen) : List Entry := g.inflight.map Gate.entry

/-- Searches table `t`, which holds these entries, for one word: the result word; MULTI is counted and raises source 185 (R199, R213). -/
def State.searchTable (s : State) (t : Nat) (entries : List Entry) (word : GlenWord) : State × BitVec 64 :=
  match winner entries word with
  | none => (s, 0)
  | some (e, multi) =>
    let p := s.glen.placeOf t e.pos
    let w := resultWord multi p.1 p.2 e.result
    if multi then
      let s := s.updGlen fun g => { g with multi := bump g.multi t }
      (s.raiseLimited 185 0 0 0 (some 0x404) fun n => eventData [(1, t), (1, p.1), (2, p.2), (4, n)], w)
    else (s, w)

/-- Searches a rule table for a requester, a namespace and key bytes (R200). -/
def State.search (s : State) (access : Bool) (kind num ns : Nat) (key : Bytes) : State × BitVec 64 :=
  s.searchTable (b2n access) (s.glen.ruleEntries access) (keyWord (s.glen.width (b2n access) != 0) kind num ns key)

/-- Searches INFLIGHT for each key of a write (R209). A key has one entry, so MULTI would mark a fault (R201). -/
def State.searchGate (s : State) (ns : Nat) (fps : List (BitVec 64)) : State :=
  fps.foldl (fun s fp => (s.searchTable 2 s.glen.gateEntries (gateWord ns fp)).1) s

/-- The 160 data bits and 160 mask bits of a row of a bank that a rule table or INFLIGHT holds (R197); none where no entry stands there. -/
def Glen.row (g : Glen) (bank row : Nat) : Option (BitVec 160 × BitVec 160) :=
  let t := (g.bank bank).1
  let w := 2 ^ g.width t
  let entries := if t < 2 then g.ruleEntries (t == 1) else if t = 2 then g.gateEntries else []
  (entries.find? fun e => g.placeOf t e.pos = (bank, row / w * w)).map fun e => e.unit w (row % w)

/-- A command's requester (R200), and the function for which it acts. -/
def State.requester (s : State) : Carrier → Nat × Nat
  | .ring c => (0, ((s.ring? c).map Ring.fn).getD 0)
  | .admin f => (0, f)
  | .wire n _ => (1, n)
  | .mgmt => (0, 0)

/-- The function that a carrier acts for. -/
def State.actsFor (s : State) : Carrier → Nat
  | .ring c => ((s.ring? c).map Ring.fn).getD 0
  | .admin f => f
  | .wire n _ => ((mapGet? s.wire.sessions n).map Session.fn).getD 0
  | .mgmt => 0

/-- Permission bits of a requester on a key (R203): READ 1, ENUMERATE 2, WRITE 4, SECURE_DELETE 8. -/
def State.permissions (s : State) (c : Carrier) (ns : Nat) (key : Bytes) : State × Nat :=
  let (kind, num) := s.requester c
  let (s, w) := s.search true kind num ns key
  (s, if hitOf w then (resultOf w).toNat % 16 else if (s.space? ns).any fun n => n.params.owner = s.actsFor c then 15 else 0)

/-- Bits that a data opcode needs (R203); a BATCH needs them of each item. -/
def bitsNeeded (opcode : Nat) : Nat :=
  if opcode = 0x01 ∨ opcode = 0x02 ∨ opcode = 0x03 then 1
  else if opcode = 0x04 then 2
  else if opcode = 0x13 then 12
  else 4

/-- All the bits of `need` are in `have_`. -/
def hasBits (have_ need : Nat) : Bool := (have_ &&& need) = need

/-- Policy overrides for a key (R204): firmware handling, release (1 VERIFIED, 2 EARLY), hint (1 HOT, 2 COLD). -/
def State.policy (s : State) (c : Carrier) (ns : Nat) (key : Bytes) : State × Bool × Nat × Nat :=
  let (kind, num) := s.requester c
  let (s, w) := s.search false kind num ns key
  let r := (resultOf w).toNat
  (s, r.testBit 0, r / 4 % 4, r / 16 % 4)

/-! ## Rule operations -/

/-- Two rules overlap (R206). -/
def Rule.overlaps (a b : Rule) : Bool :=
  (a.reqKind = 2 || b.reqKind = 2 || (a.reqKind = b.reqKind && a.reqNum = b.reqNum)) &&
  (a.ns = b.ns || a.ns = 0 || b.ns = 0) && (a.prefix_.isPrefixOf b.prefix_ || b.prefix_.isPrefixOf a.prefix_)

/-- The rule that the port's registers state, with an ID (R205). -/
def RulePort.rule (p : RulePort) (id : Nat) : Rule :=
  let m := p.match_.toNat
  let bytes := ((List.range 8).map fun i => leBytes 4 (mapGet 0 p.prefix_ i).toNat).flatten
  { id := id, access := p.target.getLsbD 0, reqKind := m / 2 ^ 30, reqNum := if m / 2 ^ 30 = 2 then 0 else m / 2 ^ 18 % 4096,
    ns := m / 64 % 1024, prefix_ := bytes.take (m % 64), priority := p.priority.toNat, result := p.result }

/-- A result word has bits above the table's fields (R206). -/
def resultBad (access : Bool) (w : BitVec 32) : Bool := if access then decide (16 ≤ w.toNat) else decide (64 ≤ w.toNat)

/-- ID of an added rule: the lowest number from 1 that no rule bears (log entry 96). -/
def Glen.newId (g : Glen) : Nat :=
  ((List.range (g.rules.length + 1)).find? fun n => !(g.rules.any fun r => r.id = n + 1)).getD 0 + 1

/-- Refusal code of an operation (R206): 0 none. `op` is 1 ADD, 2 REMOVE, 3 SET_RESULT. -/
def State.ruleRefusal (s : State) (op : Nat) : Nat :=
  let p := s.glen.port
  let r := p.rule 0
  let len := p.match_.toNat % 64
  let known := s.glen.rules.any fun x => x.id = p.target.toNat / 65536 ∧ x.access = r.access
  if op = 1 then
    if 3 ≤ r.reqKind ∨ (r.reqKind = 0 ∧ 63 < r.reqNum) ∨ (!r.access ∧ (r.ns = 0 ∨ r.reqKind ≠ 2)) ∨
       (r.ns ≠ 0 ∧ (s.space? r.ns).isNone) ∨ (if s.glen.width (b2n r.access) = 0 then 12 else 32) < len ∨ resultBad r.access r.result then 2
    else if s.glen.rules.any fun x => x.access = r.access && x.priority = r.priority && x.overlaps r then 3
    else if s.glen.capacity (b2n r.access) ≤ (s.glen.rules.filter fun x => x.access = r.access).length ∨ 65535 < s.glen.newId then 4
    else 0
  else if op = 3 ∧ resultBad r.access r.result then 2
  else if known then 0 else 5

/-- Lays rules out with every H-th position a hole, while the table has room for holes (R207). -/
def layOut (h capacity : Nat) (spare : Nat) : List Rule → Nat → List (Option Rule)
  | [], _ => []
  | r :: rest, pos =>
    if pos % h = h - 1 ∧ 0 < spare then none :: some r :: layOut h capacity (spare - 1) rest (pos + 2)
    else some r :: layOut h capacity spare rest (pos + 1)

/-- A table as it is built at REBUILD, from rules in ascending priority (R207, R212). -/
def Glen.build (g : Glen) (access : Bool) : List (Option Rule) :=
  let l := sortBy (fun a b => decide (a.priority ≤ b.priority)) (g.rules.filter fun r => r.access = access)
  layOut (2 ^ g.holeBuilt) (g.capacity (b2n access)) (g.capacity (b2n access) - l.length) l 0

/-- Trailing free positions are not listed. -/
def trimTable (l : List (Option Rule)) : List (Option Rule) := (l.reverse.dropWhile Option.isNone).reverse

/-- Position for a rule: after every rule of equal or lower number (R207). -/
def positionFor (l : List (Option Rule)) (priority : Nat) : Nat :=
  ((l.zipIdx.filter fun (r, _) => r.any fun r => r.priority ≤ priority).map fun e => e.2 + 1).foldl max 0

/-- Source 184 with its GLEN_RULE record (R213), or the record alone. -/
def State.ruleEvent (s : State) (op id code : Nat) (stamp : Stamp) (raised : Bool) : State :=
  let d := eventData [(1, op), (2, id), (1, code)]
  if raised then s.raise 184 0 stamp 0x403 d else s.recordEvent 184 stamp 0x403 d

/-- Positions at which a rule stands. -/
def posOf (l : List (Option Rule)) (id : Nat) : List Nat := (l.zipIdx.filter fun (r, _) => r.any fun r => r.id = id).map Prod.snd

/-- Removes a rule by ID from its table and from the metadata region. -/
def Glen.dropRule (g : Glen) (id : Nat) : Glen :=
  let clear (l : List (Option Rule)) : List (Option Rule) := trimTable (runOps l ((posOf l id).map .invalidate))
  { g with rules := g.rules.filter fun r => r.id != id, nsTable := clear g.nsTable, accTable := clear g.accTable }

/-- A rule operation at its stamp (R205 to R208). -/
def State.ruleApply (s : State) (op : Nat) (stamp : Stamp) : State :=
  let code := s.ruleRefusal op
  let p := s.glen.port
  let id := if op = 1 then s.glen.newId else p.target.toNat / 65536
  let s := s.updGlen fun g => { g with
    busy := false, busyWrite := false, ruleId := if op = 1 ∧ code ≠ 0 then 0 else id
    ruleCode := if g.busyWrite then 6 else code, ruleError := code != 0, ruleStamp := stamp }
  let s :=
    if code ≠ 0 then s
    else if op = 1 then
      let r := p.rule id
      let cap := s.glen.capacity (b2n r.access)
      let table := s.glen.rules_ r.access
      let (ops, moves) := addOps table (positionFor table r.priority) cap r
      s.updGlen fun g =>
        let g := { g with rules := g.rules ++ [r], moves := moves,
                          restore := if 2 * 2 ^ g.holeBuilt < moves ∧ !(b2n r.access ∈ g.restore) then b2n r.access :: g.restore else g.restore }
        g.setTable r.access (runOps table ops)
    else if op = 2 then s.updGlen fun g => g.dropRule id
    else
      let set (l : List (Option Rule)) := runOps l ((posOf l id).map fun i => .result i p.result)
      s.updGlen fun g => { g with
        rules := g.rules.map fun r => if r.id = id then { r with result := p.result } else r
        nsTable := set g.nsTable, accTable := set g.accTable }
  (if code ≠ 0 then s else s.metaWrite 0).ruleEvent op id code stamp true

/-- Removes every rule that a test selects, each with its record: rules that name a deleted namespace or a session that has become FREE
(R206). -/
def State.removeRules (s : State) (p : Rule → Bool) : State :=
  (s.glen.rules.filter p).foldl (fun s r => ((s.updGlen fun g => g.dropRule r.id).metaWrite 0).ruleEvent 2 r.id 0 0 false) s

/-- Holes are restored in a table (R207). -/
def State.holeRestore (s : State) (t : Nat) : State :=
  if t ∈ s.glen.restore then
    s.updGlen fun g => { g.setTable (t == 1) (g.build (t == 1)) with restore := g.restore.filter (· != t) }
  else s

/-! ## The INFLIGHT gate -/

/-- Pending writes in gate SRAM. -/
def Glen.pendingCount (g : Glen) : Nat := (g.inflight.map fun e => e.pending.length).sum

/-- A write on a key is pending with a stamp that a test selects. -/
def Glen.anyPending (g : Glen) (ns : Nat) (fp : BitVec 64) (p : Stamp → Bool) : Bool :=
  (g.inflight.any fun e => e.ns = ns && e.fp = fp && e.pending.any p) ||
  (g.backlog.any fun b => b.1 = fp && b.2.1 = ns && p b.2.2)

/-- The lowest free position of INFLIGHT (DESIGN CHOICE, log entry 129). -/
def Glen.freePos (g : Glen) : Nat :=
  ((List.range (g.inflight.length + 1)).find? fun i => !(g.inflight.any fun e => e.pos = i)).getD 0

/-- Joins or inserts a key's entry for a write (R209); none where there is no room (R211). -/
def Glen.join (g : Glen) (ns : Nat) (fp : BitVec 64) (st : Stamp) : Option Glen :=
  if Config.maxPendingWrites ≤ g.pendingCount then none
  else if g.inflight.any fun e => e.ns = ns ∧ e.fp = fp then
    some { g with inflight := g.inflight.map fun e => if e.ns = ns ∧ e.fp = fp then
      { e with pending := insertBy (fun a b => a ≤ b) st e.pending } else e }
  else if g.inflight.length < g.capacity 2 then
    let l := g.inflight ++ [{ ns := ns, fp := fp, pending := [st], pos := g.freePos }]
    some { g with inflight := l, peak := max g.peak l.length }
  else none

/-- Joins every key of a write. -/
def Glen.joinAll (g : Glen) (ns : Nat) (st : Stamp) : List (BitVec 64) → Option Glen
  | [] => some g
  | fp :: rest => match g.join ns fp st with | none => none | some g => g.joinAll ns st rest

/-- A write's gate step (R209 to R211): its keys join, or it enters the backlog; false where the backlog is full. -/
def State.gateJoin (s : State) (ns : Nat) (fps : List (BitVec 64)) (st : Stamp) : State × Bool :=
  let s := s.searchGate ns fps.eraseDups
  let waits := fps.any fun fp => s.glen.anyPending ns fp (· < st)
  let count (s : State) : State := if waits then s.updGlen fun g => { g with waits := inc64 g.waits } else s
  match s.glen.joinAll ns st fps.eraseDups with
  | some g => (count (s.updGlen fun _ => g), true)
  | none =>
    if s.glen.backlog.length + fps.eraseDups.length ≤ Config.gateBacklog then
      let s := s.updGlen fun g => { g with
        backlog := g.backlog ++ fps.eraseDups.map fun fp => (fp, ns, st), backWaits := inc64 g.backWaits, waits := inc64 g.waits }
      (s.raise 186 0 st 0x405 (eventData [(8, (fps.headD 0).toNat), (2, ns), (4, s.glen.inflight.length)]), true)
    else
      let s := s.updGlen fun g => { g with stalled := true }
      (s.raiseLimited 187 0 0 0 (some 0x405) fun _ => eventData [(2, s.glen.backlog.length), (8, s.grain)], false)

/-- A write heads every list of its keys (R209, R210). -/
def Glen.heads (g : Glen) (ns : Nat) (fps : List (BitVec 64)) (st : Stamp) : Bool :=
  fps.all fun fp => !g.anyPending ns fp (· < st)

/-- A write sits in the backlog. -/
def Glen.inBacklog (g : Glen) (st : Stamp) : Bool := g.backlog.any fun b => b.2.2 = st

/-- Moves backlog entries into INFLIGHT while there is room, oldest first (R211). -/
def Glen.drain (g : Glen) : Nat → Glen
  | 0 => g
  | n + 1 =>
    match g.backlog with
    | [] => g
    | (fp, ns, st) :: rest =>
      match { g with backlog := rest }.join ns fp st with
      | none => g
      | some g => g.drain n

/-- A write leaves its pending lists: indexed or caught (R209, R210). -/
def State.gateLeave (s : State) (st : Stamp) : State :=
  s.updGlen fun g =>
    let l := (g.inflight.map fun e => { e with pending := e.pending.filter (· != st) }).filter fun e => !e.pending.isEmpty
    { g with inflight := l, backlog := g.backlog.filter fun b => b.2.2 != st }.drain Config.gateBacklog

/-- A keyed read with bound `b` may proceed (R209). -/
def Glen.readFree (g : Glen) (ns : Nat) (fp : BitVec 64) (b : Stamp) : Bool := !g.anyPending ns fp (· ≤ b)

/-- An ENUMERATE with bound `b` may proceed (R209). -/
def Glen.enumFree (g : Glen) (ns : Nat) (b : Stamp) : Bool :=
  !(g.inflight.any fun e => e.ns = ns && e.pending.any (· ≤ b)) && !(g.backlog.any fun x => x.2.1 = ns && decide (x.2.2 ≤ b))

/-- The tables at an entry into REBUILD (R212); banks are applied after power-on and SYS_RESET# only: the stored assignment, or the default
where none is stored or it is unreadable (R198). The code in source 188 says which: 0 none, 1 unreadable (DESIGN CHOICE, log entry 119). -/
def State.glenRebuild (s : State) (cold unreadable : Bool) : State :=
  let s :=
    if cold then
      let s := (s.removeRules fun r => r.reqKind = 1 && s.glen.freed.contains r.reqNum).updGlen fun g => { g with freed := [] }
      let had := s.glen.stored.isSome
      let s := s.updGlen fun g =>
        let stored := if unreadable then none else g.stored
        let new := stored.getD ((List.range 32).map defaultBank)
        let changed (t : Nat) : Bool := ((List.range 32).any fun b =>
          (g.bank b).1 = t && new.getD b (0, 0) != g.bank b || (new.getD b (0, 0)).1 = t && new.getD b (0, 0) != g.bank b)
        { g with banks := new, next := new, defaulted := stored.isNone,
                 rules := g.rules.filter fun r => !changed (b2n r.access) }
      if s.glen.defaulted then s.raise 188 0 0 0x406 (eventData [(1, b2n had)]) else s
    else s
  s.updGlen fun g =>
    let g := { g with holeBuilt := if 2 ≤ s.inForce.holeLog ∧ s.inForce.holeLog ≤ 8 then s.inForce.holeLog else 4,
                      inflight := [], backlog := [], restore := [] }
    { g with nsTable := g.build false, accTable := g.build true }

end Sys2Proof.Machine
end

