-- ==== Sys2Proof/Machine/Gorge.lean ====
section
/-! DEFINITION. Gorge: the DRBG's state (R297), pairs and fences (R280, R283), KEK tokens (R286), key pages (R284, R287,
R289), uses and nonce counters (R291, R293). -/

namespace Sys2Proof.Machine

/-- A page, where it is not free. -/
def State.keyPage? (s : State) (p : Nat) : Option KeyPage := mapGet? s.gorge.pages p

/-- A key page changed. -/
def State.updPage (s : State) (p : Nat) (f : KeyPage → KeyPage) : State :=
  s.updGorge fun g => { g with pages := g.pages.map fun e => if e.1 = p then (e.1, f e.2) else e }

/-- The DRBG gives output. -/
def State.drbgReady (s : State) : Bool := s.gorge.drbg = 1

/-- Pairs that take work now, after fences and power state (R280, R283). -/
def State.pairs (s : State) : List Nat :=
  let l := (List.range 16).filter fun p => !(p ∈ s.gorge.fenced)
  if 2 ≤ s.host.power then l.take 2 else l

/-- Blocks run on a pair (R282): after every 2^20 the DRBG reseeds the mask generators of both lanes, once it gives output (R297). DESIGN
CHOICE (log entry 136): work runs on the lowest-numbered pair that takes work. -/
def State.maskRun (s : State) (blocks : Nat) : State :=
  match s.pairs with
  | [] => s
  | p :: _ =>
    let n := mapGet 0 s.gorge.maskBlocks p + blocks
    let due := decide (1048576 ≤ n) && s.drbgReady
    let s := s.updGorge fun g => { g with maskBlocks := mapSet g.maskBlocks p (if due then n - 1048576 else n) }
    if due then s.drbg.drbg else s

/-- Chunks or key blocks, encrypted or decrypted on a pair (R280, R298). -/
def State.unitRun (s : State) (encrypts : Bool) (units blocks : Nat) : State :=
  (s.updGorge fun g =>
    if encrypts then { g with encrypted := satAdd max64 g.encrypted units } else { g with decrypted := satAdd max64 g.decrypted units }).maskRun blocks

/-- A SECURE frame's payload passes a pair, checked or encrypted (R280, R298). -/
def State.frameUnit (s : State) (bytes : Nat) : State :=
  (s.updGorge fun g => { g with secureFrames := inc64 g.secureFrames }).maskRun (ceilDiv bytes 16)

/-- A disagreement of a pair that takes work (R283): counted, source 163, and the second within 3,600 s fences it (source 164). -/
def State.laneMismatch (s : State) (p : Nat) : State :=
  if !(p ∈ s.pairs) then s else
  let last := mapGet? s.gorge.pairLast p
  let fence := last.any (fun g => decide (s.grain < g + 3600000000)) && !(p ∈ s.gorge.fenced)
  let s := s.updGorge fun g => { g with
    mismatches := inc64 g.mismatches, pairCount := mapUpd 0 g.pairCount p (fun n => satAdd 65535 n 1), pairLast := mapSet g.pairLast p s.grain
    fenced := if fence then p :: g.fenced else g.fenced }
  let s := s.raiseLimited 163 0 0 0 (some 0x703) fun n => eventData [(1, p), (4, n)]
  if fence then s.raise 164 0 0 0x704 (eventData [(1, p), (1, 16 - s.gorge.fenced.length)]) else s

/-- An entropy health test fails (R297). -/
def State.entropyFail (s : State) (test : Nat) : State :=
  let n := s.gorge.consecutive + 1
  let st := if 3 ≤ n ∨ s.gorge.drbg = 3 then 3 else 2
  (s.updGorge fun g => { g with entropyFails := inc64 g.entropyFails, consecutive := n, drbg := st }).raise 165 0 0 0x705
    (eventData [(1, test), (4, n), (1, st)])

/-- The repeated start-up test passes (R297). -/
def State.entropyPass (s : State) : State :=
  if s.gorge.drbg = 2 then s.updGorge fun g => { g with drbg := 1, consecutive := 0 } else s

/-! ## Tokens -/

/-- A signature of 96 bytes as its two numbers, big-endian (R286). -/
def signatureOf (b : Bytes) : BitVec 768 := BitVec.ofNat 768 (beNat b)

/-- A token's signature by the owner key over the SHA-384 of its first bytes. -/
def ownerSigned (key : BitVec 768) (body sig : Bytes) : Bool := Config.ecdsaVerify key body (signatureOf sig)

/-- The checks of a KEK token, in R286's order; the new KEK and version where all pass. DEDUCED (log entry 137): the 8 bytes 0 behind a
plaintext key belong to the format. -/
def State.kekCheck (s : State) (f : Nat) (t : Bytes) : Except Fail (BitVec 256 × Nat) :=
  let x := s.fn f
  let form := field t 10 1
  if field t 0 4 ≠ 1 then .error (badArea 0)
  else if field t 4 4 = 0 then .error (badArea 4)
  else if 63 < field t 8 2 then .error (badArea 8)
  else if 1 < form then .error (badArea 10)
  else if !allZero (slice t 11 5) then .error (badArea 11)
  else if form = 0 ∧ !allZero (slice t 0x48 8) then .error (badArea 0x48)
  else
    match s.spi.ownerKey with
    | none => .error (.conditionFailed, 0)
    | some key =>
      if field t 8 2 ≠ f then .error (.notPermitted, 0)
      else if slice t 0x18 16 ≠ identityBytes ∨ field t 0x10 8 ≠ x.nonce.toNat ∨ field t 4 4 ≤ x.kekVersion then .error (.notPermitted, 0)
      else if !ownerSigned key (slice t 0 0x50) (slice t 0x50 96) then .error (.notPermitted, 0)
      else
        match form, x.kek with
        | 0, none => .ok (BitVec.ofNat 256 (leNat (slice t 0x28 32)), field t 4 4)
        | 1, some k =>
          match Config.unwrapKey k (slice t 0x28 40) with
          | some n => .ok (n, field t 4 4)
          | none => .error (badArea 0x28)
        | _, _ => .error (badArea 0x28)

/-- KEY_PAGE_LOAD operation KEK (R286). -/
def State.kekInstall (s : State) (f : Nat) (stamp : Stamp) : State × Result :=
  if !s.drbgReady then
    (s.updFn f fun x => { x with stage := [] }, { status := .busyRetry, detail := 10000 })
  else
    let t := padTo 4096 (s.fn f).stage
    let r := s.kekCheck f t
    let (st, d) := match r with | .ok _ => (Status.success, 0) | .error e => e
    let s := match r with
      | .ok (k, v) => (s.updFn f fun x => { x with kek := some k, kekVersion := v }).metaWrite 0
      | .error _ => s
    let n := s.free
    let s := s.drbg.updFn f fun x => { x with nonce := Config.drbg64 n, stage := [] }
    (s.raise 167 f stamp 0x707 (eventData [(1, f), (4, (s.fn f).kekVersion), (2, st.code)]), { status := st, detail := d })

/-! ## Key pages -/

/-- Source 160 (R300): operation 1 loaded, 2 retired, 3 page freed (log entry 13). -/
def State.pageEvent (s : State) (owner page gen op : Nat) (stamp : Stamp) : State :=
  s.raise 160 owner stamp 0x700 (eventData [(1, page), (1, gen), (1, op)])

/-- KEY_PAGE_LOAD operation LOAD (R287). -/
def State.pageLoad (s : State) (f page : Nat) (stamp : Stamp) : State × Result :=
  let m := padTo 4096 (s.fn f).stage
  let cur := s.keyPage? page
  let key := (s.fn f).kek.bind fun k => Config.unwrapKey k (slice m 0 40)
  let lim := field m 0x28 1
  let fail :=
    firstFail [(page ≤ 255, badField 0x20), (!cur.any (fun p => p.owner != f), (.notPermitted, 0)),
      ((s.fn f).kek.isSome, (.conditionFailed, 0)), (!cur.any (fun p => p.previous.isSome), (.conditionFailed, 0)),
      (key.isSome, badArea 0), (lim = 0 || (20 ≤ lim && lim ≤ 40), badArea 0x28), (allZero (slice m 0x29 7), badArea 0x29),
      (s.drbgReady, (.busyRetry, 10000))]
  let s := s.updFn f fun x => { x with stage := [] }
  match fail with
  | some (st, d) => (s, { status := st, detail := d })
  | none =>
    let number := match cur with | none => 1 | some p => if p.current.number = 255 then 1 else p.current.number + 1
    let limit := if lim = 0 then 40 else lim
    let gen : Generation :=
      { number := number, key := key.getD 0, salt := Config.drbg32 s.free, limit := limit, force := limit, kept := limit }
    let p : KeyPage := match cur with
      | none => { owner := f, current := gen }
      | some p => { p with current := gen, previous := some p.current, sweep := true, rewritten := 0, refused := false }
    let s := (s.drbg.updGorge fun g => { g with pages := mapSet g.pages page p }).metaWrite 0
    (s.pageEvent f page number 1 stamp, { length := number })

/-- Records still under the previous generation (R290, SWEEP_LEFT). -/
def State.sweepLeft (s : State) (page : Nat) : Nat :=
  match (s.keyPage? page).bind KeyPage.previous with
  | none => 0
  | some g => (s.index.keys.map fun k => (k.versions.filter fun v => v.page = page ∧ v.gen = g.number).length).sum

/-- Namespaces that name a page; one that is being removed names it until its ID is free (R48). -/
def State.pageNamespaces (s : State) (page : Nat) : Nat :=
  (s.index.spaces.filter fun e => e.2.params.page = page).length + (s.index.removing.filter fun e => e.2.1.params.page = page).length

/-- The sweep is done: source 166 and its record; the previous generation may be retired (R290). -/
def State.sweepDone (s : State) (page : Nat) (p : KeyPage) : State :=
  (s.updPage page fun p => { p with sweep := false }).raise 166 p.owner 0 0x706
    (eventData [(1, page), (1, (p.previous.map Generation.number).getD 0), (4, p.rewritten)])

/-- KEY_PAGE_RETIRE (R289). -/
def State.pageRetire (s : State) (f page : Nat) (stamp : Stamp) : State × Result :=
  if 255 < page then (s, { status := .invalidField, detail := 0x20 })
  else
    match s.keyPage? page with
    | none => (s, { status := .notFound })
    | some p =>
      if p.owner ≠ f then (s, { status := .notPermitted })
      else
        match p.previous with
        | some g =>
          let busy := s.works.any fun w => w.page = page && w.gen = g.number && !w.items.isEmpty && w.phase != .ordered
          if s.sweepLeft page ≠ 0 ∨ busy then (s, { status := .conditionFailed })
          else
            let s := if p.sweep then s.sweepDone page p else s
            (((s.updPage page fun p => { p with previous := none, sweep := false }).metaWrite 0).pageEvent f page g.number 2 stamp, {})
        | none =>
          if s.pageNamespaces page ≠ 0 then (s, { status := .conditionFailed })
          else (((s.updGorge fun g => { g with pages := mapErase g.pages page }).metaWrite 0).pageEvent f page p.current.number 3 stamp, {})

/-- Counter values that a record takes: the key block's and one per chunk (R291). -/
def usesOf (valLen : Nat) : Nat := 1 + ceilDiv valLen 65536

/-- Source 161 (R300). -/
def State.limitEvent (s : State) (page owner : Nat) (g : Generation) (stamp : Stamp) : State :=
  s.raise 161 owner stamp 0x701 (eventData [(1, page), (1, g.number), (4, min max32 g.uses), (4, min max32 (2 ^ g.force))])

/-- The generation of a page that a write encrypts under, of the number current at its stamp (R288); the current one where that number is
retired by the time a stalled gate admits the write (log entry 138, DESIGN CHOICE). The Bool says that it is the previous one. -/
def KeyPage.generation (p : KeyPage) (gen : Nat) : Generation × Bool :=
  match p.previous.filter fun g => g.number = gen ∧ p.current.number ≠ gen with
  | some g => (g, true)
  | none => (p.current, false)

/-- Takes counter values at admission (R291, R293), under the generation that was current at the stamp (R288): the first value taken, or
none for KEY_EXHAUSTED. -/
def State.takeUses (s : State) (page gen n : Nat) (del : Bool) (stamp : Stamp) : State × Option Nat :=
  match s.keyPage? page with
  | none => (s, none)
  | some p =>
    let (g, demoted) := p.generation gen
    if 2 ^ g.force + (if del then 1048576 else 0) < g.uses + n then
      if p.refused then (s, none)
      else ((s.updPage page fun p => { p with refused := true }).limitEvent page p.owner g stamp, none)
    else
      let next := p.counter + n
      let warn := !g.warned && decide (2 ^ g.force * 15 ≤ (g.uses + n) * 16)
      let g' := { g with uses := g.uses + n, warned := g.warned || warn }
      let p' := { p with current := if demoted then p.current else g', previous := if demoted then some g' else p.previous, counter := next
                         reserved := if next ≤ p.reserved then p.reserved else ceilDiv next 1048576 * 1048576 }
      let s := s.updPage page fun _ => p'
      let s := if p'.reserved = p.reserved then s else s.metaWrite 8
      (if warn then s.limitEvent page p.owner g' stamp else s, some p.counter)

/-- After a power loss every page resumes past its reserved block, and the whole block counts as used (R291). -/
def State.resumeNonces (s : State) : State :=
  s.updGorge fun g => { g with pages := g.pages.map fun (n, p) =>
    (n, { p with counter := p.reserved, current := { p.current with uses := p.current.uses + (p.reserved - p.counter) } }) }

/-- A change of the limit that stands in every generation a page holds. -/
def KeyPage.limits (p : KeyPage) (f : Generation → Generation) : KeyPage :=
  { p with current := f p.current, previous := p.previous.map f }

/-- LIMIT takes effect from the grain after its write (R392). -/
def State.limitsForce (s : State) : State :=
  s.updGorge fun g => { g with pages := g.pages.map fun (n, p) => (n, p.limits fun x => { x with force := x.limit }) }

/-- Every LIMIT reaches the metadata region (R393). -/
def State.limitsStore (s : State) : State :=
  s.updGorge fun g => { g with pages := g.pages.map fun (n, p) => (n, p.limits fun x => { x with kept := x.limit }) }

/-- A LIMIT written and not stored yet (R393). -/
def State.limitsPending (s : State) : Bool := s.gorge.pages.any fun e => e.2.current.limit != e.2.current.kept

/-- A write of LIMIT through the page view (R293, R299). -/
def State.setLimit (s : State) (page v : Nat) : State :=
  if 20 ≤ v ∧ v ≤ 40 then
    s.updPage page fun p =>
      let least := ((List.range 41).find? fun l => v ≤ l ∧ p.current.uses ≤ 2 ^ l).getD 40
      { p with current := { p.current with limit := least } }
  else s

end Sys2Proof.Machine
end

