-- ==== Sys2Proof/Machine/Media.lean ====
section
/-! DEFINITION. Delta's layout: geometry (R217 to R219), blocks (R223, R224), placement (R225, R226), programs (R227),
space, SLC budget and GC level (R228, R231, R258), the journal buffer (R232), releases (R230). -/

namespace Sys2Proof.Machine

/-! ## Geometry -/

/-- Stripe groups G, blocks N and native pages P of a die, pages of a wordline. -/
def Delta.groups (d : Delta) : Nat := d.inUse.length
def Delta.blocks (d : Delta) : Nat := (d.pop.map NandPopulation.blocks).getD 0
def Delta.pages (d : Delta) : Nat := (d.pop.map NandPopulation.pages).getD 0
def Delta.wordline (d : Delta) : Nat := if (d.pop.map NandPopulation.cell).getD 0 = 0 then 3 else 4

/-- Segments per group S_g (R217). -/
def Delta.perGroup (d : Delta) : Nat := min 4096 (96 * d.blocks / 100 - ceilDiv 2080 (32 * d.groups))

/-- A die's share of the 2,080 physical blocks of the metadata region (R217): DESIGN CHOICE (log entry 99): dies of the lower groups and, within
a group, of the lower channels hold one more where the blocks do not divide evenly, and a die's share has its highest block numbers. -/
def Delta.metaShare (d : Delta) (group channel : Nat) : Nat :=
  2080 / max 1 (32 * d.groups) + b2n (decide (32 * group + channel < 2080 % max 1 (32 * d.groups)))

/-- All logical segments. -/
def Delta.total (d : Delta) : Nat := d.groups * d.perGroup

/-- Free logical segments F. -/
def Delta.free (d : Delta) : Nat := d.total - d.segments.length

/-- Pages that one program of a segment's block writes (R219). -/
def Delta.kOf (d : Delta) (slc : Bool) : Nat := if slc then 1 else d.wordline

/-- Units that a segment's data pages hold (R218). -/
def Delta.capacity (d : Delta) (slc : Bool) : Nat :=
  64 * 31 * (if slc then d.pages / d.wordline - 1 else d.pages - 1)

/-- Row group, index of the data channel within it, and page within the wordline, of a data page in fill order (R219). -/
def pagePlace (k q : Nat) : Nat × Nat × Nat :=
  if q < 31 * (k - 1) then (0, q / (k - 1), q % (k - 1) + 1)
  else let q := q - 31 * (k - 1); (1 + q / (31 * k), q % (31 * k) / k, q % k)

/-- Channel, page in the block and unit in the page of a unit in fill order (R219). -/
def unitPlace (seg k u : Nat) : Nat × Nat × Nat :=
  let (w, i, r) := pagePlace k (u / 64)
  (((w + seg) % 32 + 1 + i) % 32, w * k + r, u % 64)

/-- What a page of a segment's block is (R219, R222): the segment header, a parity page of a row group, or a data page by its number in fill
order. -/
inductive PageUse where
  | header
  | parity (group : Nat)
  | data (q : Nat)
  deriving DecidableEq, Repr

/-- The use of a channel's page. -/
def pageUse (n k channel page : Nat) : PageUse :=
  if page = 0 then .header
  else
    let w := page / k
    let parity := (w + n) % 32
    let i := (channel + 31 - parity) % 32
    if channel = parity then .parity w
    else if w = 0 then .data (i * (k - 1) + (page % k - 1))
    else .data (31 * (k - 1) + (w - 1) * (31 * k) + i * k + page % k)

/-- Where the program unit that holds unit `u` ends, and where its row group ends. -/
def progEnd (k u : Nat) : Nat :=
  let q := u / 64
  if q < 31 * (k - 1) then (q / (k - 1) + 1) * (k - 1) * 64
  else (31 * (k - 1) + ((q - 31 * (k - 1)) / k + 1) * k) * 64
def rowEnd (k u : Nat) : Nat :=
  let q := u / 64
  if q < 31 * (k - 1) then 31 * (k - 1) * 64
  else (31 * (k - 1) + ((q - 31 * (k - 1)) / (31 * k) + 1) * (31 * k)) * 64

/-- Units of a record (R292, R70). -/
def recordUnits (keyLen valLen : Nat) : Nat :=
  ceilDiv (64 + ceilDiv keyLen 16 * 16 + 16 + valLen + 16 * ceilDiv valLen 65536) 256

/-- A segment, and whether its units up to `u` are programmed. -/
def State.segment? (s : State) (n : Nat) : Option Segment := mapGet? s.delta.segments n
def State.updSegment (s : State) (n : Nat) (f : Segment → Segment) : State :=
  s.updDelta fun d => { d with segments := d.segments.map fun e => if e.1 = n then (e.1, f e.2) else e }

/-- A record is held in Basin: its row group, or one that it spans, is not programmed (R227). -/
def State.inBasin (s : State) (l : Loc) (units : Nat) : Bool :=
  match s.segment? l.segment with
  | none => false
  | some g => decide (g.par < rowEnd (s.delta.kOf g.slc) (l.unit + units - 1))

/-- A record's units are programmed. -/
def State.programmed (s : State) (l : Loc) (units : Nat) : Bool :=
  match s.segment? l.segment with
  | none => true
  | some g => decide (l.unit + units ≤ g.done)

/-- The location word of a flash record (R68). -/
def State.locationWord (s : State) (l : Loc) : Nat :=
  let k := s.delta.kOf ((s.segment? l.segment).any Segment.slc)
  let (c, p, u) := unitPlace l.segment k l.unit
  l.segment * 2 ^ 23 + c * 2 ^ 18 + p * 64 + u

/-- Codewords of a segment's data pages in fill order: four to a page, unit `u` of a page in codeword floor(u / 16) (R220). -/
def codewordOf (unit : Nat) : Nat := unit / 16

/-- Codewords that a record's units span (R220). -/
def codewordSpan (unit units : Nat) : Nat := codewordOf (unit + max 1 units - 1) + 1 - codewordOf unit

/-- Channel of a codeword, and of the parity page of the row group that holds a unit (R219). -/
def codewordChannel (seg k c : Nat) : Nat := (unitPlace seg k (16 * c)).1
def parityChannel (seg k u : Nat) : Nat := ((pagePlace k (u / 64)).1 + seg) % 32

/-- Die index of a stripe group, and key of a die. -/
def Delta.dieIndex (d : Delta) (g : Nat) : Nat := d.inUse.getD g 0
def dieKey (channel die : Nat) : Nat := channel * 16 + die

/-- A page of a segment is programmed. -/
def Segment.pageWritten (g : Segment) (n k channel page : Nat) : Bool :=
  match pageUse n k channel page with
  | .header => true
  | .data q => decide (64 * q < g.done)
  | .parity w => decide (w < (pagePlace k (g.par / 64)).1)

/-- The programmed pages of a segment, by segment, channel and page in the block. -/
def Segment.writtenPages (g : Segment) (n k : Nat) : List (Nat × Nat × Nat) :=
  let rows := if g.done = 0 then 1 else ((pagePlace k ((g.done - 1) / 64)).1 + 1) * k
  (List.range rows).flatMap fun page =>
    (List.range 32).filterMap fun c => if g.pageWritten n k c page then some (n, c, page) else none

/-! ## Write sequence (R71) -/

/-- Takes `n` write sequences; a block of 2^20 is reserved before its first use. -/
def State.takeSeq (s : State) (n : Nat) : State × Nat :=
  let q := s.index.wseq
  if q + n ≤ s.index.wseqEnd then (s.updIndex fun i => { i with wseq := q + n }, q)
  else ((s.updIndex fun i => { i with wseq := q + n, wseqEnd := (q + n) / 1048576 * 1048576 + 1048576 }).metaWrite 8, q)

/-! ## Space, budget and level -/

/-- SLC segments in use, and the SLC budget (R228). DEDUCED (log entry 131): those of stream 0; journal segments, SLC too, hold no data. -/
def Delta.slcInUse (d : Delta) : Nat := (d.segments.filter fun e => e.2.stream = 0).length
def State.slcBudget (s : State) : Nat :=
  if s.inForce.slcCtrl.getLsbD 31 then s.inForce.slcCtrl.toNat % 131072
  else max (2 * s.delta.groups * s.delta.blocks / 100) (s.delta.free / 4)

/-- A stream 0 segment may be opened (R228). -/
def State.slcAllowed (s : State) : Bool :=
  decide (s.delta.slcInUse < s.slcBudget) && decide (4 * s.delta.groups < s.delta.free)

/-- Write-paced GC applies (R231). -/
def Delta.writePaced (d : Delta) : Bool := decide (0 < d.total) && decide (d.free ≤ 4 * d.groups)

/-- The GC level without write pacing (R231): fixed, else calendar, else adaptive, lowered by one under load. -/
def State.gcLevelNow (s : State) : Nat :=
  let f := s.delta.free
  let t := s.delta.total
  let adaptive := if 15 * t < 100 * f then 0 else if 10 * t < 100 * f then 1 else if 5 * t < 100 * f then 2 else 3
  let loaded := if Config.diesBusy s.grain then (if 100 * f ≤ 10 * t then max 2 (adaptive - 1) else adaptive - 1) else adaptive
  if s.inForce.gcCtrl.getLsbD 3 then s.inForce.gcCtrl.toNat % 4 else s.calendarGc.getD loaded

/-- SLC budget, GC level and the NO_SPACE refusal follow the free segments (R228, R231, R258). -/
def State.spaceUpdate (s : State) : State :=
  if s.delta.total = 0 then s
  else
    let f := s.delta.free
    let g := s.delta.groups
    let low := decide (s.slcBudget < s.delta.slcInUse)
    let s' := if low && !s.delta.budgetLow then
      s.raise 117 0 0 0x505 (eventData [(4, s.slcBudget), (4, s.delta.slcInUse)]) else s
    let paced := s.delta.writePaced
    let level := if paced then 4 else s.gcLevelNow
    let d118 := eventData [(4, f), (1, level)]
    let s' := if paced != s.delta.paced then s'.raise 118 0 0 0x506 d118
      else if level ≠ s.delta.gcLevel then s'.recordEvent 118 0 0x506 d118 else s'
    let full := if s.delta.noSpace then decide (f ≤ 3 * g) else decide (f ≤ 2 * g)
    let s' := if full != s.delta.noSpace then
      s'.raise 120 0 0 0x508 (eventData [(4, f), (4, 2 * g), (1, if full then 1 else 2)]) else s'
    s'.updDelta fun d => { d with budgetLow := low, paced := paced, gcLevel := level, noSpace := full, credit := if paced then d.credit else 0 }

/-! ## Blocks (R223, R224) -/

/-- The first block from `b` on that the factory has not marked bad. -/
def skipBad (bad : List Nat) : Nat → Nat → Nat
  | 0, b => b
  | n + 1, b => if b ∈ bad then skipBad bad n (b + 1) else b

/-- The first block of a die that was never used, of `blocks` for segments; and how many erased blocks the die has. -/
def Die.fresh (d : Die) : Nat := skipBad d.bad d.bad.length d.virgin
def Die.freeCount (d : Die) (blocks : Nat) : Nat :=
  blocks - d.virgin - (d.bad.filter fun b => decide (d.virgin ≤ b ∧ b < blocks)).length + d.erased.length

/-- The block with the lowest erase count, and the lowest number among equals (R224). -/
def Die.leastWorn (d : Die) (l : List Nat) : Option Nat :=
  l.foldl (fun acc b => match acc with
    | none => some b
    | some a => if rankLe [mapGet 0 d.wear a, a] [mapGet 0 d.wear b, b] then some a else some b) none

/-- The erased block with the lowest erase count and number. Delta keeps two erased blocks on every die (R249): where no third is erased, the
least-worn released block is erased first (R224). The Bool says whether one was. -/
def Die.pick (d : Die) (blocks : Nat) : Option (Die × Nat × Bool) :=
  let (d, erase) := if 2 < d.freeCount blocks then (d, false) else match d.leastWorn d.released with
    | some b => ({ d with released := d.released.filter (· != b), erased := b :: d.erased, wear := mapUpd 0 d.wear b (· + 1) }, true)
    | none => (d, false)
  if d.freeCount blocks ≤ 2 then none
  else (d.leastWorn ((if d.fresh < blocks then [d.fresh] else []) ++ d.erased)).map fun b =>
    (if b = d.fresh ∧ !(b ∈ d.erased) then { d with virgin := b + 1 } else { d with erased := d.erased.filter (· != b) }, b, erase)

/-- Picks a block on each of the 32 dies of a die index, channel 0 first; answers blocks and erases made. -/
def pickBlocks (blocks : Nat → Nat) (die : Nat) : List Nat → NatMap Die → Option (NatMap Die × List Nat × Nat)
  | [], m => some (m, [], 0)
  | c :: rest, m =>
    match (mapGet {} m (dieKey c die)).pick (blocks c) with
    | none => none
    | some (d, b, e) =>
      (pickBlocks blocks die rest (mapSet m (dieKey c die) d)).map fun (m, l, n) => (m, b :: l, n + b2n e)

/-- Average erase count over all blocks of the dies in use, and the highest. -/
def State.wear (s : State) : Nat × Nat :=
  let blocks := 32 * s.delta.groups * s.delta.blocks
  let all := s.delta.dies.flatMap fun e => e.2.wear.map Prod.snd
  (all.sum / max 1 blocks, all.foldl max 0)

/-- Source 135 when average wear passes 80 % or the maximum passes 100 % of the rating (R261, R263): wear in 0.01 %. -/
def State.wearEvents (s : State) : State :=
  let rating := max 1 ((s.delta.pop.map NandPopulation.rating).getD 0)
  let (avg, top) := s.wear
  let now := b2n (decide (80 * rating < 100 * avg)) + 2 * b2n (decide (rating < top))
  let s' := s.updDelta fun d => { d with wearHigh := d.wearHigh ||| now }
  if now &&& (3 - s.delta.wearHigh % 4) = 0 then s'
  else s'.raise 135 0 0 0x513 (eventData [(2, min 65535 (avg * 10000 / rating)), (2, min 65535 (top * 10000 / rating))])

/-- Opens a segment for a slot in a group, or none: no free segment, no block, or write-paced GC without a released segment
to pay for it (R231). -/
def State.openSegment (s : State) (slot stream group : Nat) (slc : Bool) : Option (State × Nat) :=
  let d := s.delta
  let free := (List.range d.perGroup).map (· + group * d.perGroup) |>.find? fun n => (mapGet? d.segments n).isNone
  let pays := d.writePaced && decide (stream ≤ 2)
  match free with
  | none => none
  | some n =>
    if pays ∧ d.credit = 0 then none
    else
      match pickBlocks (fun c => d.blocks - d.metaShare group c) (d.dieIndex group) (List.range 32) d.dies with
      | none => none
      | some (dies, blocks, erases) =>
        let g : Segment := { group := group, slc := slc, stream := stream, openSeq := s.index.wseq, openStamp := s.col.last, blocks := blocks }
        let s := (s.updDelta fun d => { d with
          dies := dies, erases := d.erases + erases, segments := mapSet d.segments n g, slots := mapSet d.slots slot n
          credit := if pays then d.credit - 1 else d.credit }).metaWrite 16
        some (if erases = 0 then s else s.wearEvents, n)

/-- A segment is closed after its units are padded up to a unit. -/
def State.closeAt (s : State) (n : Nat) (upTo : Segment → Nat) : State :=
  match s.segment? n with
  | none => s
  | some g =>
    (s.updSegment n fun g => { g with filled := upTo g, open_ := false }).updDelta fun d =>
      { d with padUnits := d.padUnits + (upTo g - g.filled), slots := d.slots.filter fun e => e.2 != n }

/-- The end of a segment, and the end of its open row group. -/
def State.fullEnd (s : State) (g : Segment) : Nat := s.delta.capacity g.slc
def State.openEnd (s : State) (g : Segment) : Nat := if g.filled = 0 then 0 else rowEnd (s.delta.kOf g.slc) (g.filled - 1)

/-- The checkpoint segment with room for a number of units in stream 5: the open one, or the next in the next group (R225). -/
def State.ckptSegment (s : State) (units : Nat) : Option (State × Nat) :=
  let open_ (s : State) : Option (State × Nat) := s.openSegment 65 5 (mapGet 0 s.delta.turn 5 % max 1 s.delta.groups) false
  let turn (s : State) : State :=
    s.updDelta fun d => { d with turn := mapSet d.turn 5 ((mapGet 0 d.turn 5 + 1) % max 1 d.groups) }
  match mapGet? s.delta.slots 65 with
  | none => open_ s
  | some n =>
    if (s.segment? n).any fun g => decide (g.filled + units ≤ s.delta.capacity false) then some (s, n)
    else open_ (turn (s.closeAt n s.fullEnd))

/-- The 32 KiB fingerprint filter of a segment of records that closes goes into stream 5 (R257). -/
def State.writeFilter (s : State) (n : Nat) : State :=
  if (s.segment? n).any fun g => decide (g.stream ≤ 3) then
    match s.ckptSegment 128 with
    | none => s
    | some (s, c) => s.updSegment c fun g => { g with filled := g.filled + 128 }
  else s

/-- Closes a segment after padding it to its end (R226). -/
def State.closeSegment (s : State) (n : Nat) : State := (s.closeAt n s.fullEnd).writeFilter n

/-- Closes a segment early: its open units are padded to the end of their row group, and the rest is never filled (R249, R254, R257). -/
def State.closeEarly (s : State) (n : Nat) : State := (s.closeAt n s.openEnd).writeFilter n

/-- A segment is released once every command stamped before `freeAt` has completed (R230). -/
def State.markFree (s : State) (n : Nat) : State :=
  s.updSegment n fun g => { g with freeAt := s.col.last + 1, open_ := false }

/-- Every command stamped before a stamp has completed. -/
def State.allDone (s : State) (st : Stamp) : Bool := s.works.all fun w => w.posted || decide (st ≤ w.stamp)

/-- The blocks of a released segment go to the background erase (R224, R230). -/
def State.reapSegment (s : State) (n : Nat) (g : Segment) : State :=
  let die := s.delta.dieIndex g.group
  let dies := (g.blocks.zipIdx.filter fun e => !(e.2 ∈ g.bad)).foldl (fun m (b, c) =>
    mapUpd {} m (dieKey c die) fun d => { d with released := b :: d.released }) s.delta.dies
  let gc := s.delta.writePaced && decide (1 ≤ g.stream ∧ g.stream ≤ 3)
  s.updDelta fun d => { d with dies := dies, segments := mapErase d.segments n, credit := d.credit + b2n gc,
                               slots := d.slots.filter fun e => e.2 != n }

/-- Takes every segment whose release is due. -/
def State.reap (s : State) : State :=
  (s.delta.segments.filter fun e => e.2.freeAt != 0 && s.allDone e.2.freeAt && e.2.handles.isEmpty).foldl
    (fun s e => s.reapSegment e.1 e.2) s

/-! ## Placement (R226) -/

/-- Data pages that a record newly fills in a segment. -/
def newPages (g : Segment) (unit units : Nat) : List Nat :=
  (List.range (ceilDiv (unit + units) 64 - unit / 64)).map (· + unit / 64) |>.filter fun p =>
    (g.handles.all fun h => h.1 != p) && !(p ∈ g.want)

/-- The open segment slot of a segment (R225), which is its number as a buffer owner (R187). -/
def Segment.slot (g : Segment) : Nat := if g.stream < 4 then 16 * g.stream + g.group else 60 + g.stream
def Segment.owner (g : Segment) : OwnerTag := { cls := 4, number := g.slot }

/-- A segment that waits for page buffers asks for the first of them, one request at a time (R191). -/
def State.askPage (s : State) (n : Nat) : State :=
  match s.segment? n with
  | none => s
  | some g => if g.asked ∨ g.want = [] then s else (s.updSegment n fun g => { g with asked := true }).arrive (.pageRequest n)

/-- A segment's first waiting page gets its buffer (R227). -/
def State.addPage (s : State) (n : Nat) (h : Handle) : State :=
  match s.segment? n with
  | none => s
  | some g =>
    match g.want with
    | [] => s.presentRelease h g.owner 0
    | p :: rest => (s.updSegment n fun g => { g with handles := g.handles ++ [(p, h)], want := rest, asked := false }).askPage n

/-- A page request at its stamp (R190, R191). -/
def State.pageRequestApply (s : State) (n : Nat) (st : Stamp) : State :=
  match s.segment? n with
  | none => s
  | some g =>
    match s.request 6 g.owner st (.page n) with
    | (s, some h) => s.addPage n h
    | (s, none) => s

/-- A record's pages all have their buffers. -/
def State.covered (s : State) (l : Loc) (units : Nat) : Bool :=
  match s.segment? l.segment with
  | none => true
  | some g => g.want.all fun p => decide (p < l.unit / 64 ∨ l.unit + units ≤ 64 * p)

/-- Units placed at the end of a segment are the first of their last program unit (R227). -/
def Segment.begins (g : Segment) (k units : Nat) : Bool :=
  g.filled = 0 || decide (progEnd k (g.filled - 1) < progEnd k (g.filled + units - 1))

/-- Puts units at the end of a segment, whose new pages ask for their buffers. -/
def State.placeIn (s : State) (n units : Nat) (rec : Loc → Option Placed) : Option (State × Loc) :=
  match s.segment? n with
  | none => none
  | some g =>
    let pages := newPages g g.filled units
    let l : Loc := { segment := n, unit := g.filled }
    let s := (s.updSegment n fun g =>
      { g with filled := g.filled + units, want := g.want ++ pages, recs := g.recs ++ (rec l).toList
               lastRec := s.grain, placedAt := if g.begins (s.delta.kOf g.slc) units then s.localUs else g.placedAt }).askPage n
    some (if s.delta.capacity g.slc < g.filled + units + 64 then s.closeSegment n else s, l)

/-- The group whose turn it is takes the record, or the next open segment with room, or a segment opened for it. -/
def State.placeStream (s : State) (stream units : Nat) (rec : Loc → Option Placed) : Option (State × Loc) :=
  let d := s.delta
  let slc := stream = 0
  let turn := mapGet 0 d.turn stream % max 1 d.groups
  let order := (List.range d.groups).map fun i => (turn + i) % d.groups
  let fits (g : Nat) : Option Nat := (mapGet? d.slots (16 * stream + g)).bind fun n =>
    (s.segment? n).bind fun x => if x.filled + units ≤ d.capacity x.slc then some n else none
  let take (s : State) (g n : Nat) : Option (State × Loc) :=
    (s.placeIn n units rec).map fun (s, l) =>
      (s.updDelta fun d => { d with turn := mapSet d.turn stream ((g + 1) % d.groups) }, l)
  let fresh (s : State) : Option (State × Loc) :=
    (s.openSegment (16 * stream + turn) stream turn slc).bind fun (s, n) => take s turn n
  if d.groups = 0 ∨ d.capacity slc < units then none
  else if (mapGet? d.slots (16 * stream + turn)).isNone ∧ (stream ≠ 0 ∨ s.slcAllowed) ∧
      (s.openSegment (16 * stream + turn) stream turn slc).isSome then fresh s
  else
    match order.find? fun g => (fits g).isSome with
    | some g => (fits g).bind fun n => take s g n
    | none =>
      if stream = 0 ∧ !s.slcAllowed then none
      else match mapGet? d.slots (16 * stream + turn) with
        | some n => fresh (s.closeSegment n)
        | none => fresh s

/-- A write's placement by its hint (R226). -/
def State.placeWrite (s : State) (cold : Bool) (units : Nat) (rec : Loc → Option Placed) : Option (State × Loc) :=
  if cold then s.placeStream 2 units rec
  else (s.placeStream 0 units rec).orElse fun _ => s.placeStream 1 units rec

/-! ## Programs (R227) -/

/-- The parity pages of a segment's next row group are to be programmed: its data pages are (R227). -/
def Segment.parityDue (g : Segment) (k : Nat) : Bool := decide (g.par < g.done) && decide (rowEnd k g.par ≤ g.done)

/-- A segment has a program to do: a parity program, or a program unit whose pages are filled, or padded, and all have their
buffers. -/
def Segment.ready (g : Segment) (k : Nat) : Bool :=
  g.parityDue k ||
  (decide (g.done < g.filled) && decide (progEnd k g.done ≤ g.filled) && g.want.all fun p => decide (progEnd k g.done ≤ 64 * p))

/-- A forced program of a segment's partly filled program unit: padded, to be programmed (R227). -/
def State.forceSegment (s : State) (n : Nat) : State :=
  match s.segment? n with
  | none => s
  | some g =>
    let e := progEnd (s.delta.kOf g.slc) (g.filled - 1)
    if g.filled = 0 ∨ e ≤ g.filled ∨ g.done = g.filled then s
    else
      (s.updSegment n fun g => { g with filled := e, forced := e, forcedSeq := s.index.wseq }).updDelta fun d =>
        { d with forcedCount := inc64 d.forcedCount, padUnits := d.padUnits + (e - g.filled) }

/-- Forces every open segment that a test selects. -/
def State.forceWhere (s : State) (p : Nat → Segment → Bool) : State :=
  (s.delta.segments.filter fun e => e.2.open_ && p e.1 e.2).foldl (fun s e => s.forceSegment e.1) s

/-- Forces every open segment and the journal page in the buffer. -/
def State.forceAll (s : State) : State :=
  (s.forceWhere fun _ _ => true).updDelta fun d => { d with jForced := !d.journal.isEmpty }

/-- The die that a segment's next program occupies (R219, R239). -/
def State.programDie (s : State) (n : Nat) (g : Segment) : Nat :=
  let k := s.delta.kOf g.slc
  dieKey (if g.parityDue k then parityChannel n k g.par else (unitPlace n k g.done).1) (s.delta.dieIndex g.group)

/-- A die is free again. -/
def State.freeDie (s : State) (key : Nat) : State := s.updDelta fun d => { d with running := mapErase d.running key }

/-- The dies that run a program of a slot: die key and segment. -/
def State.runningPrograms (s : State) (slot : Nat) : List (Nat × Nat × Segment) :=
  s.delta.running.filterMap fun e => match e.2 with
    | .program n => (s.segment? n).bind fun g => if g.slot = slot then some (e.1, n, g) else none
    | _ => none

/-- The program of a slot that ends: of those that dies run, the one of the segment opened first. -/
def State.nextProgram (s : State) (slot : Nat) : Option (Nat × Nat × Segment) :=
  (s.runningPrograms slot).foldl (fun acc e => match acc with
    | none => some e
    | some a => if e.2.2.openSeq < a.2.2.openSeq then some e else some a) none

/-- Every command stamped before a stamp has completed, but for writes that wait for a page buffer: DEDUCED (log entry 115), since such a
write would wait for the buffers that wait for it. -/
def State.allButPlacing (s : State) (st : Stamp) : Bool :=
  s.works.all fun w => w.posted || decide (st ≤ w.stamp) || (w.phase = .media && decide (0x10 ≤ w.desc.opcode.toNat ∧ w.desc.opcode.toNat ≤ 0x15))

/-- Buffers of completed row groups go back once every command stamped before the completion has completed (R227). -/
def State.releasePages (s : State) : State :=
  s.delta.segments.foldl (fun s (n, g) =>
    match g.rel.filter fun r => s.allButPlacing r.1 with
    | [] => s
    | l =>
      let upTo := (l.map Prod.snd).foldl max 0
      let s := s.updSegment n fun g => { g with rel := g.rel.filter (fun r => !(r ∈ l)), handles := g.handles.filter fun h => upTo ≤ h.1 }
      s.queueRelease ((g.handles.filter fun h => h.1 < upTo).map Prod.snd) g.owner 0) s

/-- The next program of a segment is done (R227): a program unit, or the parity pages that complete a row group. -/
def State.programUnit (s : State) (n : Nat) (g : Segment) (st : Stamp) : State :=
  let k := s.delta.kOf g.slc
  if g.parityDue k then
    let row := rowEnd k g.par
    let (s, q) := s.takeSeq (max 1 (if g.par = 0 then k - 1 else k))
    s.updSegment n fun g => { g with par := row, rel := g.rel ++ [(st, row / 64)], seqs := g.seqs ++ [(g.par, true, q)] }
  else
    let e := progEnd k g.done
    let (s, q) := s.takeSeq ((e - g.done) / 64)
    s.updSegment n fun g => { g with done := e, seqs := g.seqs ++ [(g.done, false, q)] }

/-! ## Journal (R232, R250) -/

/-- A journal entry lands in the buffer, when there is room for `n`. -/
def State.journalRoom (s : State) (n : Nat) : Bool := decide (s.delta.journal.length + n ≤ Config.journalBuffer)
def State.journalPut (s : State) (l : List JEntry) : State := s.updDelta fun d => { d with journal := d.journal ++ l }

/-- Entries of the next journal page: at most 512, no BATCH group split (R232). -/
def journalTake (room : Nat) : Nat → List JEntry → List JEntry
  | 0, _ => []
  | _, [] => []
  | fuel + 1, j :: rest =>
    let group := j :: rest.take (j.count - 1 - j.index)
    if room < group.length then []
    else group ++ journalTake (room - group.length) fuel (rest.drop (group.length - 1))

/-- The next journal page, where one is full or forced (R232). -/
def State.journalNext (s : State) : List JEntry :=
  if s.delta.journal.length < Config.journalPage ∧ !s.delta.jForced then []
  else journalTake Config.journalPage Config.journalPage s.delta.journal

/-- The open journal segment, opened where none is. -/
def State.journalOpen (s : State) : Option (State × Nat) :=
  match mapGet? s.delta.slots 64 with
  | some n => some (s, n)
  | none => s.openSegment 64 4 (mapGet 0 s.delta.turn 4 % max 1 s.delta.groups) true

/-- The die that the next journal page occupies. -/
def State.journalDie (s : State) : Option Nat :=
  s.journalOpen.bind fun (s, n) => (s.segment? n).map fun g => dieKey (unitPlace n 1 g.filled).1 (s.delta.dieIndex g.group)

/-- A journal page is programmed in slot 64 (R232), assembled from the journal buffer. -/
def State.programJournal (s : State) : State :=
  let page := s.journalNext
  if page = [] then s
  else
    match s.journalOpen with
    | none => s
    | some (s, n) =>
      let (s, q) := s.takeSeq 1
      let s := s.updSegment n fun g => { g with
        jpages := g.jpages ++ [page], seqs := g.seqs ++ [(g.done, false, q)]
        filled := g.filled + 64, done := g.done + 64, par := g.done + 64, high := max g.high ((page.map JEntry.wseq).foldl max 0) }
      let rest := s.delta.journal.drop page.length
      let s := s.updDelta fun d => { d with journal := rest, jPages := d.jPages + 1, jForced := d.jForced && !rest.isEmpty }
      let left := (s.segment? n).map fun g => s.delta.capacity true - g.filled
      if left.any (· < 64 * 1024) then
        let s := s.updDelta fun d => { d with turn := mapSet d.turn 4 ((mapGet 0 d.turn 4 + 1) % max 1 d.groups) }
        s.closeEarly n
      else s

/-- A write's journal entries are on flash. -/
def State.journaled (s : State) (seqs : List Nat) : Bool := !(s.delta.journal.any fun j => j.wseq ∈ seqs)

/-- The lowest W of the checkpoint catalogue (R233); 0 while a slice has no image in it. -/
def State.lowestW (s : State) : Nat := if s.index.ckptW.length < 240 then 0 else (s.index.ckptW.map Prod.snd).foldl min (2 ^ 64)

/-- Journal segments whose entries lie below the lowest catalogue W are released (R232). -/
def State.releaseJournal (s : State) : State :=
  if s.index.ckptW.length < 240 then s
  else
    let w := s.lowestW
    (s.delta.segments.filter fun e => e.2.stream = 4 && !e.2.open_ && e.2.freeAt = 0 && decide (e.2.high < w)).foldl
      (fun s e => s.markFree e.1) s

/-! ## Locations -/

/-- Every holder of a location takes another: versions of the key, and commands in flight (R66, R254). -/
def State.relocate (s : State) (ns : Nat) (key : Bytes) (old new : Loc) : State :=
  let mv (l : Option Loc) : Option Loc := if l = some old then some new else l
  let s := s.updIndex fun i =>
    { i with keys := i.keys.map fun k => if k.ns = ns ∧ k.key = key then
      { k with versions := k.versions.map fun v => { v with loc := mv v.loc } } else k }
  s.updWorks fun ws => ws.map fun w => if w.desc.ns.toNat = ns then
    { w with items := w.items.map fun i => if i.key = key then { i with loc := mv i.loc } else i } else w

/-- A placed record is live (R230): the index holds it at this location, not secure-deleted (R257). -/
def State.live (s : State) (p : Placed) (seg : Nat) : Bool :=
  (s.chain p.ns p.key).any fun v => v.loc = some { segment := seg, unit := p.unit } && v.secured = 0

/-- Live bytes of a segment, in whole units. -/
def State.liveBytes (s : State) (n : Nat) (g : Segment) : Nat := ((g.recs.filter fun p => s.live p n).map fun p => p.units * 256).sum

/-- Bytes of records that the index holds. -/
def State.liveTotal (s : State) : Nat := (s.delta.segments.map fun e => s.liveBytes e.1 e.2).sum

end Sys2Proof.Machine
end

