-- ==== Sys2Proof/Machine/Works.lean ====
section
/-! DEFINITION. Commands in flight: how a completion leaves (R78, R88, R111, R146), what a reset, an ABORT or a timeout does
to a command (R34, R35, R93, R118, R119), and what waits for other commands to end. -/

namespace Sys2Proof

/-- Number under which a carrier's completions are counted and its buffers are owned: the queue context, or 4,096 +
function for an admin ring (R187, R397); the management path has none. -/
def Carrier.number : Carrier → Option Nat
  | .ring c => some c
  | .wire n _ => some n
  | .admin f => some (4096 + f)
  | .mgmt => none

/-- The queue context of a carrier. -/
def Carrier.context : Carrier → Option Nat
  | .ring c => some c
  | .wire n _ => some n
  | _ => none

/-- Owner tag of a stamped command (R187); the control cores hold the management path's. -/
def Carrier.owner (c : Carrier) : OwnerTag :=
  match c.number with
  | some n => { cls := 2, number := n }
  | none => { cls := 5, number := 0 }

/-- The record of a submission at its stamp. -/
def Submission.work (c : Submission) (fn stamp : Nat) (phase : Machine.Phase) : Machine.Work :=
  { stamp := stamp, carrier := c.carrier, fn := fn, desc := c.desc, area := c.area, phase := phase }

/-- Peer kind of a pair message (R311). -/
def Descriptor.peerKind (d : Descriptor) : Nat := d.param 0x32 1

end Sys2Proof

namespace Sys2Proof.Machine

/-! ## Carriers and works -/

/-- A command in flight, by its stamp. -/
def State.work? (s : State) (st : Stamp) : Option Work := s.works.find? fun w => w.stamp = st

/-- A command in flight changed. -/
def State.updWork (s : State) (st : Stamp) (f : Work → Work) : State :=
  s.updWorks fun ws => ws.map fun w => if w.stamp = st then f w else w

/-- A command enters, in stamp order. -/
def State.addWork (s : State) (w : Work) : State := s.updWorks (insertBy (fun a b => decide (a.stamp ≤ b.stamp)) w)

/-- A command leaves. -/
def State.dropWork (s : State) (st : Stamp) : State := s.updWorks fun ws => ws.filter fun w => w.stamp != st

/-- The submission of a command in flight. -/
def Work.sub (w : Work) : Submission := { carrier := w.carrier, desc := w.desc, area := w.area }

/-- Opcode of a command in flight. -/
def Work.op (w : Work) : Nat := w.desc.opcode.toNat

/-- Opcode groups (R31, R77). -/
def isWriteOp (op : Nat) : Bool := decide (0x10 ≤ op ∧ op ≤ 0x15)
def isReadOp (op : Nat) : Bool := decide (1 ≤ op ∧ op ≤ 4)
def isDataOp (op : Nat) : Bool := isWriteOp op || isReadOp op || decide (0x20 ≤ op ∧ op ≤ 0x22)
def adminOps : List Nat :=
  [0x80, 0x81, 0x82, 0x88, 0x89, 0x90, 0x91, 0x98, 0x99, 0xA0, 0xA1, 0xA2, 0xA3, 0xA4, 0xA5, 0xA8, 0xA9, 0xB0, 0xB1, 0xB2, 0xB3,
   0xB8, 0xB9, 0xBA, 0xBB, 0xC0, 0xC1, 0xC2]
def isAdminOp (op : Nat) : Bool := adminOps.contains op

/-- A response of a session is not yet sent whole: its command completes with the LAST segment (R140). -/
def State.answering (s : State) (p : Nat → Response → Bool) : Bool := s.wire.sessions.any fun e => e.2.responses.any (p e.1)

/-- A command of a context is outstanding with a lower stamp (R88). -/
def State.openBefore (s : State) (ctx st : Nat) : Bool :=
  (s.works.any fun w => w.carrier.context = some ctx && !w.posted && decide (w.stamp < st)) ||
  s.answering fun n r => n = ctx && decide (r.stamp < st)

/-- An arrival of a host ring or of a wire session. -/
def Event.ofHost : Event → Bool
  | .cmd a => a.c.carrier != .mgmt
  | _ => false

/-- Any command is outstanding on a host ring or a wire session (R123). -/
def State.outstanding (s : State) : Bool :=
  (s.works.any fun w => !w.posted && w.carrier != .mgmt) || (s.host.rings.any fun r => r.2.fetched != 0) ||
  (s.host.fns.any fun f => f.2.admin.fetched != 0) || (s.col.intake ++ s.col.carry).any Event.ofHost ||
  s.answering fun _ _ => true

/-! ## Sessions' record of completed requests (R140, R142) -/

/-- The session changed. -/
def State.updSession (s : State) (n : Nat) (f : Session → Session) : State :=
  s.updWire fun w => { w with sessions := w.sessions.map fun e => if e.1 = n then (e.1, f e.2) else e }

/-- A session, where its number is not FREE. -/
def State.session? (s : State) (n : Nat) : Option Session := mapGet? s.wire.sessions n

/-! ## Places (R31, R32) -/

/-- Place of a carrier among the queue contexts: admin rings after the 4,096 contexts, then the management path. -/
def carrierRank (c : Carrier) : Nat := c.number.getD 4200

/-- Position of a request on its session, in 32-bit serial-number arithmetic around the highest sequence (R32). -/
def State.wirePos (s : State) (n : Nat) (q : BitVec 32) : Nat :=
  (q - ((s.session? n).map Session.highest).getD 0 + 2147483648#32).toNat

/-- Position of a command: on its ring, or of its sequence. -/
def State.position (s : State) (c : Carrier) (pos : Nat) : Nat :=
  match c with
  | .wire n q => s.wirePos n q
  | _ => pos

/-- Advances the lowest sequence not completed over those completed beyond it (R140). -/
def advanceSeq : Nat → BitVec 32 → List (BitVec 32) → BitVec 32 × List (BitVec 32)
  | 0, l, d => (l, d)
  | n + 1, l, d => if l ∈ d then advanceSeq n (l + 1) (d.filter (· != l)) else (l, d)

/-- A request's sequence counts as completed (R140). -/
def Session.complete (x : Session) (seq : BitVec 32) : Session :=
  let d := if seq ∈ x.finished then x.finished else seq :: x.finished
  let (l, d) := advanceSeq (d.length + 1) x.lowest d
  { x with lowest := l, finished := d }

/-- The completion kept for a replay (R142). -/
def Session.keep (x : Session) (seq : BitVec 32) (c : Completion) : Session :=
  { x with seen := x.seen.map fun e => if e.seqNo = seq then { e with done := some c } else e }

/-! ## Mirror pairs: what a completion means to them (R312, R313) -/

/-- The target pair whose peer session a carrier is (R311). -/
def State.peerPair (s : State) : Carrier → Option Pair
  | .wire n _ => s.cluster.pairs.find? fun p => p.target && p.session = n
  | _ => none

/-- A pair changed. -/
def State.updPair (s : State) (number : Nat) (f : Pair → Pair) : State :=
  s.updCluster fun c => { c with pairs := c.pairs.map fun p => if p.number = number then f p else p }

/-- A pair mirrors: its slices include a fingerprint's, and it is past its start and not UNCERTAIN. -/
def Pair.mirrors (p : Pair) (fp : BitVec 64) : Bool :=
  !p.target && p.state != .uncertain && p.slices.contains (sliceOf fp)

/-- Descriptor of a pair message (R311): its key, if any, follows the descriptor, and its value or item area the key. -/
def pairDesc (op ns keyLen valLen aux arg kind crc peerStamp : Nat) : Descriptor :=
  { opcode := BitVec.ofNat 8 op, flags := 0, tag := 0, ns := BitVec.ofNat 16 ns, keyLen := BitVec.ofNat 16 keyLen
    valLen := BitVec.ofNat 32 valLen, timeout := 0, aux := BitVec.ofNat 16 aux, stampArg := BitVec.ofNat 64 arg
    valAddr := BitVec.ofNat 64 (64 + keyLen)
    keyField := BitVec.ofNat 256 ((if keyLen = 0 then 0 else 64) + kind * 2 ^ 144 + crc * 2 ^ 160 + peerStamp * 2 ^ 192) }

/-- An item of a write as an APPLY carries it (R313): opcode, value and argument. A TOUCH goes as the value it re-times. -/
def State.applyItem (s : State) (w : Work) (i : Item) : Nat × Bytes × Nat :=
  if i.opcode = 0x12 ∨ i.opcode = 0x13 then (i.opcode, [], 0)
  else if i.opcode = 0x15 then
    (0x10, (((s.chain w.desc.ns.toNat i.key).find? fun v => v.stamp = w.bound ∨ v.stamp = i.prev).map Version.value).getD [], i.arg)
  else (0x10, i.value, 0)

/-- Item area of an APPLY's BATCH: the headers, then each item's key and value in order. -/
def batchArea (l : List (Bytes × Nat × Bytes × Nat)) : Bytes :=
  let put (acc : Bytes × Bytes) (x : Bytes × Nat × Bytes × Nat) : Bytes × Bytes :=
    let (key, op, value, arg) := x
    let off := 32 * l.length + acc.2.length
    (acc.1 ++ leBytes 1 op ++ zeros 1 ++ leBytes 2 key.length ++ leBytes 4 value.length ++ leBytes 8 arg ++ leBytes 4 off ++
       leBytes 4 (off + key.length) ++ zeros 8, acc.2 ++ key ++ value)
  let (h, b) := l.foldl put ([], [])
  h ++ b

/-- The APPLY that carries a write (R313). -/
def State.applyMsg (s : State) (w : Work) : PeerMsg :=
  let ns := w.desc.ns.toNat
  if w.op = 0x14 then
    let area := batchArea (w.items.map fun i => (i.key, s.applyItem w i))
    { kind := 1, seqNo := 0, desc := pairDesc 0x14 ns 0 area.length w.items.length 0 1 0 w.stamp, area := area, origin := w.stamp }
  else
    let i := w.items.headD default
    let (op, value, arg) := s.applyItem w i
    { kind := 1, seqNo := 0, desc := pairDesc op ns i.key.length value.length 0 arg 1 0 w.stamp, area := i.key ++ value, origin := w.stamp }

/-- The COMPARE that carries a read's result (R313). -/
def compareMsg (w : Work) (r : Result) : PeerMsg :=
  { kind := 2, seqNo := 0, origin := w.stamp, area := w.key
    desc := pairDesc 0x02 w.desc.ns.toNat w.key.length w.desc.valLen.toNat 0 (w.stamp - 1) 2
      (if r.status = .success then (crc32c w.data).toNat else 0) r.version }

/-- A completion is mirrored on the source side: a write's APPLY, a sampled read's COMPARE (R313). -/
def State.mirror (s : State) (w : Work) (r : Result) : State :=
  if isWriteOp w.op ∧ r.status = .success ∧ !w.applied then
    s.cluster.pairs.foldl (fun s p =>
      if p.t0 ≤ w.stamp ∧ (w.items.any fun i => p.mirrors i.fp) then
        s.updPair p.number fun p => { p with toSend := p.toSend ++ [s.applyMsg w] }
      else s) s
  else if (w.op = 1 ∨ w.op = 2) ∧ (r.status = .success ∨ r.status = .notFound) then
    s.cluster.pairs.foldl (fun s p =>
      if p.state = .comparing ∧ p.mirrors w.fp then
        s.updPair p.number fun p =>
          { p with reads := p.reads + 1, toSend := if (p.reads + 1) % 2 ^ p.sample = 0 then p.toSend ++ [compareMsg w r] else p.toSend }
      else s) s
  else s

/-- What the target's side makes of a pair message's outcome (R312, R313): an APPLY counts or fails the pair; a COMPARE answers
whether status, version stamp and value CRC agree, and returns no data. -/
def State.pairResult (s : State) (w : Work) (r : Result) : State × Work × Result :=
  match s.peerPair w.carrier with
  | none => (s, w, r)
  | some p =>
    let kind := w.desc.peerKind
    if kind = 1 ∧ isWriteOp w.op then
      if r.status = .success then
        (s.updPair p.number fun p => { p with
           applied := inc64 p.applied, copies := p.copies ++ w.items.map fun i => (w.desc.ns.toNat, i.fp, w.bound) }, w, r)
      else (s.updPair p.number fun p => { p with failed := p.failed.orElse fun _ => some 3 }, w, r)
    else if kind = 2 ∧ w.op = 0x02 then
      let st := w.desc.param 0x38 8
      let crc := w.desc.param 0x34 4
      let same := if st = 0 then r.status = .notFound else r.status = .success ∧ r.version = st ∧ (crc32c w.data).toNat = crc
      let s := if same then s
        else (s.updPair p.number fun p => { p with mismatches := inc64 p.mismatches }).raise 198 0 st 0x802
          (BitVec.ofNat 128 (w.fp.toNat + r.version * 2 ^ 64))
      (s, { w with data := [] }, { status := .success, commit := r.commit, detail := b2n (!same) })
    else (s, w, r)

/-- A write on a listed slice waits while 65,536 APPLYs of the pair are not acknowledged (R313). -/
def State.mirrorFull (s : State) (w : Work) : Bool :=
  s.cluster.pairs.any fun p => (w.items.any fun i => p.mirrors i.fp) &&
    decide (Config.maxWaitingApplies ≤ (p.waiting.filter fun m => m.kind = 1 && !m.acked).length + p.toSend.length)

/-! ## Completion -/

/-- An admin ring that closes is down once its last command has ended (R107). -/
def State.admClosed (s : State) (f : Nat) : State :=
  if (s.fn f).admClosing && !(s.works.any fun w => w.carrier = .admin f) &&
      !((s.col.intake ++ s.col.carry).any (Event.ofAdmin f)) then
    s.updFn f fun x => { x with admClosing := false, admReady := false }
  else s

/-- Buffers that a command holds, and their release at its position. -/
def Work.buffers (w : Work) : List Handle := w.handles ++ w.buf.toList
def State.releaseOf (s : State) (w : Work) (hs : List Handle) : State := s.queueRelease hs w.carrier.owner (s.position w.carrier w.pos)

/-- The response of a command on its session. Where a read's data have begun to leave it takes the decided result; a failure ends it at
once (R147): after a tag failure behind the whole segments of what was released before it (R295). -/
def Session.respond (x : Session) (q : BitVec 32) (w : Work) (r : Result) : Session :=
  if x.responses.any fun k => k.seqNo = q then
    { x with responses := x.responses.map fun k => if k.seqNo = q then
        { k with growing := false, result := r, handles := w.buffers,
                 data := if r.status = .success then w.data
                         else k.data.take (if r.status = .tagFailed then k.data.length / x.seg * x.seg else k.next * x.seg) } else k }
  else { x with responses := x.responses ++ [
    { seqNo := q, tag := w.desc.tag, stamp := w.stamp, data := w.data, result := r,
      streamed := (w.op = 0x03 || w.op = 0x04 || isAdminOp w.op) && !w.data.isEmpty, urgent := w.desc.urgent,
      planned := if w.op ≤ 2 then min r.length w.desc.valLen.toNat else w.data.length, handles := w.buffers }] }

/-- A command ends: its buffers go back, it leaves every wait list, and its completion is posted on its ring, queued as a
response of its session (whose LAST segment completes it), or sent on the management path. A host completion that a reset drops is counted and not posted
(R119, R397); a dropped admin completion vanishes (R107). -/
def State.deliver (s : State) (w : Work) (r : Result) : State :=
  let (s, w, r) := s.pairResult w r
  let s := s.mirror w r
  let s := if r.status = .moved then s.updCluster fun c => { c with moved := inc64 c.moved } else s
  let s := (s.leaveWait w.stamp).dropWork w.stamp
  let c : Completion := { tag := w.desc.tag, head := 0, phase := false, result := r }
  match w.carrier with
  | .ring n =>
    let s := (s.releaseOf w w.buffers).countStatus n r.status
    if w.dropped then s.emit (.dropped c) else s.postRing (.data n) w.fn w.desc.tag r
  | .admin f =>
    let s := s.releaseOf w w.buffers
    (if w.dropped || w.muted then s else (s.countStatus (4096 + f) r.status).postRing (.admin f) f w.desc.tag r).admClosed f
  | .wire n q =>
    match s.session? n with
    | none => (s.releaseOf w w.buffers).emit (.dropped c)
    | some _ => s.updSession n fun x => x.respond q w r
  | .mgmt =>
    let s := s.releaseOf w w.buffers
    (s.updHost fun h => { h with total := bump h.total r.status.index }).emit (.mgmtCompletion c w.data)

/-- A command that ends without having entered: refused or answered at its stamp. -/
def State.answer (s : State) (w : Work) (st : Status) (detail : Nat) : State :=
  s.deliver w { status := st, commit := w.stamp, detail := detail }

/-- A refusal that is never placed in the order: mode and time (R79). -/
def State.answerUnstamped (s : State) (w : Work) (st : Status) (detail : Nat) : State :=
  s.deliver w { status := st, commit := 0, detail := detail }

/-- A write's charge leaves the quota count (R47). -/
def State.uncharge (s : State) (w : Work) : State :=
  let c := (w.items.map Item.charge).sum
  if c = 0 then s else s.updSpace w.desc.ns.toNat fun n => { n with charged := n.charged - c }

/-- A failed or caught command ends without effect: it leaves the gate, and no version comes of it (R93, R210). -/
def State.endWithout (s : State) (w : Work) (r : Result) : State :=
  let s := s.uncharge w
  let s := if isWriteOp w.op then s.gateLeave w.stamp else s
  s.deliver { w with data := [] } r

/-- A command fails at its stamp's order with a status and detail. -/
def State.failWork (s : State) (w : Work) (f : Fail) : State :=
  s.endWithout w { status := f.1, commit := w.stamp, detail := f.2 }

/-! ## Catching (R34, R35, R90, R93) -/

/-- A command that a reset, a close or its timeout can catch (R93): a data command before its point of no return; a FLUSH at any
time before it completes. -/
def Work.catchable (w : Work) : Bool := isDataOp w.op && !w.ponr && !w.posted

/-- A command that an ABORT can catch: never an ABORT, a NOP or an admin command (R90). -/
def Work.abortable (w : Work) : Bool := w.catchable && w.op != 0x21 && w.op != 0x22

/-- Waiting in the sense of R34: for an ORDERED predecessor, at the gate, for a buffer, for an internal completion (the first byte's
release among them), or for a cipher pair while every pair is fenced (R283). A command that an exit from a power state delays counts as
executing (R124). -/
def State.waits (s : State) (w : Work) : Bool :=
  !w.exit && (match w.phase with
    | .ordered | .gate | .buffer | .media | .journal | .flush | .release => true
    | .cipher => s.pairs.isEmpty
    | _ => false)

/-- A caught command ends with a status. -/
def State.catchWork (s : State) (w : Work) (st : Status) : State := s.failWork w (st, 0)

/-- A command's timeout at its stamp (R34). -/
def State.timeoutApply (s : State) (id : Stamp) : State :=
  match s.work? id with
  | none => s
  | some w => if w.catchable ∧ s.waits w then s.catchWork w .timedOut else s

/-- ABORT at its stamp (R90): what it reports in its detail, with the target caught. -/
def State.abortApply (s : State) (ctx tag st : Nat) : State × Nat :=
  match s.works.find? fun w => w.carrier.context = some ctx && !w.posted && w.desc.tag.toNat = tag && decide (w.stamp < st) with
  | none => (s, if s.answering fun n r => n = ctx && r.tag.toNat = tag && decide (r.stamp < st) then 0 else 2)
  | some w => if w.abortable then (s.catchWork w .aborted, 1) else (s, 0)

/-- The commands of a context stamped below a reset are decided (R93, R118): caught, or left to run on. -/
def State.resetContext (s : State) (ctx st : Nat) : State :=
  (s.works.filter fun w => w.carrier.context = some ctx && w.catchable && decide (w.stamp < st)).foldl
    (fun s w => s.catchWork w .queueReset) s

/-- Ring state at a reset's stamp (R118): entries not fetched are discarded, FAULTED clears, fetching resumes at the tail. -/
def State.resetRing (s : State) (ctx : Nat) : State :=
  s.updRing ctx fun r =>
    { r with discard := r.fetch, resume := r.tail, fetch := r.tail, faulted := false, held := false }

/-- A context's commands below a stamp have all posted. -/
def State.contextQuiet (s : State) (ctx st : Nat) : Bool := !s.openBefore ctx st

/-- A context's binding to a host ring is freed (R95, R119). -/
def State.freeRing (s : State) (ctx : Nat) : State := s.updHost fun h => { h with rings := mapErase h.rings ctx }

/-! ## Function resets (R119, R120) -/

/-- Commands of a function's data rings at a function-level reset: those caught end without effect and without completion,
the others keep their effect, and their completion is dropped. Answers how many of each. -/
def State.flrCommands (s : State) (f : Nat) : State × Nat × Nat :=
  let own (w : Work) : Bool := w.fn = f && !w.posted && (match w.carrier with | .ring _ => true | _ => false)
  let caught := s.works.filter fun w => own w && w.catchable
  let kept := s.works.filter fun w => own w && !w.catchable
  let s := caught.foldl (fun s w => s.catchWork { w with dropped := true } .queueReset) (s.muteArrivals f true)
  let s := s.updWorks fun ws => ws.map fun w =>
    if own w ∨ w.carrier = .admin f then { w with dropped := true } else w
  (s, caught.length, kept.length)

/-- The function's rings are freed, and its page and MSI-X table return to their reset values. KEK and nonce stay (R284), and so do
mask and routes (R379). -/
def State.flrRegisters (s : State) (f : Nat) : State :=
  let rings := s.host.rings.filter fun r => r.2.fn != f
  let s := s.updHost fun h => { h with rings := rings }
  s.updFn f fun x => { pci := x.pci, kek := x.kek, kekVersion := x.kekVersion, nonce := x.nonce }

/-- A function-level reset of one function at its stamp. -/
def State.flrOne (s : State) (f : Nat) : State × Nat × Nat :=
  let (s, a, b) := s.flrCommands f
  (s.flrRegisters f, a, b)

/-! ## What waits for other commands -/

/-- The version kind that an item creates. -/
def Item.kind (i : Item) : Kind := if i.opcode = 0x12 ∨ i.opcode = 0x13 then .tombstone else if i.opcode = 0x15 then .touch else .value

/-- Value bytes that an item's record holds. -/
def Item.bytes (i : Item) : Nat := if i.kind = .value then i.value.length else 0

/-- A write is on flash, or has ended without effect (R91). -/
def State.writeDone (s : State) (w : Work) : Bool :=
  w.ponr && (w.items.all fun i => i.loc.all fun l =>
    s.programmed l (recordUnits i.key.length i.bytes)) &&
  s.journaled (w.items.map Item.wseq)

/-- Versions of a namespace (0: of all) below a stamp whose record, or its journal entry, is not programmed yet. -/
def State.unprogrammed (s : State) (ns st : Nat) : Bool :=
  s.index.keys.any fun k => (ns = 0 || k.ns = ns) && k.versions.any fun v =>
    decide (v.stamp < st) &&
    (!(v.loc.all fun l => s.programmed l (recordUnits k.key.length v.value.length)) ||
     !s.journaled [v.wseq])

/-- A FLUSH may complete (R91). -/
def State.flushDone (s : State) (ns st : Nat) : Bool :=
  (s.works.all fun w => !(isWriteOp w.op && decide (w.stamp < st) && (ns = 0 || w.desc.ns.toNat = ns)) || s.writeDone w) &&
  !s.unprogrammed ns st

/-- A FLUSH forces every open segment that holds a write it covers, and the journal page that holds an entry of one (R91, R227): what has
reached its place at its stamp. -/
def State.forceFlush (s : State) (ns st : Nat) : State :=
  let covers (n : Nat) (t : Stamp) : Bool := (ns = 0 || n = ns) && decide (t < st)
  (s.forceWhere fun n g => (g.recs.any fun p => covers p.ns p.stamp) ||
    (s.works.any fun w => isWriteOp w.op && covers w.desc.ns.toNat w.stamp && w.items.any fun i => i.loc.any fun l => l.segment = n)).updDelta fun d =>
      { d with jForced := d.jForced || d.journal.any fun j => covers j.ns j.stamp }

/-- What a waiting FLUSH covers and has reached its place since is forced too. -/
def State.forceCovered (s : State) (ns st : Nat) : State :=
  let late := s.works.filter fun w => isWriteOp w.op && decide (w.stamp < st) && (ns = 0 || w.desc.ns.toNat = ns) && !s.writeDone w
  let open_ (i : Item) : Option Nat := i.loc.bind fun l => if s.programmed l (recordUnits i.key.length i.bytes) then none else some l.segment
  let segs := late.flatMap fun w => w.items.filterMap open_
  if late.isEmpty then s
  else (s.forceWhere fun n _ => n ∈ segs).updDelta fun d =>
    { d with jForced := d.jForced || (late.any fun w => d.journal.any fun j => w.items.any fun i => i.wseq = j.wseq) }

/-- What a command that waits for others can do now: a FLUSH, a write under write-through, a reset or a close of a
context. -/
def State.settleOne (s : State) (w : Work) : State :=
  match w.phase with
  | .flush => if s.flushDone w.desc.ns.toNat w.stamp then s.deliver w { commit := w.stamp } else s.forceCovered w.desc.ns.toNat w.stamp
  | .program =>
    if !s.pins.writeThrough || s.writeDone w then
      let stay := { w with posted := true, phase := .index, handles := [], buf := none }
      (s.deliver w w.result).addWork stay
    else s
  | .admin =>
    let ctx := w.desc.param 0x20 2
    if w.op = 0x82 ∧ s.contextQuiet ctx w.stamp then s.deliver w { commit := w.stamp }
    else if w.op = 0x81 ∧ s.contextQuiet ctx w.stamp then (s.freeRing ctx).deliver w { commit := w.stamp }
    else s
  | _ => s

/-- Every waiting command in stamp order. -/
def State.settle (s : State) : State :=
  (s.works.map Work.stamp).foldl (fun s st => match s.work? st with | none => s | some w => s.settleOne w) s

end Sys2Proof.Machine
end

