-- ==== Sys2Proof/Machine/Pipeline.lean ====
section
/-! DEFINITION. Data commands from their admission to their end: the gate (R209 to R211), what is decided when a write
proceeds (R43 item 13, R47, R56 to R60, R69), the choice of the version a read returns (R53 to R55), cipher work units (R281,
R288, R294, R295), placement and journal (R226, R232, R250), the index update (R52, R67). -/

namespace Sys2Proof.Machine

/-- Source 148 with its MEM_POISON record (R274, R378): the consumer is the row of *Where poison bites*. -/
def State.poisonUsed (s : State) (addr consumer : Nat) (st : Stamp) : State :=
  (s.updDram fun d => { d with consumed := inc64 d.consumed }).raise 148 0 st 0x603 (eventData [(8, addr), (1, consumer)])

/-! ## Slice ownership (R305 to R308) -/

/-- The device that owns a slice by the map held: none for this device itself. A cutover overrides the map (R308); before its
first map a MANAGER owns every slice and a WORKER none. -/
def State.sliceOwner (s : State) (slice : Nat) : Option Nat :=
  let c := s.cluster
  let own := (c.identity.map Identity.device).getD 0
  let other (n : Nat) : Option Nat := if n = own then none else some n
  match c.role with
  | .standalone => none
  | r =>
    match mapGet? c.overrides slice with
    | some o => other o.1
    | none =>
      if c.epoch = 0 then (if r = .manager then none else some ((c.identity.map Identity.manager).getD 0))
      else other (mapGet own c.owners slice)

/-- The device owns a slice. -/
def State.owns (s : State) (slice : Nat) : Bool := (s.sliceOwner slice).isNone

/-! ## Items of a write -/

/-- Units of flash and work units of Gorge that an item's record takes (R70, R292). -/
def Item.units (i : Item) : Nat := recordUnits i.key.length i.bytes
def Item.workUnits (i : Item) : Nat := usesOf i.bytes

/-- An APPLY's versions carry the peer stamp; every other write's carry its own (R52, R312). -/
def Work.isApply (w : Work) : Bool := isWriteOp w.op && w.applied

/-- The version an item sees just below the write's stamp (R58, R59). -/
def State.itemLook (s : State) (w : Work) (i : Item) : Look :=
  look (s.chain w.desc.ns.toNat i.key) (w.stamp - 1) (grainOf w.stamp) w.stamp

/-- What an item decides when its write proceeds: the failure with the version stamp it reports, or the item with its
previous version, shared stamp and charge. -/
def State.itemDecide (s : State) (w : Work) (i : Item) : Except (Status × Nat × Nat) Item :=
  let seen := s.itemLook w i
  let charge := chargeOf i.key.length i.bytes i.kind
  let prev := match seen with | .found v => v.stamp | .missing _ _ => 0
  let base := { i with prev := prev, charge := charge }
  if (s.keyEntry w.desc.ns.toNat i.key).any KeyEntry.poisoned then .error (.poisoned, 0, 0)
  else if w.isApply then .ok base
  else if i.opcode = 0x11 then
    (if i.arg = prev then .ok base else .error (.conditionFailed, 0, prev))
  else if i.opcode = 0x12 ∨ i.opcode = 0x15 then
    match seen with
    | .missing r st => .error (.notFound, r, st)
    | .found v => .ok { base with ref := if i.opcode = 0x12 then 0 else if v.kind = .touch then v.ref else v.stamp }
  else if i.opcode = 0x13 then
    .ok { base with prev := ((s.chain w.desc.ns.toNat i.key).head?.map Version.stamp).getD 0 }
  else .ok base

/-- The items of a write decided in order; the first failing one with its index. -/
def State.itemsDecide (s : State) (w : Work) : List Item → Nat → Except (Nat × Status × Nat × Nat) (List Item)
  | [], _ => .ok []
  | i :: rest, n =>
    match s.itemDecide w i with
    | .error e => .error (n, e)
    | .ok i => match s.itemsDecide w rest (n + 1) with
      | .error e => .error e
      | .ok l => .ok (i :: l)

/-- The version that an item makes, without its place on media. -/
def Work.version (w : Work) (i : Item) (index : Nat) : Version :=
  { stamp := w.bound, kind := i.kind, expiry := if i.opcode = 0x15 ∨ w.isApply then i.arg else 0, ref := i.ref,
    value := if i.kind = .value then i.value else [], loc := i.loc, wseq := i.wseq, page := w.page, gen := w.gen,
    counter := i.counter, batch := max 1 w.items.length, index := index }

/-- Units of Gorge that a write takes in all. -/
def Work.writeUnits (w : Work) : Nat := (w.items.map Item.workUnits).sum

/-- An APPLY that changes nothing: the version is held, or a secure deletion above the peer stamp covers it (R312). -/
def State.applyVoid (s : State) (w : Work) : Bool :=
  w.isApply && w.items.all fun i =>
    (s.chain w.desc.ns.toNat i.key).any fun v => v.stamp = w.bound || (v.secured != 0 && decide (w.bound < v.secured))

/-- A write whose charge is not in the quota count. -/
def Work.chargeless (w : Work) : Work := { w with items := w.items.map fun i => { i with charge := 0 } }

/-- The result that a write completes with. -/
def Work.writeResult (w : Work) (blocks : Nat) : Result :=
  { commit := w.stamp
    length := if w.op = 0x14 then w.items.length else if w.op = 0x13 then blocks else ((w.items.head?.map Item.bytes).getD 0)
    version := if w.op = 0x14 then 0 else (w.items.head?.map Item.prev).getD 0 }

/-! ## Buffers -/

/-- A command asks for a buffer of `n` bytes, of at most 65,536, and goes on to a phase once it has it (R190): the request reaches Col's
intake, and is stamped in the class and at the position of the command. The buffer of the chunk before goes back. DESIGN CHOICE (log entry
120): R187 releases a command's buffers with its completion; a value of more chunks than pool 7 has buffers could then never end. -/
def State.withBuffer (s : State) (w : Work) (n : Nat) (next : Phase) : State :=
  ((s.releaseOf w w.buf.toList).updWork w.stamp fun _ =>
    { w with phase := .buffer, after := next, need := max 1 (min 65536 n), buf := none }).arrive (.bufRequest w.stamp)

/-- The bytes of a write that its next work unit reads: the key with the value, or with its first chunk, or the next chunk (R292). -/
def Work.chunkBytes (w : Work) : Bytes :=
  let rec go : List Item → Nat → Bytes
    | [], _ => []
    | i :: rest, u =>
      let v := if i.kind = .value then i.value else []
      if u < i.workUnits then (if u = 0 then v.take 65536 else (v.drop (65536 * (u - 1))).take 65536) else go rest (u - i.workUnits)
  go w.items w.unit

/-- Key length, value length and number within its record of a command's work unit (R292). -/
def Work.unitAt (w : Work) : Option (Nat × Nat × Nat) :=
  let rec go : List Item → Nat → Option (Nat × Nat × Nat)
    | [], _ => none
    | i :: rest, u => if u < i.workUnits then some (i.key.length, i.bytes, u) else go rest (u - i.workUnits)
  if isWriteOp w.op then go w.items w.unit else some (w.key.length, w.data.length, w.unit)

/-- 16-byte blocks of a command's work unit (R280, R292). -/
def Work.unitBlocks (w : Work) : Nat :=
  w.unitAt.elim 0 fun (key, len, u) => ceilDiv (if u = 0 then key else min 65536 (len - 65536 * (u - 1))) 16

/-- Bytes of the buffer that a command's next work unit asks for: with the key block of each record one for the key or for the value or its
first chunk, whichever is longer; then one for each further chunk (R190). None where the unit uses the buffer in hand. -/
def Work.unitNeed (w : Work) : Option Nat :=
  w.unitAt.bind fun (key, len, u) => if u = 0 then some (max 1 (max key (min 65536 len))) else if u = 1 then none else some 65536

/-- A command has its buffer: a write's bytes are put into it (R188), and the command goes on. -/
def State.bufferGranted (s : State) (w : Work) (h : Handle) : State :=
  let s := if isWriteOp w.op then (s.writeBuffer h w.carrier.owner 0 (w.chunkBytes.take w.need)).1 else s
  s.updWork w.stamp fun _ => { w with buf := some h, phase := w.after }

/-- A command's request for a buffer at its stamp (R190, R191): granted, or it waits. -/
def State.bufRequestApply (s : State) (id st : Stamp) : State :=
  match s.work? id with
  | none => s
  | some w =>
    if w.phase ≠ .buffer then s
    else match s.request (poolFor w.need) w.carrier.owner st (.work id) with
      | (s, some h) => s.bufferGranted w h
      | (s, none) => s

/-! ## A write proceeds from the gate -/

/-- A quota refusal, with source 142 at the first one since the count was last below the quota (R47). -/
def State.quotaRefused (s : State) (ns : Nat) (n : Namespace) (count : Nat) (st : Stamp) : State :=
  let first := !n.refused || decide (count < n.params.quota)
  let s := s.updSpace ns fun n => { n with refused := true }
  if first then
    s.raise 142 n.params.owner st 0x201
      (BitVec.ofNat 128 (n.params.quota % 2 ^ 64 + min count (2 ^ 48 - 1) * 2 ^ 64 + ns * 2 ^ 112))
  else s

/-- The index area itself has no room for a write's entries (R68). DESIGN CHOICE (log entry 110): the reserve used up, a DELETE, a
DELETE_SECURE or an APPLY that needs an entry ends as R69 gives for the other writes. -/
def State.indexFull (s : State) (w : Work) (items : List Item) : Bool :=
  let need := (items.map fun i => s.indexGrowth w.desc.ns.toNat i.key (w.version i 0)).sum
  decide (0 < need ∧ s.indexArea < s.indexUsed + s.indexPending + need)

/-- The write at the head of its lists proceeds (R43 item 13): the key's state, the quota, the index reserve; then it takes
its buffer. -/
def State.proceedWrite (s : State) (w : Work) : State :=
  let ns := w.desc.ns.toNat
  let isBatch := w.op = 0x14
  match s.itemsDecide w w.items 0 with
  | .error (n, st, d, v) =>
    let s := if st = .poisoned then
      s.poisonUsed (s.lineAt (Config.bucketLine ((w.items.getD n default).fp))) 2 w.stamp else s
    s.endWithout w { status := st, commit := w.stamp, detail := if isBatch then itemDetail n d else d,
                     version := if isBatch then 0 else v }
  | .ok items =>
    let charge := (items.map Item.charge).sum
    let count := s.quotaCount ns
    let grows := !w.isApply && (w.op != 0x12 && w.op != 0x13)
    let w := { w with items := items }
    match (s.spaceAt ns w.stamp).map fun n => { n with params := (w.space.getD n).params } with
    | none => s.endWithout w { status := .namespaceUnknown, commit := w.stamp }
    | some n =>
      if s.applyVoid w then s.endWithout w.chargeless { commit := w.stamp }
      else if grows ∧ n.params.quota ≠ 0 ∧ n.params.quota < count + charge then
        (s.quotaRefused ns n count w.stamp).endWithout w.chargeless
          { status := .noSpace, commit := w.stamp, detail := 3 }
      else if grows ∧ s.freeEntries ≤ Config.indexReserve ∧ (items.any fun i => s.indexNeed ns i.key (w.version i 0)) then
        s.endWithout w.chargeless { status := .noSpace, commit := w.stamp, detail := 2 }
      else if s.indexFull w items then s.endWithout w.chargeless { status := .noSpace, commit := w.stamp, detail := 2 }
      else
        let s := s.updSpace ns fun n =>
          { n with charged := n.charged + charge, refused := n.refused && decide (n.params.quota ≤ count) }
        let w := { w with units := w.writeUnits, unit := 0 }
        s.withBuffer w (w.unitNeed.getD 1) .cipher

/-! ## A read proceeds -/

/-- A read goes on after a work unit, or when it has its data: it ends when it has no byte to return, streams what it has
released, or waits for its first byte to be released (R35, R294). -/
def State.readReady (s : State) (w : Work) : State :=
  if w.data.isEmpty then s.deliver w w.result
  else if w.ponr then
    match w.carrier with
    | .wire _ _ => s.deliver w w.result
    | .mgmt => s.deliver w w.result
    | _ => s.updWork w.stamp fun _ => { w with phase := .dma }
  else s.updWork w.stamp fun _ => { w with phase := .release }

/-- A list result (VERSIONS, ENUMERATE) takes a buffer for its area and waits for its release. -/
def State.listReady (s : State) (w : Work) : State :=
  if w.data.isEmpty then s.deliver w w.result else s.withBuffer w w.data.length .release

/-- VERSIONS (R57, R84): entries as far as aux and the area allow. -/
def State.versionsResult (s : State) (w : Work) : Work :=
  let ns := w.desc.ns.toNat
  let l := reachable (s.chain ns w.key) w.answerFrom w.holds w.bound w.stamp
  let fit := w.desc.valLen.toNat / 24
  let n := if w.desc.aux.toNat = 0 then fit else min fit w.desc.aux.toNat
  let grain := if w.desc.stampArg.toNat = 0 then grainOf w.stamp else grainOf w.desc.stampArg.toNat
  if l.isEmpty then
    match look (s.chain ns w.key) w.bound grain w.stamp with
    | .missing r st => { w with result := { status := .notFound, commit := w.stamp, detail := r, version := st } }
    | .found _ => { w with result := { status := .notFound, commit := w.stamp } }
  else
    { w with result := { commit := w.stamp, length := min n l.length, detail := b2n (decide (n < l.length)) },
             data := (l.take n).flatMap Version.entry }

/-- Channel, die index and mode of a location. -/
def State.placeOf (s : State) (l : Loc) : Nat × Nat × Nat :=
  match s.segment? l.segment with
  | none => (0, 0, 1)
  | some g => ((unitPlace l.segment (s.delta.kOf g.slc) l.unit).1, s.delta.dieIndex g.group, if g.slc then 0 else 1)

/-- A read ends MEDIA_UNREADABLE (R238, R255): source 116 with its record. -/
def State.unreadable (s : State) (w : Work) (l : Loc) : State :=
  let (c, _, _) := s.placeOf l
  let s := s.updDelta fun d => { d with
    channels := mapUpd {} d.channels c fun c => { c with unreadable := inc64 c.unreadable }
    health := { d.health with unreadable := inc64 d.health.unreadable } }
  let s := s.raise 116 0 w.stamp 0x504 (eventData [(8, s.locationWord l)])
  s.endWithout w { status := .mediaUnreadable, commit := w.stamp, version := w.result.version }

/-- A read proceeds from the gate (R209): it chooses its version, or builds its list. -/
def State.proceedRead (s : State) (w : Work) : State :=
  let ns := w.desc.ns.toNat
  let a := w.desc.stampArg.toNat
  let asOf := a ≠ 0
  if (s.spaceAt ns w.stamp).isNone then s.deliver w { status := .namespaceUnknown, commit := w.stamp }
  else if w.op = 0x04 then
    let start := cursorOf ((w.items.head?.map Item.value).getD [])
    let pre := w.key
    let own := s.updIndex fun i => { i with keys := i.keys.filter fun k => s.owns (sliceOf k.fp) }
    let area := own.enumerate ns start pre a w.stamp w.desc.aux.toNat w.desc.valLen.toNat
    s.listReady { w with data := area.1, result := { commit := w.stamp, length := area.2, version := w.bound } }
  else if (s.keyEntry ns w.key).any KeyEntry.poisoned then
    (s.poisonUsed (s.lineAt (Config.bucketLine w.fp)) 1 w.stamp).deliver { w with diverted := true }
      { status := .poisoned, commit := w.stamp }
  else if w.op = 0x03 then s.listReady (s.versionsResult w)
  else
    let vs := s.chain ns w.key
    let w := { w with diverted := w.diverted || decide (64 < walkLength vs w.bound) }
    match look vs w.bound (if asOf then grainOf a else grainOf w.stamp) w.stamp with
    | .missing r st => s.deliver w { status := .notFound, commit := w.stamp, detail := r, version := st }
    | .found v =>
      let cap := w.desc.valLen.toNat
      let data := v.value.take cap
      let w := { w with
        data := data, loc := v.loc, page := v.page, gen := v.gen, unit := 0, units := 1 + ceilDiv data.length 65536
        result := { commit := w.stamp, length := v.value.length, detail := b2n (decide (cap < v.value.length)), version := v.stamp } }
      let inBuffer := match v.loc with
        | none => true
        | some l => s.inBasin l (recordUnits w.key.length v.value.length)
      match v.loc with
      | some l =>
        if !inBuffer ∧ (s.delta.lostList.any fun x => x.1 = ns && x.2.1 = w.fp && x.2.2 = v.stamp) then s.unreadable w l
        else s.withBuffer w (w.unitNeed.getD 1) (if inBuffer then .cipher else .media)
      | none => s.withBuffer w (w.unitNeed.getD 1) .cipher

/-! ## Admission to the gate -/

/-- Fingerprints of a write's items. -/
def Work.fps (w : Work) : List (BitVec 64) := w.items.map Item.fp

/-- A read may pass the gate. -/
def State.readMayGo (s : State) (w : Work) : Bool :=
  if w.op = 0x04 then s.glen.enumFree w.desc.ns.toNat w.bound else s.glen.readFree w.desc.ns.toNat w.fp w.bound

/-- An ORDERED command waits while a lower-stamped command of its context is outstanding (R88). -/
def State.orderHeld (s : State) (w : Work) : Bool := w.desc.ordered && (w.carrier.context.any fun c => s.openBefore c w.stamp)

/-- Glen admits no command at the gate: its backlog is full, or an earlier command already waits for it to drain (R211). -/
def State.gateStalled (s : State) (st : Stamp) : Bool :=
  decide (Config.gateBacklog ≤ s.glen.backlog.length) ||
  s.works.any fun w => w.phase = .ordered && w.left = 0 && decide (w.stamp < st)

/-- A write at the gate proceeds when it heads every list of its keys and nothing else holds it (R209, R210, R88). -/
def State.writeMayGo (s : State) (w : Work) : Bool :=
  !s.orderHeld w && !s.glen.inBacklog w.stamp && s.glen.heads w.desc.ns.toNat w.fps w.stamp

/-- A write is admitted to the gate at its stamp, in R43's order: its uses are taken (R291, R293), its keys join (R201, R209,
R211). A stalled gate holds it, with no use taken. Where it is not alone it waits. -/
def State.admitWrite (s : State) (w : Work) : State :=
  let ns := w.desc.ns.toNat
  if s.gateStalled w.stamp then s.updWork w.stamp fun w => { w with phase := .ordered }
  else
    match s.takeUses w.page w.gen w.writeUnits (w.op = 0x12 || w.op = 0x13) w.stamp with
    | (u, none) => u.failWork w (.keyExhausted, 0)
    | (u, some c) =>
      let counters (acc : List Item × Nat) (i : Item) : List Item × Nat :=
        (acc.1 ++ [{ i with counter := acc.2 }], acc.2 + i.workUnits)
      let gen := ((s.keyPage? w.page).map fun p => (p.generation w.gen).1.number).getD w.gen
      let w := { w with items := (w.items.foldl counters ([], c)).1, phase := .gate, gen := gen }
      match u.gateJoin ns w.fps w.stamp with
      | (s', true) =>
        let s' := s'.updWork w.stamp fun _ => w
        if s'.writeMayGo w then s'.proceedWrite w else s'
      | (_, false) => (s.gateJoin ns w.fps w.stamp).1.updWork w.stamp fun x => { x with phase := .ordered }

/-- A read reaches the gate; one that a pending write holds counts in GATE_WAITS. -/
def State.admitRead (s : State) (w : Work) : State :=
  if s.gateStalled w.stamp then s.updWork w.stamp fun w => { w with phase := .ordered }
  else
    let free := s.readMayGo w
    let s := if free then s else s.updGlen fun g => { g with waits := inc64 g.waits }
    if !s.orderHeld w && free then s.proceedRead { w with phase := .gate }
    else s.updWork w.stamp fun w => { w with phase := .gate }

/-- A data command starts (R88): it reaches the gate, waits for its FLUSH, or is answered. Without a gate an ORDERED command waits
in its work record, marked 2. -/
def State.startData (s : State) (w : Work) : State :=
  let op := w.op
  if isWriteOp op then s.admitWrite w
  else if isReadOp op then s.admitRead w
  else if s.orderHeld w then s.updWork w.stamp fun w => { w with phase := .ordered, left := 2 }
  else if op = 0x20 then
    let s := (s.updWork w.stamp fun w => { w with phase := .flush }).forceFlush w.desc.ns.toNat w.stamp
    s.settleOne { w with phase := .flush }
  else if op = 0x21 then
    match w.carrier.context with
    | none => s.deliver w { commit := w.stamp, detail := 2 }
    | some c =>
      let (s, d) := s.abortApply c (w.desc.stampArg.toNat % 65536) w.stamp
      s.deliver w { commit := w.stamp, detail := d }
  else s.deliver w { commit := w.stamp }

/-- A command held back can go now: the gate admits it (R211), or lets it pass (R209). -/
def State.gateProceed (s : State) (id : Stamp) : State :=
  match s.work? id with
  | none => s
  | some w =>
    match w.phase with
    | .ordered => if w.left = 0 then s.startData w else s
    | .gate =>
      if isWriteOp w.op then (if s.writeMayGo w then s.proceedWrite w else s)
      else if !s.orderHeld w && s.readMayGo w then s.proceedRead w else s
    | _ => s

/-! ## Cipher -/

/-- The work that a free pair takes next (R281): URGENT commands by stamp, then the others by stamp. -/
def State.nextUnit (s : State) : Option Work :=
  let l := s.works.filter fun w => w.phase = .cipher
  (l.find? fun w => w.desc.urgent).orElse fun _ => l.head?

/-- Places every item of a write (R71, R226): write sequence, location, record. -/
def State.placeItems (s : State) (w : Work) : List Item → Option (State × List Item)
  | [] => some (s, [])
  | i :: rest =>
    let (s, q) := s.takeSeq 1
    match s.placeWrite i.cold i.units (fun l =>
        some { ns := w.desc.ns.toNat, fp := i.fp, key := i.key, stamp := w.bound, wseq := q,
               unit := l.unit, units := i.units, body := (w.version i (w.items.length - (rest.length + 1))).body }) with
    | none => none
    | some (s, l) => (s.placeItems w rest).map fun (s, m) => (s, { i with loc := some l, wseq := q } :: m)

/-- A write's records all lie in pages that have their buffers. -/
def State.itemsCovered (s : State) (w : Work) : Bool := w.items.all fun i => i.loc.all fun l => s.covered l i.units

/-- A write's records are placed, or it waits for space in an open segment, or for the buffers of its pages (R226, R191, R192). -/
def State.placeWork (s : State) (w : Work) : State :=
  let next (s : State) (w : Work) : State := s.updWork w.stamp fun _ => { w with phase := if s.itemsCovered w then .journal else .media }
  if w.items.all fun i => i.loc.isSome then next s w
  else match (if s.mirrorFull w then none else s.placeItems w w.items) with
    | some (s, items) => next s { w with items := items }
    | none => s.updWork w.stamp fun _ => { w with phase := .media }

/-- Data bytes of a read that its release mode lets leave (R149, R294): under VERIFIED those of the chunks whose tags have checked, under
EARLY the chunk in decryption too. -/
def Work.yielded (w : Work) : Bytes := w.data.take (65536 * (if w.early then w.unit else w.unit - 1))

/-- A read on a session whose first byte is released: its response begins, or grows with what decryption has yielded (R149). -/
def State.stream (s : State) (w : Work) : State :=
  match w.carrier with
  | .wire n q =>
    if !w.ponr ∨ (w.op ≠ 1 ∧ w.op ≠ 2) then s
    else s.updSession n fun x =>
      if x.responses.any fun r => r.seqNo = q then
        { x with responses := x.responses.map fun r => if r.seqNo = q ∧ r.growing then { r with data := w.yielded } else r }
      else { x with responses := x.responses ++ [
        { seqNo := q, tag := w.desc.tag, stamp := w.stamp, data := w.yielded, result := w.result, streamed := false,
          urgent := w.desc.urgent, planned := w.data.length, growing := true }] }
  | _ => s

/-- A tag failure ends a read (R295): source 162, and what has left stays with the receiver. -/
def State.tagFailed (s : State) (w : Work) : State :=
  let owner := ((s.keyPage? w.page).map KeyPage.owner).getD 0
  let s := (s.updGorge fun g => { g with tagFails := inc64 g.tagFails }).raise 162 owner w.stamp 0x702
    (eventData [(1, w.page), (1, w.gen), (8, (w.loc.map s.locationWord).getD 0)])
  let key := w.unit = 0
  s.deliver { w with data := [] }
    { status := .tagFailed, commit := w.stamp, detail := if key then max32 else w.unit - 1,
      length := if key then 0 else w.result.length, version := 0 }

/-- Poisoned bytes meet a work unit (R274): a write has no effect, a read ends POISONED. -/
def State.unitPoisoned (s : State) (w : Work) : State :=
  let consumer := if isWriteOp w.op then 4 else match w.carrier with | .wire _ _ => 6 | _ => 5
  let s := s.poisonUsed (((w.buf.orElse fun _ => w.handles.head?).map handleWord).getD 0) consumer w.stamp
  s.endWithout w { status := .poisoned, commit := w.stamp, detail := 1 }

/-- A received SECURE frame has its tag checked by a pair (R281 order 1); the wire then takes it. Answers the frame. -/
def State.takeRx (s : State) : State × Option LfFrame :=
  match s.gorge.rx with
  | [] => (s, none)
  | f :: rest => ((s.updGorge fun g => { g with rx := rest }).frameUnit f.payload.length, some f)

/-- What a command does once a work unit is done: it takes the next one, after a further buffer where that needs one (R190), or goes on. -/
def State.unitDone (s : State) (w : Work) (last : State → Work → State) : State :=
  let w := { w with unit := w.unit + 1 }
  let s := s.stream w
  if w.units ≤ w.unit then last s w
  else match w.unitNeed with
    | some n => s.withBuffer w n .cipher
    | none => s.updWork w.stamp fun _ => w

/-- A work unit's use of the command's buffer (R188, R189): a write's bytes are read from it, a read's are written into it. The Bool says
whether the unit can go on; a refused or poisoned read poisons the unit, a refused write ends the command. -/
def State.unitAccess (s : State) (w : Work) : State × Bool :=
  match w.buf with
  | none => (s, true)
  | some h =>
    if isWriteOp w.op then
      match s.readBuffer h w.carrier.owner 0 w.need with
      | (s, some _) => (s, true)
      | (s, none) => (s.unitPoisoned w, false)
    else
      let bytes := if w.unit = 0 then w.key else (w.data.drop (65536 * (w.unit - 1))).take 65536
      match s.writeBuffer h w.carrier.owner 0 (bytes.take w.need) with
      | (s, true) => (s, true)
      | (s, false) => (s.failWork w (.poisoned, 1), false)

/-- A buffer holds poison (R273, R277). -/
def State.handlePoisoned (s : State) (h : Handle) : Bool := (mapGet? (s.pool h.pool).buffers h.index).any Buffer.poisoned

/-- A command's buffer holds poison. -/
def State.bufferPoisoned (s : State) (w : Work) : Bool := w.buffers.any s.handlePoisoned

/-- What reading a command's buffer in Basin shows before a work unit (R277): a double-bit error poisons the buffer's word. -/
def State.basinRead (s : State) (w : Work) (fault : CipherFault) : State :=
  match w.buf, fault with
  | some h, .corrected => s.sramRead 1 (handleWord h) .corrected
  | some h, .poisoned => (s.sramRead 1 (handleWord h) .doubleBit).updBuffer h fun b => { b with poisoned := true }
  | _, _ => s

/-- A free pair takes a command's next work unit (R281, R283, R294, R295). -/
def State.cipherUnit (s : State) (fault : CipherFault) : State :=
  match s.nextUnit with
  | none => s
  | some w =>
    let s := match fault with | .laneMismatch ps => ps.foldl State.laneMismatch s | _ => s
    if s.pairs.isEmpty then s
    else
    let s := s.basinRead w fault
    if s.bufferPoisoned w then s.unitPoisoned w
    else
      match s.unitAccess w with
      | (s, false) => s
      | (s, true) =>
        if isWriteOp w.op then
          (s.unitRun true 1 w.unitBlocks).unitDone w State.placeWork
        else
          let s := s.unitRun false 1 w.unitBlocks
          if fault = .tagFailed then s.tagFailed w else s.unitDone w State.readReady

/-! ## Journal and index -/

/-- Journal kinds (R250). -/
def Item.journalKind (i : Item) : Nat := if i.opcode = 0x13 then 4 else i.kind.code

/-- Journal entries of a write (R250). -/
def Work.journal (w : Work) : List JEntry :=
  w.items.zipIdx.map fun (i, n) =>
    { ns := w.desc.ns.toNat, fp := i.fp, stamp := w.bound, wseq := i.wseq, kind := i.journalKind,
      loc := i.loc.getD default, length := i.bytes, count := w.items.length, index := n }

/-- The "journal entry written" completion at its stamp (R35, R232): the write is past its point of no return, and its completion is
posted when the grain's stamps are done, or later by write-through (R244); a DELETE_SECURE goes on to its index update. -/
def State.journalApply (s : State) (id : Stamp) : State :=
  match s.work? id with
  | none => s
  | some w =>
    if w.phase = .journal ∧ s.journalRoom w.items.length then
      let s := s.journalPut w.journal
      let w := { w with ponr := true, result := w.writeResult 0 }
      if w.op = 0x13 ∨ w.isApply then s.updWork w.stamp fun _ => { w with phase := .index }
      else s.updWork w.stamp fun _ => { w with phase := .program }
    else s

/-- Version entries of a write's items reach the index (R52, R56, R67); a TOUCH shares the location of the version it
re-times. -/
def State.indexItems (s : State) (w : Work) : State :=
  w.items.zipIdx.foldl (fun s (i, n) =>
    let ns := w.desc.ns.toNat
    let v := w.version i n
    let v := match i.kind, (s.chain ns i.key).find? fun x => x.stamp = i.prev with
      | .touch, some r => { v with value := r.value, loc := r.loc, page := r.page, gen := r.gen, counter := r.counter }
      | _, _ => v
    if i.opcode = 0x13 then s.secureMark ns i.fp i.key v else s.addVersion ns i.fp i.key v) s

/-- Vale's index update is done (R52, R209): the versions are in, the next write of each key may proceed. -/
def State.indexUpdate (s : State) (id : Stamp) (poisoned : Bool) : State :=
  match s.work? id with
  | none => s
  | some w =>
    if w.phase = .index ∧ w.ponr then
      let s := (s.uncharge w).indexItems w
      let s := if poisoned then
          (s.poisonUsed (s.lineAt (Config.bucketLine ((w.items.head?.map Item.fp).getD 0))) 3 w.stamp).updIndex fun i =>
            { i with keys := i.keys.map fun k =>
                { k with poisoned := k.poisoned || (w.items.any (fun x => x.key = k.key) && k.ns = w.desc.ns.toNat) } }
        else s
      let s := s.gateLeave w.stamp
      let w := w.chargeless
      if w.posted then s.dropWork w.stamp
      else if w.op = 0x13 then s.updWork w.stamp fun _ => { w with phase := .erase }
      else s.deliver w w.result
    else s

/-! ## Release and DMA -/

/-- A read may hand over its first byte (R294): after its key block, under EARLY; after its first chunk's tag, under
VERIFIED; a list when it is built. -/
def Work.mayRelease (w : Work) : Bool :=
  !w.ponr && !w.data.isEmpty && isReadOp w.op &&
  (w.phase = .release || (w.phase = .cipher && decide ((if w.early then 1 else 2) ≤ w.unit)))

/-- The "first byte released" completion at its stamp (R35). -/
def State.firstByteApply (s : State) (id : Stamp) : State :=
  match s.work? id with
  | none => s
  | some w =>
    if w.mayRelease then
      let w := { w with ponr := true }
      let s := (s.updWork w.stamp fun _ => w).stream w
      if w.phase = .release then s.readReady w else s
    else s

/-- The host-memory writes of a command's data, in order (R75, R76). -/
def Work.dataWrites (w : Work) : List (Nat × Bytes) :=
  match valuePieces w.sub w.data.length with
  | .ok p => scatter w.data p
  | .error _ => []

/-- Writes a command's data to host memory (R113). -/
def State.writeHost (s : State) (w : Work) : State :=
  w.dataWrites.foldl (fun s (a, b) => s.emit (.dataWrite w.fn a (s.fn w.fn).pci.relaxed b)) s

/-- A DMA completion at its stamp (R113): a read's or a result's data has been written and its completion follows; or a read
of the command's fields has failed, which ends it without effect. -/
def State.dmaApply (s : State) (id : Stamp) (r : DmaResult) : State :=
  match s.work? id with
  | none => s
  | some w =>
    match r with
    | .done =>
      if w.phase = .dma then (if w.dropped then s else s.writeHost w).deliver w w.result else s
    | .readFailed off => if !w.ponr ∧ !w.posted ∧ w.phase ≠ .dma then s.failWork w (badField off) else s

end Sys2Proof.Machine
end

