-- ==== Sys2Proof/Machine/Check.lean ====
section
/-! DEFINITION. The checks of a command at its stamp, in the order of R43: mode (R14, R413), time (R28), opcode, carrier and tag
(R82, R94), namespace, key length, value length (R42), slice (R307), ACCESS (R203), permissions (R45), the other fields (R77,
R80), media space (R258). -/

namespace Sys2Proof.Machine

/-- How a check ends a command: status, detail, version field, and whether it is refused outside the order (R79). -/
structure Refused where
  status    : Status
  detail    : Nat := 0
  version   : Nat := 0
  unstamped : Bool := false
  deriving DecidableEq, Repr

/-- The refusal that a failed check makes. -/
def refusedOf (f : Fail) : Refused := { status := f.1, detail := f.2 }

/-- Ranegal's estimate behind a BUSY_RETRY: a free value with a floor (R413, R363; log entry 5). -/
def State.retryAfter (s : State) (floor : Nat) : State × Nat := (s.draw, max floor (Config.retryEstimate s.free % 4294967296))

/-! ## Mode and time -/

/-- Whether the mode serves an admin opcode from a carrier (R14, R413); while a FW_ACTIVATE is in progress FW_DOWNLOAD and FW_ACTIVATE
follow R360 and R361. DEDUCED (log entry 107): in the quiesce of a trial's expiry none is, and R413 refuses both as the mode's. -/
def State.modeServes (s : State) (op : Nat) : Bool :=
  match s.mode with
  | .fill | .boot => false
  | .rebuild => [0xC1, 0xA0, 0xA1, 0xA5, 0xA8, 0xB2, 0x80, 0x98].contains op
  | .maintenance =>
    if s.update.quiesce != 0 && s.update.active.isSome then !(op = 0xBA)
    else if s.update.quiesce != 0 then !(op = 0xB0 || op = 0xB1 || op = 0xBA)
    else !(op = 0xB0 || op = 0xBA)
  | _ => true

/-- The mode check (R14): refused with commit stamp 0; a host data command is never refused for mode, but a write in a sealed
device is. -/
def State.modeFail (s : State) (c : Submission) : Option Status :=
  let op := c.desc.opcode.toNat
  if isDataOp op then
    let busy := match c.carrier with | .wire _ _ => !s.mode.serves | _ => false
    if busy then some .busyRetry else if s.delta.sealed && isWriteOp op then some .sealed else none
  else if isAdminOp op then (if s.modeServes op then none else some .busyRetry)
  else none

/-! ## Opcode, carrier, tag -/

/-- Opcode and carrier (R82, R94, R311, R339). -/
def State.carrierFail (s : State) (c : Submission) : Option Fail :=
  let op := c.desc.opcode.toNat
  let known := isDataOp op || isAdminOp op
  match c.carrier with
  | .ring _ => if isDataOp op then none else some (badField 0)
  | .admin _ => if isAdminOp op then none else some (badField 0)
  | .mgmt =>
    if !([0xC1, 0xA0, 0xA1, 0xA8, 0xB2, 0xB0, 0xB1].contains op) then some (badField 0) else none
  | .wire n _ =>
    match s.peerPair c.carrier with
    | some _ =>
      let k := c.desc.peerKind
      let fits := (k = 1 ∧ (op = 0x10 ∨ op = 0x12 ∨ op = 0x13 ∨ op = 0x14)) ∨ (k = 2 ∧ op = 0x02) ∨ (3 ≤ k ∧ k ≤ 5 ∧ op = 0x22)
      if !known ∨ isAdminOp op then some (badField 0)
      else if c.desc.keyInline then some (badField 1)
      else if !fits then some (badField (if 1 ≤ k ∧ k ≤ 5 then 0 else 0x32))
      else none
    | none =>
      if !known then some (badField 0)
      else if isAdminOp op ∧ (!((s.session? n).any fun x => x.params.admin) ∨ [0x80, 0x81, 0x82, 0x90, 0x91, 0x98].contains op) then
        some (.notPermitted, 0)
      else none

/-- Another outstanding command of the carrier holds the tag (R82). -/
def State.tagInUse (s : State) (c : Submission) : Bool :=
  (match c.carrier with | .wire k _ => s.answering fun n r => n = k && r.tag = c.desc.tag | _ => false) ||
  s.works.any fun w => !w.posted && w.desc.tag = c.desc.tag &&
    (match w.carrier, c.carrier with
     | .ring a, .ring b => a = b
     | .admin a, .admin b => a = b && !w.dropped && !w.muted
     | .wire a _, .wire b _ => a = b
     | _, _ => false)

/-! ## Namespace, key length, value length -/

/-- The namespace field (R42, R77). -/
def State.nsFail (s : State) (op ns : Nat) : Option Fail :=
  if op = 0x21 ∨ op = 0x22 then none
  else if op = 0x20 ∧ ns = 0 then none
  else if ns = 0 ∨ 1024 ≤ ns then some (badField 4)
  else if (s.space? ns).isNone then some (.namespaceUnknown, 0)
  else none

/-- The namespace, value length and flags fields of an admin command (R43 items 4, 6 and 10): NAMESPACE_SET, NAMESPACE_DELETE and
selector 1 of IDENTIFY use the namespace; the management path takes at most 4,096 bytes (R339); a segment list needs a ring (R74, R75). -/
def State.adminFail (s : State) (c : Submission) : Option Fail :=
  let d := c.desc
  let op := d.opcode.toNat
  let ns := d.ns.toNat
  let ring := match c.carrier with | .ring _ | .admin _ => true | _ => false
  if op = 0x88 ∧ (ns = 0 ∨ 1024 ≤ ns) then some (badField 4)
  else match (if op = 0x89 ∨ (op = 0xC1 ∧ d.param 0x20 1 = 1) then s.nsFail op ns else none) with
  | some f => some f
  | none =>
    if c.carrier = .mgmt ∧ 4096 < d.valLen.toNat then some (badField 8)
    else if d.reservedFlags || (!ring && d.valueList) then some (badField 1)
    else none

/-- Whether an opcode uses the key, and whether it is a keyed command of R307. -/
def usesKey (op : Nat) : Bool := decide (1 ≤ op ∧ op ≤ 4) || (isWriteOp op && op != 0x14)

/-- The key length of a descriptor (R42). -/
def keyLenFail (d : Descriptor) : Option Fail :=
  let op := d.opcode.toNat
  let n := d.keyLen.toNat
  if op = 0x04 then (if n = 0 ∨ n = 16 then none else some (badField 6))
  else if !usesKey op then none
  else if n = 0 then some (badField 6)
  else if Config.maxKey < n then some (.keyTooLong, 0)
  else if d.keyInline ∧ Config.maxInlineKey < n then some (badField 6)
  else none

/-- Key lengths of a BATCH's items. -/
def itemKeyFail : List ItemHeader → Nat → Option Fail
  | [], _ => none
  | h :: rest, i =>
    if h.keyLen = 0 then some (.invalidField, itemDetail i 2)
    else if Config.maxKey < h.keyLen then some (.keyTooLong, itemDetail i 0)
    else itemKeyFail rest (i + 1)

/-- Value lengths of a BATCH's items: each one's own, then the running sum (R42, R60). -/
def itemValueFail : List ItemHeader → Nat → Nat → Option Fail
  | [], _, _ => none
  | h :: rest, i, sum =>
    if Config.maxValue < h.valLen ∨ Config.maxValue < sum + h.valLen then some (.valueTooLong, itemDetail i 0)
    else itemValueFail rest (i + 1) (sum + h.valLen)

/-- The value length (R42, R85). -/
def valueLenFail (d : Descriptor) (items : List ItemHeader) : Option Fail :=
  let op := d.opcode.toNat
  let n := d.valLen.toNat
  if (op = 0x10 ∨ op = 0x11) ∧ Config.maxValue < n then some (.valueTooLong, 0)
  else if op = 0x14 then (if Config.maxBatchArea < n then some (.valueTooLong, 0) else itemValueFail items 0 0)
  else none

/-! ## What a command carries -/

/-- The bytes that the checks and the execution of a data command read. -/
structure Parsed where
  key    : Except Fail Bytes := .ok []
  pre    : Except Fail Bytes := .ok []
  cursor : Except Fail Bytes := .ok []
  value  : Except Fail Bytes := .ok []
  items  : List ItemHeader := []

/-- Reads key, prefix, cursor, value or item area, as the opcode uses them (R73 to R77, R113, R145). -/
def parse (c : Submission) : Parsed :=
  let d := c.desc
  let op := d.opcode.toNat
  let room : Except Fail Bytes := match c.carrier with
    | .ring _ => (valuePieces c d.valLen.toNat).map fun _ => []
    | _ => .ok []
  if op = 0x04 then
    { pre := if 512 < d.param 0x30 2 then .ok [] else prefixOf c
      cursor := if d.keyLen = 0 then .ok [] else (subRead c (d.param 0x20 8) 16).elim (.error (badField 0x20)) .ok
      value := room }
  else if op = 0x14 then
    if Config.maxBatchArea < d.valLen.toNat then {}
    else
      match valueOf c with
      | .error f => { value := .error f }
      | .ok b =>
        let n := d.aux.toNat
        { value := .ok b, items := if 1 ≤ n ∧ n ≤ 64 ∧ 32 * n ≤ b.length then (List.range n).map (itemHeader b) else [] }
  else if usesKey op ∧ d.keyLen.toNat ≤ Config.maxKey then
    { key := keyOf c
      value := if (op = 0x10 ∨ op = 0x11) ∧ d.valLen.toNat ≤ Config.maxValue then valueOf c
        else if isReadOp op then room else .ok [] }
  else {}

/-- Item keys with their indices, where they lie within the area. -/
def Parsed.itemKeys (p : Parsed) : List (Nat × Bytes) :=
  match p.value with
  | .error _ => []
  | .ok b => p.items.zipIdx.filterMap fun (h, i) => if h.keyFits b.length then some (i, h.key b) else none

/-! ## Slice, ACCESS, permissions -/

/-- The refusal for a slice that the device does not own (R307), unless a cutover decides later (R314, R316). -/
def State.movedTo (s : State) (owner slice : Nat) : Refused :=
  { status := .moved, detail := slice, version := owner % 1024 + s.cluster.epoch * 2 ^ 32 }

/-- What a pair's cutover makes of a command on a slice stamped in a grain (R314, R316, R317): none of its business, held,
MOVED, or BUSY_RETRY. -/
inductive Cut where
  | free
  | hold
  | moved (owner : Nat)
  | busy
  deriving DecidableEq, Repr

/-- The cutover's bearing on a slice in a grain. -/
def State.cutOf (s : State) (slice grain : Nat) : Cut :=
  match s.cluster.pairs.find? fun p => p.slices.contains slice && p.cutover != 0 && decide (p.cutover ≤ grain) with
  | none => .free
  | some p =>
    match p.state, p.target with
    | .uncertain, _ => .busy
    | .proposed, false => .hold
    | .committed, false => .moved p.peer
    | .committed, true => .hold
    | _, _ => .free

/-- The slice check of a keyed command, or of a BATCH's items (R307); ENUMERATE, FLUSH, ABORT and NOP are not checked. -/
def State.sliceCheck (s : State) (c : Submission) (p : Parsed) (grain : Nat) : Option Refused :=
  let one (key : Bytes) : Option Refused :=
    let slice := sliceOf (s.fingerprint c.desc.ns.toNat key)
    match s.cutOf slice grain with
    | .hold => none
    | .busy => some { status := .busyRetry, detail := 1000000 }
    | .moved o => some (s.movedTo o slice)
    | .free => (s.sliceOwner slice).map fun o => s.movedTo o slice
  if c.desc.opcode.toNat = 0x14 then
    p.itemKeys.findSome? fun (i, k) => (one k).map fun r =>
      if r.status = .moved then { r with detail := itemDetail i 0 } else r
  else if usesKey c.desc.opcode.toNat ∧ c.desc.opcode.toNat ≠ 0x04 then
    match p.key with
    | .ok k => one k
    | .error _ => none
  else none

/-- The command's keys are held by a cutover (R314, R316). The messages of the pair itself are not: R316's example applies an APPLY after C. -/
def State.cutHolds (s : State) (w : Work) : Bool :=
  let fps := if w.op = 0x04 then [] else if isReadOp w.op then [w.fp] else w.fps
  (s.peerPair w.carrier).isNone && fps.any fun fp => s.cutOf (sliceOf fp) (grainOf w.stamp) = .hold

/-- The ACCESS check (R203). -/
def State.accessCheck (s : State) (c : Submission) (p : Parsed) : State × Option Fail :=
  let op := c.desc.opcode.toNat
  let ns := c.desc.ns.toNat
  let one (s : State) (key : Bytes) : State × Bool :=
    let (s, b) := s.permissions c.carrier ns key
    (s, hasBits b (bitsNeeded op))
  if op = 0x21 ∨ op = 0x22 ∨ (op = 0x20 ∧ ns = 0) then (s, none)
  else if op = 0x14 then
    p.itemKeys.foldl (fun (s, f) (i, k) => match f with
      | some _ => (s, f)
      | none => let (s, ok) := one s k; (s, if ok then none else some (.notPermitted, itemDetail i 0))) (s, none)
  else
    let key : Except Fail Bytes := if op = 0x20 then .ok [] else if op = 0x04 then p.pre else p.key
    match key with
    | .ok k => let (s, ok) := one s k; (s, if ok then none else some (.notPermitted, 0))
    | .error _ => (s, none)

/-- The namespace's own permission bits (R45). -/
def State.permFail (s : State) (op ns : Nat) (p : Parsed) : Option Fail :=
  match s.space? ns with
  | none => none
  | some n =>
    if op = 0x13 ∧ !n.params.secure ∨ op = 0x15 ∧ !n.params.expiry then some (.notPermitted, 0)
    else if op = 0x14 ∧ !n.params.expiry then
      (p.items.findIdx? fun h => h.opcode = 0x15).map fun i => (.notPermitted, itemDetail i 0)
    else none

/-! ## Other fields -/

/-- A failed read, as a failure. -/
def readFail {α : Type} : Except Fail α → Option Fail
  | .error f => some f
  | .ok _ => none

/-- An expiry grain that lies at or below the command's own (R56). DESIGN CHOICE (log entry 111): an expiry of 2^52 or more, which the
expiry entry cannot hold (R69), is accepted and kept whole. -/
def badExpiry (e grain : Nat) : Bool := e != 0 && decide (e ≤ grain)

/-- Item checks in index order: fields, expiry, keys named twice (R56, R60, R85). -/
def itemChecks (size grain : Nat) (peer : Bool) (area : Bytes) : List ItemHeader → Nat → List Bytes → Option Fail
  | [], _, _ => none
  | h :: rest, i, seen =>
    let offs := (itemFieldFail h size peer).toList ++ (if h.opcode = 0x15 ∧ badExpiry h.arg grain then [8] else []) ++
      (if h.keyFits size ∧ h.key area ∈ seen then [0x10] else [])
    let off := offs.foldl (fun (acc : Option Nat) o => some (match acc with | none => o | some a => min a o)) none
    match off with
    | some o => some (.invalidField, itemDetail i o)
    | none => itemChecks size grain peer area rest (i + 1) (h.key area :: seen)

/-- The first failing of the other checks, at the lowest offset (R74 to R77, R54, R56, R60, R61, R62, R84, R85). -/
def State.fieldFail (s : State) (c : Submission) (p : Parsed) (st : Stamp) (peer : Bool) : Option Fail :=
  let d := c.desc
  let op := d.opcode.toNat
  let ns := d.ns.toNat
  let wire := match c.carrier with | .wire _ _ => true | _ => false
  let arg := d.stampArg.toNat
  let n := d.aux.toNat
  let test (b : Bool) (f : Fail) : Option Fail := if b then some f else none
  let zeroArg := [0x01, 0x10, 0x12, 0x13, 0x14, 0x20].contains op && !(peer && op = 0x10)
  let asOf := op = 0x02 || ((op = 0x03 || op = 0x04) && arg != 0)
  [test (d.reservedFlags || (wire && d.valueList) || (op = 0x04 && d.keyInline)) (badField 1),
   test ((op = 0x03 && decide (d.valLen.toNat < 24)) || (op = 0x04 && decide (d.valLen.toNat < 544))) (badField 8),
   test (op = 0x14 && (n = 0 || decide (64 < n) || decide (d.valLen.toNat < 32 * n))) (badField 0x0E),
   test ((zeroArg && arg != 0) || (op = 0x21 && decide (65536 ≤ arg)) || (op = 0x02 && arg = 0) ||
     (op = 0x15 && badExpiry arg (grainOf st))) (badField 0x10),
   (if asOf then s.asOfFail ns arg st else none),
   (match readFail p.value with | some (x, o) => if o < 2147483648 then some (x, o) else none | none => none),
   readFail p.key, readFail p.cursor,
   (match p.cursor with
    | .ok b => test (!b.isEmpty && (field b 12 2 != ns || field b 14 2 != 0)) (badField 0x20)
    | .error _ => none),
   readFail p.pre,
   test (op = 0x04 && decide (512 < d.param 0x30 2)) (badField 0x30),
   test (usesKey op && !d.keyInline && !peer && d.param 0x32 14 != 0) (badField 0x32),
   test (peer && d.param 0x33 1 != 0) (badField 0x33),
   readFail p.value,
   (match p.value with
    | .ok b => if op = 0x14 then itemChecks b.length (grainOf st) peer b p.items 0 [] else none
    | .error _ => none)].findSome? id

/-- Media space (R258). -/
def State.spaceFail (s : State) (op : Nat) : Option Fail :=
  if !isWriteOp op ∨ !s.delta.noSpace then none
  else if (op = 0x12 ∨ op = 0x13) ∧ s.delta.groups < s.delta.free then none
  else some (.noSpace, 1)

/-! ## The work that a data command becomes -/

/-- The items of a write (R60): a BATCH's, or the command itself. Each takes its own hint (R204). -/
def State.itemsOf (s : State) (c : Submission) (p : Parsed) : State × List Item × Bool :=
  let ns := c.desc.ns.toNat
  let cold := (s.space? ns).any fun n => n.params.cold
  let make (s : State) (opc : Nat) (key value : Bytes) (arg : Nat) : State × Item × Bool :=
    let (s, fw, _, hint) := s.policy c.carrier ns key
    (s, { opcode := opc, key := key, value := value, arg := arg, fp := s.fingerprint ns key,
          cold := if hint = 1 then false else if hint = 2 then true else cold }, fw)
  let op := c.desc.opcode.toNat
  if op = 0x14 then
    match p.value with
    | .error _ => (s, [], false)
    | .ok b =>
      p.items.foldl (fun (s, l, fw) h =>
        let (s, i, f) := make s h.opcode (h.key b) (if h.opcode = 0x10 ∨ h.opcode = 0x11 then slice b h.valOff h.valLen else []) h.arg
        (s, l ++ [i], fw || f)) (s, [], false)
  else
    match p.key, p.value with
    | .ok k, .ok v => let (s, i, f) := make s op k v c.desc.stampArg.toNat; (s, [i], f)
    | _, _ => (s, [], false)

/-- Opcodes that the command cores run (R11): all but GET, GET_AS_OF, PUT, PUT_IF, DELETE and NOP. -/
def coreOp (op : Nat) : Bool := !([0x01, 0x02, 0x10, 0x11, 0x12, 0x22].contains op)

/-- The work record of a data command that has passed its checks (R34, R44, R92, R204, R209). -/
def State.workOf (s : State) (c : Submission) (p : Parsed) (fn st : Nat) (peer : Bool) : State × Work :=
  let d := c.desc
  let op := d.opcode.toNat
  let ns := d.ns.toNat
  let params := ((s.space? ns).map Namespace.params).getD {}
  let t := if d.timeout.toNat = 0 then params.timeout else d.timeout.toNat
  let base := { c.work fn st .ordered with deadline := if t = 0 then 0 else grainOf st + 100 * t, space := s.space? ns }
  if isWriteOp op then
    let (s, items, fw) := s.itemsOf c p
    let gen := ((s.keyPage? params.page).map fun p => p.current.number).getD 0
    (s, { base with items := items, page := params.page, gen := gen, diverted := fw || coreOp op, bound := if peer then d.param 0x38 8 else st
                    applied := peer })
  else if isReadOp op then
    let arg := d.stampArg.toNat
    let key := match (if op = 0x04 then p.pre else p.key) with | .ok k => k | .error _ => []
    let (s, fw, rel, _) := s.policy c.carrier ns key
    let early := (if rel = 1 then false else if rel = 2 then true else params.early) && !d.verified
    let cursor : List Item := match p.cursor with
      | .ok b => if op = 0x04 ∧ !b.isEmpty then [{ opcode := op, key := [], value := b, arg := 0, fp := 0, cold := false }] else []
      | .error _ => []
    (s, { base with key := key, fp := s.fingerprint ns key, bound := if arg = 0 then st - 1 else arg, early := early,
                    items := cursor, holds := s.holdsOf ns, diverted := fw || coreOp op })
  else (s, { base with diverted := coreOp op })

/-! ## The whole check -/

/-- The checks that every command meets first: mode, time, opcode, carrier, tag. -/
def State.firstChecks (s : State) (c : Submission) (fn : Nat) (st : Stamp) : State × Option Refused :=
  let op := c.desc.opcode.toNat
  match s.modeFail c with
  | some .busyRetry =>
    let (s, r) := s.retryAfter (if s.update.quiesce != 0 then 1000 else 1)
    (s, some { status := .busyRetry, detail := r, unstamped := true })
  | some x => (s, some { status := x, unstamped := true })
  | none =>
    if isDataOp op ∧ s.time.quality = .lost then
      (s, some { status := .timeUnlocked, detail := Quality.code .lost, unstamped := true })
    else
      match s.carrierFail c with
      | some f => (s, some (refusedOf f))
      | none =>
        if s.tagInUse c then
          let ctx := c.carrier.context.getD 0xFFFF
          (s.hostError fn ctx 4 c.desc.tag.toNat st, some { status := .tagInUse })
        else (s, none)

/-- The checks of a data command after the first ones, and the work it becomes. Slice check, ACCESS check and permission bits do not apply to
an APPLY (R312), nor the slice check to a COMPARE, which reads what the target holds of slices that it does not own yet (R313; DEDUCED, log
entry 130). -/
def State.dataChecks (s : State) (c : Submission) (fn : Nat) (st : Stamp) : State × Except Refused Work :=
  let op := c.desc.opcode.toNat
  let ns := c.desc.ns.toNat
  let peer := (s.peerPair c.carrier).isSome
  let p := parse c
  match (s.nsFail op ns).orElse fun _ => (keyLenFail c.desc).orElse fun _ =>
      (if op = 0x14 then itemKeyFail p.items 0 else none).orElse fun _ => valueLenFail c.desc p.items with
  | some f => (s, .error (refusedOf f))
  | none =>
    let applied := peer && c.desc.peerKind == 1
    match (if applied || (peer && c.desc.peerKind == 2) then none else s.sliceCheck c p (grainOf st)) with
    | some r => (s, .error r)
    | none =>
      let (s, a) := if applied then (s, none) else s.accessCheck c p
      match a.orElse fun _ => (if applied then none else s.permFail op ns p).orElse fun _ =>
          (s.fieldFail c p st peer).orElse fun _ => s.spaceFail op with
      | some f => (s, .error (refusedOf f))
      | none => let (s, w) := s.workOf c p fn st peer; (s, .ok w)

end Sys2Proof.Machine
end

