-- ==== Sys2Proof/Machine/Lines.lean ====
section
/-! DEFINITION. A line of data DRAM as the RS(160,128) codeword that the devices hold (R267, R268). -/

namespace Sys2Proof.Machine

/-- A symbol's beat and device: symbol 10b + d is the byte that device d carries in beat b. -/
def symbolBeat (i : Nat) : Nat := i / 10
def symbolDevice (i : Nat) : Nat := i % 10

/-- Subchannel of a device: A (0) for devices 0 to 4, B (1) for 5 to 9. -/
def deviceSubchannel (d : Nat) : Nat := d / 5

/-- Devices 4 and 9 carry check symbols. -/
def checkDevice (d : Nat) : Bool := d = 4 || d = 9

/-- Symbol that carries data byte k of a line. -/
def dataSymbol (k : Nat) : Nat := 10 * (k / 8) + (if k % 8 < 4 then k % 8 else k % 8 + 1)

/-- Data byte that a symbol of a data device carries. -/
def symbolData (i : Nat) : Nat := 8 * symbolBeat i + (if symbolDevice i < 4 then symbolDevice i else symbolDevice i - 1)

/-- Check symbol that a symbol of device 4 or 9 is, in beat order (log entry 122). -/
def symbolCheck (i : Nat) : Nat := 2 * symbolBeat i + b2n (symbolDevice i = 9)

/-- The 160 symbols of a line of 128 bytes (R267). -/
def lineSymbols (b : Bytes) : Bytes :=
  let check := Config.rsCheck b
  (List.range 160).map fun i => if checkDevice (symbolDevice i) then check.getD (symbolCheck i) 0 else b.getD (symbolData i) 0

/-- The 128 data bytes of a line of 160 symbols. -/
def lineData (l : Bytes) : Bytes := (List.range 128).map fun k => l.getD (dataSymbol k) 0

/-- The poison signature: the line as read, with its 32 check symbols inverted (R273). -/
def poisonSignature (l : Bytes) : Bytes := l.zipIdx.map fun (b, i) => if checkDevice (symbolDevice i) then ~~~b else b

/-- The bytes of a merge entry laid over those of its line (R269). -/
def overlay (mask : BitVec 128) (entry line : Bytes) : Bytes :=
  (List.range 128).map fun i => if mask.getLsbD i then entry.getD i 0 else line.getD i 0

/-- The 16 symbols of a line that a device holds: d, 10 + d, up to 150 + d. -/
def deviceSymbols (l : Bytes) (d : Nat) : Bytes := (List.range 16).map fun b => l.getD (10 * b + d) 0

/-- Devices that hold some of the symbols at the given positions, each once. -/
def lineDevices (positions : List Nat) : List Nat := (List.range 10).filter fun d => positions.any fun p => symbolDevice p = d

end Sys2Proof.Machine
end

