-- ==== Sys2Proof/Machine/MediaWork.lean ====
section
/-! DEFINITION. What Delta does of its own: reads and retries (R236 to R238), program and erase outcomes (R254, R259, R260),
GC, folding, refresh (R229, R230, R255, R256), patrol (R240, R256), checkpoints (R233), the metadata region (R234, R235),
secure deletion (R257), the re-key sweep (R290), health (R261). -/

namespace Sys2Proof.Machine

/-! ## Reads (R236 to R238) -/

/-- A die, and a die changed. -/
def State.die (s : State) (channel die : Nat) : Die := mapGet {} s.delta.dies (dieKey channel die)
def State.updDie (s : State) (channel die : Nat) (f : Die → Die) : State :=
  s.updDelta fun d => { d with dies := mapUpd {} d.dies (dieKey channel die) f }

/-- Start level S of a die in a mode (0 SLC, 1 native), fixed by DIE_RETRY or as the die's reads have set it (R237). -/
def State.startLevel (s : State) (channel die mode : Nat) : Nat :=
  let r := mapGet 0 s.inForce.dieRetry (dieKey channel die)
  let d := s.die channel die
  if r.getLsbD 15 then r.toNat / 4096 % 8 else if mode = 0 then d.levelSlc else d.levelNat

/-- A start level changes: a MEDIA_RETRY record, and source 114 the first time the die reaches 5 (R237). -/
def State.setLevel (s : State) (channel die mode j : Nat) : State :=
  let d := s.die channel die
  let data := eventData [(1, channel), (1, die), (1, mode), (1, j)]
  let first := decide (5 ≤ j) && !d.raised
  let s := s.updDie channel die fun d =>
    { d with levelSlc := if mode = 0 then j else d.levelSlc, levelNat := if mode = 0 then d.levelNat else j,
             raised := d.raised || first }
  if first then s.raise 114 0 0 0x502 data else s.recordEvent 114 0 0x502 data

/-- A retried read succeeded at a level: the fourth in a row at the same level moves S there (R237). -/
def State.retried (s : State) (channel die mode j : Nat) : State :=
  let at_ := mapGet (8, 0) (s.die channel die).retryAt mode
  let n := if at_.1 = j then at_.2 + 1 else 1
  let s := s.updDie channel die fun d =>
    { d with retryAt := mapSet d.retryAt mode (j, if n = 4 then 0 else n), goodRun := mapSet d.goodRun mode 0 }
  if n = 4 then s.setLevel channel die mode j else s

/-- A read that was good at S; 65,536 in a row try S − 1 for the next one (R237). -/
def State.goodRead (s : State) (channel die mode level : Nat) : State :=
  let n := mapGet 0 (s.die channel die).goodRun mode + 1
  if n < 65536 ∨ level = 0 then s.updDie channel die fun d => { d with goodRun := mapSet d.goodRun mode (min n 65535) }
  else s.updDie channel die fun d => { d with goodRun := mapSet d.goodRun mode 0, trial := mapSet d.trial mode true }

/-- Levels tried before level `j` when reading starts at `start` (R236). -/
def levelSteps (start j : Nat) : Nat := if start ≤ j then j - start else (8 - start) + j

/-- Senses at levels other than S of a read that a hard or a soft decode corrects after `n` levels, from S or, on a trial, from
S − 1: one for a hard decode, three for a level tried in full (R242; log entry 40). -/
def hardSenses (trial : Bool) (n : Nat) : Nat :=
  if n = 0 then b2n trial else if trial && n == 1 then 3 else 3 * (n - 1) + 1
def softSenses (trial : Bool) (n : Nat) : Nat := if trial && n == 0 then 3 else 3 * n

/-- Counts a codeword read of a channel: soft decodes, senses at levels other than S. -/
def State.countCodeword (s : State) (channel soft senses : Nat) : State :=
  s.updDelta fun d => { d with
    channels := mapUpd {} d.channels channel fun c =>
      { c with codewords := inc64 c.codewords, soft := satAdd max64 c.soft soft, retries := satAdd max64 c.retries senses }
    health := { d.health with codewords := inc64 d.health.codewords, softDecodes := satAdd max64 d.health.softDecodes soft,
                              retries := satAdd max64 d.health.retries senses } }

/-- A codeword read's effect on counters and start levels (R236, R237, R242). -/
def State.codewordRead (s : State) (channel die mode : Nat) (o : CodewordOutcome) : State :=
  let level := s.startLevel channel die mode
  let fixed := (mapGet 0 s.inForce.dieRetry (dieKey channel die)).getLsbD 15
  let trial := mapGet false (s.die channel die).trial mode && !fixed && level != 0
  let start := if trial then level - 1 else level
  let s := if trial then s.updDie channel die fun d => { d with trial := mapSet d.trial mode false } else s
  match o with
  | .hard j bits =>
    let n := levelSteps start (j % 8)
    let s := s.countCodeword channel n (hardSenses trial n)
    if fixed then s
    else if trial ∧ n = 0 ∧ bits ≤ 32 then s.setLevel channel die mode start
    else if j % 8 = level then
      if bits ≤ 32 then s.goodRead channel die mode level
      else s.updDie channel die fun d => { d with goodRun := mapSet d.goodRun mode 0 }
    else s.retried channel die mode (j % 8)
  | .soft j =>
    let n := levelSteps start (j % 8)
    let s := s.countCodeword channel (n + 1) (softSenses trial n)
    if fixed then s
    else if j % 8 = level then s.updDie channel die fun d => { d with goodRun := mapSet d.goodRun mode 0 }
    else s.retried channel die mode (j % 8)
  | .failed =>
    (s.countCodeword channel 8 21).updDie channel die fun d => { d with goodRun := mapSet d.goodRun mode 0 }

/-- Units of the record that a read returns. -/
def State.readUnits (s : State) (w : Work) : Nat :=
  ((s.chain w.desc.ns.toNat w.key).find? fun v => v.stamp = w.result.version).elim 1 fun v =>
    recordUnits w.key.length (if v.kind = .tombstone then 0 else v.value.length)

/-- A read's next codeword in the fill order of its record's segment (R220, R236), and the mode and die index of the record. -/
def State.readAt (s : State) (w : Work) (l : Loc) : Nat × Nat × Nat × Nat :=
  let (_, d, m) := s.placeOf l
  let k := s.delta.kOf (m = 0)
  let c := codewordOf l.unit + w.cw
  (c, codewordChannel l.segment k c, d, m)

/-- A codeword of a command's record has been read: the next one follows, or its data goes to the cipher. -/
def State.codewordNext (s : State) (w : Work) (l : Loc) (cw : Nat) : State :=
  s.updWork w.stamp fun w =>
    { w with cw := cw, left := 0, row := [], phase := if codewordSpan l.unit (s.readUnits w) ≤ cw then .cipher else .media }

/-- The other pages of a row, each with its four codewords (R220, R238). -/
def rowPages (channel : Nat) : List (Nat × Nat) := ((List.range 32).filter (· != channel)).map fun c => (c, 4)

/-- One codeword of another page of the row has been read. -/
def rowRead (row : List (Nat × Nat)) (channel : Nat) : List (Nat × Nat) :=
  row.filterMap fun e => if e.1 ≠ channel then some e else if e.2 ≤ 1 then none else some (e.1, e.2 - 1)

/-- The codeword read that a die runs for a command ends (R236): the next codeword follows, or every level has failed and the row's other
pages are read for the XOR rebuild, on a command core (R12). A second page that fails ends the command (R238). What is read for a command that
has ended is dropped (R36). -/
def State.readDone (s : State) (channel die : Nat) (o : CodewordOutcome) : State :=
  match mapGet? s.delta.running (dieKey channel die) with
  | some (.read id) =>
    let s := s.freeDie (dieKey channel die)
    match s.work? id with
    | none => s
    | some w =>
      match w.phase, w.loc with
      | .media, some l =>
        let (_, _, d, m) := s.readAt w l
        let s := s.codewordRead channel d m o
        if w.left = 0 then
          if o = .failed then s.updWork id fun w => { w with left := 1, diverted := true, row := rowPages channel }
          else s.codewordNext w l (w.cw + 1)
        else if o = .failed then s.unreadable w l
        else s.updWork id fun w => { w with row := rowRead w.row channel }
      | _, _ => s
  | _ => s

/-- A segment is queued for refresh (R256). Causes of source 132: 1 soft decode or retry level, 2 XOR rebuild, 3 threshold. -/
def State.queueRefresh (s : State) (seg cause : Nat) : State :=
  match s.segment? seg with
  | none => s
  | some g =>
    if g.refresh then s
    else
      (s.updSegment seg fun g => { g with refresh := true }).raiseLimited 132 0 0 0 (some 0x511) fun n =>
        eventData [(2, seg), (1, cause), (4, n)]

/-- A page of a channel that holds a location is rebuilt from its row (R238): it counts, source 115, and its segment goes to refresh. -/
def State.rebuilt (s : State) (l : Loc) (channel : Nat) : State :=
  let s := s.updDelta fun d => { d with
    channels := mapUpd {} d.channels channel fun c => { c with rebuilds := inc64 c.rebuilds }
    health := { d.health with rebuilds := inc64 d.health.rebuilds } }
  (s.raiseLimited 115 0 0 0 (some 0x503) fun n => eventData [(8, s.locationWord l), (4, n)]).queueRefresh l.segment 2

/-- What an internal requester reads of a record (R236, R255): its codewords in fill order, each on its die; one that no level decodes is
rebuilt from its row, or lost. -/
def State.sourceRead (s : State) (l : Loc) (reads : List CodewordOutcome) (lost : Bool) : State :=
  match s.segment? l.segment with
  | none => s
  | some g =>
    let channel (i : Nat) : Nat := codewordChannel l.segment (s.delta.kOf g.slc) (codewordOf l.unit + i)
    reads.zipIdx.foldl (fun s (o, i) =>
      let s := s.codewordRead (channel i) (s.delta.dieIndex g.group) (b2n !g.slc) o
      if o = .failed ∧ !lost then s.rebuilt l (channel i) else s) s

/-- A command's page is rebuilt once the 31 other pages of its row are read (R238): the reading goes on behind that page. -/
def State.xorRebuild (s : State) (id : Stamp) : State :=
  match s.work? id with
  | none => s
  | some w =>
    match w.phase, w.loc with
    | .media, some l =>
      if w.left = 0 ∨ w.row ≠ [] then s
      else
        let (c, ch, _, _) := s.readAt w l
        (s.rebuilt l ch).codewordNext w l (4 * (c / 4 + 1) - codewordOf l.unit)
    | _, _ => s

/-! ## Space retries -/

/-- Writes that wait for room in an open segment try again in stamp order (R226, R192). -/
def State.retryPlaces (s : State) : State :=
  (s.works.filter fun w => w.phase = .media && isWriteOp w.op).foldl (fun s w => s.placeWork w) s

/-! ## Spares and wear (R259, R261) -/

/-- Source 123 at a tenth of the initial spares, rounded up, and 124 at none (R259). -/
def State.spareEvents (s : State) (channel die : Nat) : State :=
  let d := s.die channel die
  let s := if d.spares ≤ ceilDiv d.spares0 10 ∧ !d.lowRaised then
      ((s.updDie channel die fun d => { d with lowRaised := true }).updDelta fun d => { d with sparesLow := true }).raise
        123 0 0 0x50B (eventData [(1, channel), (1, die), (2, d.spares)])
    else s
  if d.spares = 0 then s.raise 124 0 0 0x50B (eventData [(1, channel), (1, die)]) else s

/-- A block is retired: one spare of its die is used. With none left the device seals (R260): the event is ranked after
every other of its class. -/
def State.retire (s : State) (channel die block segment : Nat) : State :=
  if (s.die channel die).spares = 0 then
    s.updCol fun c => { c with intake := c.intake ++ [.seal channel die block segment] }
  else
    (s.updDie channel die fun d => { d with retired := d.retired + 1, spares := d.spares - 1 }).spareEvents channel die

/-- An erase that a die runs ends. -/
def State.endErase (s : State) (channel die block : Nat) : Option State :=
  if mapGet? s.delta.running (dieKey channel die) = some (.erase block) then some (s.freeDie (dieKey channel die)) else none

/-- A released block that its die erases has been erased (R224): it counts one cycle and is free. -/
def State.eraseDone (s : State) (channel die block : Nat) : State :=
  match s.endErase channel die block with
  | none => s
  | some s =>
  if block ∈ (s.die channel die).released then
    let s := s.updDie channel die fun d =>
      { d with released := d.released.filter (· != block), erased := block :: d.erased, wear := mapUpd 0 d.wear block (· + 1) }
    (s.updDelta fun d => { d with erases := inc64 d.erases }).wearEvents
  else s

/-- An erase fails at its stamp: the block is retired (R254). -/
def State.eraseFailApply (s : State) (channel die block : Nat) : State :=
  match s.endErase channel die block with
  | none => s
  | some s =>
  if block ∈ (s.die channel die).released then
    let s := s.updDie channel die fun d => { d with released := d.released.filter (· != block) }
    let s := s.updDelta fun d => { d with eraseFails := inc64 d.eraseFails,
                                          health := { d.health with eraseFails := inc64 d.health.eraseFails } }
    (s.raise 122 0 0 0x50A (eventData [(1, channel), (1, die), (2, block)])).retire channel die block (2 ^ 32)
  else s

/-! ## Programs (R227, R254) -/

/-- A slice image is wholly programmed: the catalogue takes it, and checkpoint segments that hold no latest image go (R233). -/
def State.imagesDone (s : State) : State :=
  let whole (i : Nat × Nat × Nat × Nat) : Bool := (s.segment? i.2.1).any fun g => decide (i.2.2.1 ≤ g.done)
  let ready := s.delta.imaging.filter whole
  let s := ready.foldl (fun s (slice, seg, _, w) =>
    (s.updDelta fun d => { d with images := mapSet d.images slice seg }).updIndex fun i =>
      { i with ckptW := mapSet i.ckptW slice w }) s
  let s := if ready.isEmpty then s else s.metaWrite 32
  let s := s.updDelta fun d => { d with imaging := d.imaging.filter fun i => !(i ∈ ready) }
  let idle := s.delta.segments.filter fun e => e.2.stream = 5 && !e.2.open_ && e.2.freeAt = 0 &&
    (s.delta.images.all fun i => i.2 != e.1) && s.delta.imaging.all fun i => i.2.1 != e.1
  (idle.foldl (fun s e => s.markFree e.1) s).releaseJournal

/-- Moves one placed record to a new place: holders follow, a buffered journal entry takes the new location, and a MOVE entry
says it where the entry has left the buffer (R250, R254). None where there is no room. -/
def State.replaceRecord (s : State) (seg stream : Nat) (p : Placed) : Option State :=
  let old : Loc := { segment := seg, unit := p.unit }
  match s.placeStream stream p.units fun l => some { p with unit := l.unit } with
  | none => none
  | some (s, l) =>
    let buffered := s.delta.journal.any fun j => j.loc = old && j.stamp = p.stamp
    let s := s.relocate p.ns p.key old l
    let s := s.updDelta fun d => { d with journal := d.journal.map fun j => if j.loc = old then { j with loc := l } else j }
    if buffered then some s
    else
      let (s, q) := s.takeSeq 1
      some (s.journalPut [{ ns := p.ns, fp := p.fp, stamp := p.stamp, wseq := q, kind := 5, loc := l, length := p.body.value.length }])

/-- The failed program unit's records go to the next open segment of their stream; the unit stays undone while one has no
room (R254). A parity page that failed holds no record: its row goes without it. -/
def State.replaceUnit (s : State) (n : Nat) : State :=
  match s.segment? n with
  | none => s
  | some g =>
    if g.parityDue (s.delta.kOf g.slc) then (s.updSegment n fun x => { x with broken := false }).programUnit n g s.col.last
    else
    let e := progEnd (s.delta.kOf g.slc) g.done
    let hit := g.recs.filter fun p => decide (p.unit < e ∧ g.done < p.unit + p.units)
    let moved (acc : Option State) (p : Placed) : Option State := acc.bind fun s => s.replaceRecord n g.stream p
    match hit.foldl moved (some s) with
    | none => s
    | some s =>
      let s := s.updSegment n fun x => { x with broken := false, recs := x.recs.filter fun p => !(p ∈ hit) }
      match s.segment? n with
      | none => s
      | some g => s.programUnit n g s.col.last

/-- The die that runs a journal page's program, freed: none where no die does. -/
def State.endJournal (s : State) : Option State :=
  (s.delta.running.find? fun e => e.2 = .journal).map fun e => s.freeDie e.1

/-- Data bytes of a checkpoint slice (R233). -/
def State.sliceBytes (s : State) (slice : Nat) : Nat :=
  let a := s.indexArea
  let size := ceilDiv (ceilDiv a 240) 1048576 * 1048576
  min size (a - slice * size)

/-- A slice's image is written into stream 5 (R233): the open segment takes it, or the next in the next group. -/
def State.writeImage (s : State) (slice w : Nat) : State :=
  let cap := s.delta.capacity false
  let units := min cap (ceilDiv (s.sliceBytes slice) 16384 * 64)
  match s.ckptSegment units with
  | none => s
  | some (s, n) =>
    let start := ((s.segment? n).map Segment.filled).getD 0
    (s.updSegment n fun g => { g with filled := g.filled + units }).updDelta fun d =>
      { d with ckptBytes := satAdd max64 d.ckptBytes (s.sliceBytes slice), imaging := d.imaging ++ [(slice, n, start + units, w)] }

/-- Slice images that a failed checkpoint segment was taking are written again in the next one (R254). -/
def State.imagesAgain (s : State) (n : Nat) : State :=
  let l := s.delta.imaging.filter fun i => i.2.1 = n
  l.foldl (fun s i => s.writeImage i.1 i.2.2.2) (s.updDelta fun d => { d with imaging := d.imaging.filter fun i => i.2.1 != n })

/-- "Media done" at its stamp (P1): the program of a slot that a die runs, or that of the journal page, is done (R227, R232, R239). -/
def State.programApply (s : State) (slot : Nat) (st : Stamp) : State :=
  if slot = 64 then (s.endJournal.map State.programJournal).getD s
  else
    match s.nextProgram slot with
    | none => s
    | some (key, n, g) =>
      let s := s.freeDie key
      let s := if g.broken then s.replaceUnit n else if g.ready (s.delta.kOf g.slc) then s.programUnit n g st else s
      if slot = 65 then s.imagesDone else s

/-- A program fails at its stamp (R254): the block is retired, the segment closed and padded and marked the next victim, and
the unit's records placed again. -/
def State.programFailApply (s : State) (slot channel : Nat) : State :=
  let at_ := if slot = 64 then s.endJournal.bind fun s => s.journalOpen.bind fun (s, n) => (s.segment? n).map fun g => (s, n, g)
    else (s.nextProgram slot).map fun (key, n, g) => (s.freeDie key, n, g)
  match at_ with
  | none => s
  | some (s, n, g) =>
    let die := s.delta.dieIndex g.group
    let block := g.blocks.getD (channel % 32) 0
    let s := s.updDelta fun d => { d with programFails := inc64 d.programFails,
                                          health := { d.health with programFails := inc64 d.health.programFails } }
    let s := s.raise 121 0 0 0x509 (eventData [(1, channel), (1, die), (2, block), (1, g.stream)])
    let s := (s.closeEarly n).updSegment n fun x =>
      { x with failed := true, broken := decide (slot ≠ 64), bad := channel % 32 :: x.bad }
    let last := decide ((s.die (channel % 32) die).spares = 0)
    let s := s.retire (channel % 32) die block n
    if slot = 64 ∨ last then s else (s.imagesAgain n).replaceUnit n

/-- The device seals (R260): the failed unit's records go to other groups, writes not past their point of no return are refused,
everything open is forced, and the mode is SEALED. DEDUCED (log entry 105): R15 has a row for SERVICE and PAIRED; in MAINTENANCE the mode
stays until the link test ends, or until the activation's REBUILD finds the marker, and in REBUILD the row of the marker applies. -/
def State.sealApply (s : State) (channel die block segment st : Nat) : State :=
  if s.delta.sealed then s
  else
    let s := if (s.segment? segment).isSome then s.replaceUnit segment else s
    let late := s.works.filter fun w => isWriteOp w.op && !w.ponr && !w.posted && decide (w.stamp < st)
    let s := late.foldl (fun s w => s.endWithout w { status := .sealed }) s
    let s := (s.forceAll.updDelta fun d => { d with sealed := true }).metaWrite 0
    let s := if s.mode = .service ∨ s.mode = .paired then s.enterMode .sealed else s
    s.raise 125 0 st 0x50C (eventData [(1, channel), (1, die), (2, block)])

/-! ## GC, folding, refresh (R229, R230, R255, R256) -/

/-- Copies one live record into a stream with its MOVE entry (R230, R250). -/
def State.copyRecord (s : State) (seg stream : Nat) (p : Placed) : Option State :=
  let old : Loc := { segment := seg, unit := p.unit }
  if !s.journalRoom 1 then none
  else
    match s.placeStream stream p.units fun l => some { p with unit := l.unit } with
    | none => none
    | some (s, l) =>
      let (s, q) := s.takeSeq 1
      some ((s.relocate p.ns p.key old l).journalPut
        [{ ns := p.ns, fp := p.fp, stamp := p.stamp, wseq := q, kind := 5, loc := l, length := p.body.value.length }])

/-- The next record of a segment that a copying step takes, in placement order: live, and not in the lost-record list (R230, R255). -/
def State.nextLive (s : State) (n : Nat) : Option Placed :=
  (s.segment? n).bind fun g => g.recs.find? fun p =>
    s.live p n && !(s.delta.lostList.any fun l => l.1 = p.ns && l.2.1 = p.fp && l.2.2 = p.stamp)

/-- A live record that cannot be rebuilt is lost (R255): it enters the lost-record list with source 130, or the full list keeps
the victim with source 131. The Bool says whether the list took it. -/
def State.loseRecord (s : State) (seg : Nat) (p : Placed) : State × Bool :=
  if Config.lostRecords ≤ s.delta.lostList.length then
    let first := !s.delta.lostFull
    let s := (s.updSegment seg fun g => { g with lost := true }).updDelta fun d => { d with lostFull := true }
    (if first then s.raise 131 0 0 0x510 (eventData [(4, Config.lostRecords)]) else s, false)
  else
    let s := (s.metaWrite 32).updDelta fun d => { d with
      lostList := d.lostList ++ [(p.ns, p.fp, p.stamp)], lostCount := inc64 d.lostCount,
      health := { d.health with lost := inc64 d.health.lost } }
    (s.raise 130 0 p.stamp 0x510
      (eventData [(8, s.locationWord { segment := seg, unit := p.unit }), (8, p.fp.toNat)]), true)

/-- Versions that left the index leave the lost-record list (R255). -/
def State.lostSweep (s : State) : State :=
  if s.delta.lostList.isEmpty then s
  else
    s.updDelta fun d =>
      let l := d.lostList.filter fun (ns, fp, st) =>
        s.index.keys.any fun k => k.ns = ns && k.fp = fp && k.versions.any fun v => v.stamp = st
      { d with lostList := l, lostFull := d.lostFull && decide (Config.lostRecords ≤ l.length) }

/-- Background copying is allowed: no power-fail flush, not SEALED, GC not paused by PS2 or PS3 (R123, R248, R260). -/
def State.copies (s : State) : Bool :=
  !s.delta.sealed && !s.pins.pwrFail && decide (s.host.power < 2) && decide (s.delta.total ≠ 0)

/-- A closed segment whose programs are done and that is not released. -/
def Segment.settled (g : Segment) : Bool := !g.open_ && g.freeAt = 0 && decide (g.done = g.filled ∧ g.filled ≤ g.par) && !g.lost

/-- Victim order: failed ones first, then those queued for refresh, then the lowest live bytes, then the lowest open
sequence (R230, R254, R256). -/
def State.victimRank (s : State) (e : Nat × Segment) : Nat :=
  let cls := if e.2.failed then 0 else if e.2.refresh then 1 else 2
  (cls * 2 ^ 64 + (if cls = 2 then s.liveBytes e.1 e.2 else 0)) * 2 ^ 64 + e.2.openSeq

/-- The lowest-ranked of a list of segments. -/
def leastBy (rank : Nat × Segment → Nat) (l : List (Nat × Segment)) : Option (Nat × Segment) :=
  l.foldl (fun acc e => match acc with
    | none => some e
    | some a => if rank e < rank a then some e else some a) none

/-- A source segment whose last live record has moved, or is lost, is released. -/
def State.reclaimed (s : State) (n : Nat) : State :=
  if (s.nextLive n).isSome then s
  else
    let s := if (s.segment? n).any Segment.refresh then s.updDelta fun d =>
        { d with refreshes := inc64 d.refreshes, health := { d.health with refreshed := inc64 d.health.refreshed } } else s
    s.markFree n

/-- A step of reclaiming a source segment: its next live record is copied into a stream, or is lost (R230, R255); a full lost-record list
keeps the segment. -/
def State.reclaim (s : State) (n : Nat) (stream : Nat) (lost fold : Bool) : State :=
  match s.nextLive n with
  | none => s.reclaimed n
  | some p =>
    if lost then
      let (s, ok) := s.loseRecord n p
      if ok then s.reclaimed n else s
    else match s.copyRecord n stream p with
      | none => s
      | some s =>
        let s := s.updDelta fun d =>
          if fold then { d with foldCopied := satAdd max64 d.foldCopied (256 * p.units) }
          else { d with gcCopied := satAdd max64 d.gcCopied (256 * p.units) }
        s.reclaimed n

/-- GC's victim (R230). -/
def State.gcVictim (s : State) : Option (Nat × Segment) :=
  leastBy s.victimRank (s.delta.segments.filter fun e => e.2.settled && decide (1 ≤ e.2.stream ∧ e.2.stream ≤ 3))

/-- The SLC segment to fold (R229), while the budget or the free segments call for it or a refresh asks. -/
def State.foldVictim (s : State) : Option (Nat × Segment) :=
  let due := decide (s.slcBudget < s.delta.slcInUse) || decide (100 * s.delta.free ≤ 15 * s.delta.total)
  leastBy (fun e => (if e.2.failed then 0 else if e.2.refresh then 1 else 2) * 2 ^ 64 + e.2.openSeq)
    (s.delta.segments.filter fun e => e.2.settled && e.2.stream = 0 && (due || e.2.refresh || e.2.failed))

/-- One record of GC's victim is copied into stream 3 (R230). -/
def State.gcStep (s : State) (lost : Bool) : State :=
  match s.gcVictim with
  | some (n, _) => if s.copies then s.reclaim n 3 lost false else s
  | none => s

/-- One record of an SLC segment is folded into stream 1 (R229). -/
def State.foldStep (s : State) (lost : Bool) : State :=
  match s.foldVictim with
  | some (n, _) => if s.copies then s.reclaim n 1 lost true else s
  | none => s

/-- The segment to refresh (R256). -/
def State.refreshVictim (s : State) : Option (Nat × Segment) :=
  leastBy (fun e => e.2.openSeq) (s.delta.segments.filter fun e => e.2.settled && e.2.refresh && !e.2.failed)

/-- A step of refreshing a queued segment (R256): native data by copying into stream 3, SLC data by folding, a record each; a journal
segment by copying its needed pages to the open one, a checkpoint segment by fresh images. -/
def State.refreshStep (s : State) (lost : Bool) : State :=
  let done (s : State) (n : Nat) : State :=
    (s.updDelta fun d => { d with refreshes := inc64 d.refreshes, health := { d.health with refreshed := inc64 d.health.refreshed } }).markFree n
  if !s.copies then s
  else
    match s.refreshVictim with
    | none => s
    | some (n, g) =>
      if g.stream = 0 then s.reclaim n 1 lost true
      else if g.stream ≤ 3 then s.reclaim n 3 lost false
      else if g.stream = 4 then
        match mapGet? s.delta.slots 64 with
        | none => s
        | some o =>
          let pages := g.jpages.filter fun p => p.any fun j => decide (s.lowestW ≤ j.wseq)
          let units := 64 * pages.length
          if (s.segment? o).any fun x => decide (x.filled + units ≤ s.delta.capacity true) then
            let (s, q) := s.takeSeq pages.length
            done (s.updSegment o fun x => { x with
              filled := x.filled + units, done := x.done + units, par := x.done + units, jpages := x.jpages ++ pages
              seqs := x.seqs ++ [(x.done, false, q)], high := max x.high g.high }) n
          else s
      else
        let held := s.delta.images.filter fun i => i.2 = n
        let s := held.foldl (fun s i => s.writeImage i.1 s.index.wseq) s
        (s.updSegment n fun g => { g with refresh := false }).updDelta fun d =>
          { d with refreshes := inc64 d.refreshes, health := { d.health with refreshed := inc64 d.health.refreshed } }

/-! ## Patrol (R240, R256) -/

/-- Programmed pages of the segments that are not released (R240); those that this cycle has not read; and those of them that come first:
the ones that the cycle before has missed. -/
def State.patrolPages (s : State) : List (Nat × Nat × Nat) :=
  (s.delta.segments.filter fun e => e.2.freeAt = 0).flatMap fun e => e.2.writtenPages e.1 (s.delta.kOf e.2.slc)
def State.patrolLeft (s : State) : List (Nat × Nat × Nat) := s.patrolPages.filter fun p => !(p ∈ s.delta.patrolSeen)
def State.patrolNext (s : State) : List (Nat × Nat × Nat) :=
  let first := s.patrolLeft.filter fun p => p ∈ s.delta.patrolFirst
  if first = [] then s.patrolLeft else first

/-- Grains of a patrol period. -/
def State.patrolPeriod (s : State) : Nat := s.inForce.patrol * 86400 * 1000000

/-- Patrol runs now (R38, R123, R240). -/
def State.patrols (s : State) : Bool :=
  s.calendarPatrol != some 0 && decide (s.host.power < 3) && !s.pins.pwrFail && decide (s.delta.total ≠ 0)

/-- What a codeword that patrol reads asks for (R256), as a cause of source 132: 2 an XOR rebuild, 1 a soft decode or another level than S, 3
more corrected bits than the threshold; 0 nothing. -/
def State.patrolCause (s : State) (channel die mode : Nat) : CodewordOutcome → Nat
  | .failed => 2
  | .soft _ => 1
  | .hard j bits => if j % 8 ≠ s.startLevel channel die mode then 1 else if s.inForce.refresh < bits then 3 else 0

/-- Corrected bits of a codeword. -/
def correctedBits : CodewordOutcome → Nat
  | .hard _ bits => bits
  | _ => 0

/-- Patrol reads codewords of a block (R236, R240): they count, and what they ask for. -/
def State.patrolCodewords (s : State) (n channel : Nat) (g : Segment) (reads : List CodewordOutcome) : State × List Nat :=
  let die := s.delta.dieIndex g.group
  reads.foldl (fun acc o =>
    let cause := acc.1.patrolCause channel die (b2n !g.slc) o
    let t := acc.1.codewordRead channel die (b2n !g.slc) o
    (if cause = 2 then t.rebuilt { segment := n, unit := 0 } channel else t, acc.2 ++ [cause])) (s, [])

/-- The segment of what patrol has read is queued for refresh where a codeword asks for it (R256). -/
def State.patrolQueue (s : State) (n : Nat) (causes : List Nat) : State :=
  match [2, 1, 3].find? fun c => c ∈ causes with
  | some c => s.queueRefresh n c
  | none => s

/-- Patrol reads a programmed page that is its turn, at the die's start level (R240, R256); a block whose worst codeword passes half the
threshold is to be read again. -/
def State.patrolRead (s : State) (n channel page : Nat) (reads : List CodewordOutcome) : State :=
  match s.segment? n with
  | none => s
  | some g =>
    if !s.patrols ∨ !((n, channel, page) ∈ s.patrolNext) then s
    else
      let s := s.updDelta fun d => { d with patrolSeen := (n, channel, page) :: d.patrolSeen,
                                            health := { d.health with patrolled := inc64 d.health.patrolled } }
      let (s, causes) := s.patrolCodewords n channel g reads
      let s := s.patrolQueue n causes
      let known := s.delta.tracked.any fun t => t.1 = n && t.2.1 = channel
      if (reads.any fun o => decide (s.inForce.refresh / 2 < correctedBits o)) ∧ !known ∧ s.delta.tracked.length < 1024 then
        s.updDelta fun d => { d with tracked := d.tracked ++ [(n, channel, s.grain)] }
      else s

/-- A second has passed since the last rate (R240). -/
def State.rateDue (s : State) : Bool := decide (s.delta.rateAt + 1000000 ≤ s.localUs)

/-- Once a second the rate is set to the pages left divided by the time left (R240). -/
def State.patrolRateUpdate (s : State) : State :=
  let left := s.patrolLeft.length
  let time := (s.delta.patrolStart + s.patrolPeriod - s.grain) / 1000000
  s.updDelta fun d => { d with rateAt := s.localUs, patrolTodo := left, patrolRate := if s.patrols then ceilDiv left (max 1 time) else 0 }

/-- Patrol is behind its schedule (R239): a smaller part of the pages has been read than of the period has passed. -/
def State.patrolBehind (s : State) : Bool :=
  let all := s.patrolPages.length
  s.patrols && decide ((all - s.patrolLeft.length) * s.patrolPeriod < all * min s.patrolPeriod (s.grain - s.delta.patrolStart))

/-- A quarter period has passed since a block was tracked (R256), and the period of the cycle since its start (R240). -/
def State.rereadDue (s : State) (n channel : Nat) : Bool :=
  s.delta.tracked.any fun t => t.1 = n && t.2.1 = channel && decide (t.2.2 + s.patrolPeriod / 4 ≤ s.grain)
def State.cycleDue (s : State) : Bool := decide (s.delta.patrolStart + s.patrolPeriod ≤ s.grain)

/-- A tracked block has its pages read again a quarter period later (R256). -/
def State.patrolReread (s : State) (n channel : Nat) (reads : List CodewordOutcome) : State :=
  match s.segment? n with
  | none => s
  | some g =>
    if !s.patrols ∨ !(s.delta.tracked.any fun t => t.1 = n && t.2.1 = channel) then s
    else
      let s := s.updDelta fun d => { d with
        tracked := d.tracked.filter fun t => t.1 != n || t.2.1 != channel
        health := { d.health with patrolled := satAdd max64 d.health.patrolled (ceilDiv reads.length 4) } }
      let (s, causes) := s.patrolCodewords n channel g reads
      s.patrolQueue n causes

/-- A patrol cycle ends: unread pages are counted, and read first in the next one (R240). -/
def State.patrolCycleEnd (s : State) : State :=
  let missed := s.patrolLeft
  let s := s.updDelta fun d => { d with
    patrolSeen := [], patrolFirst := missed, patrolStart := s.grain, patrolTodo := missed.length
    health := { d.health with missed := satAdd max64 d.health.missed missed.length } }
  if missed = [] then s else s.raise 133 0 0 0x512 (eventData [(4, missed.length)])

/-! ## Checkpoints (R233) -/

/-- 250 ms of external time have passed since the last checkpoint timer (R233). -/
def State.ckptDue (s : State) : Bool := s.delta.ckptAt.all fun g => decide (g + 250000 ≤ s.grain)

/-- The checkpoint timer at its stamp: the next slice in rotation; a changed one is to be written with the write sequence that is current
now, another has its W renewed. -/
def State.checkpointApply (s : State) (lines : List (DramLine × LineOutcome)) : State :=
  let slice := s.index.ckptNext
  let w := s.index.wseq
  let s := (s.updIndex fun i => { i with ckptNext := (slice + 1) % 240 }).updDelta fun d => { d with ckptAt := some s.grain }
  if s.delta.sealed ∨ s.pins.pwrFail ∨ s.delta.total = 0 ∨ slice ∈ s.index.heldSlices then s
  else if slice ∈ s.index.ckptDirty ∨ (mapGet? s.delta.images slice).isNone then s.arrive (.step (.checkpoint slice w lines) [])
  else ((s.updIndex fun i => { i with ckptW := mapSet i.ckptW slice w }).metaWrite 32).releaseJournal

/-! ## Metadata region (R234, R235) -/

/-- A log block of the metadata region is merged, by switch or copy; a unit whose copy fails falls back with source 119. -/
def State.metadataMerge (s : State) (logical unit channel die : Nat) (inOrder copyFails : Bool) : State :=
  let s := s.updDelta fun d => { d with
    merging := d.merging.filter (· != logical), fallbacks := d.fallbacks.filter fun f => f.1 != logical,
    copyMerges := if inOrder then d.copyMerges else inc64 d.copyMerges }
  if copyFails then
    (s.updDelta fun d => { d with fallbacks := d.fallbacks ++ [(logical, unit)],
                                  health := { d.health with copyFalls := inc64 d.health.copyFalls } }).raise 119 0 0 0x507
      (eventData [(2, logical), (2, unit), (1, channel), (1, die)])
  else s

/-! ## Secure deletion (R257) -/

/-- Segments that hold a record of the key other than the deletion's own. -/
def State.secureSegments (s : State) (ns : Nat) (key : Bytes) (own : Stamp) : List Nat :=
  (s.delta.segments.filter fun e => decide (e.2.stream ≤ 3) && e.2.recs.any fun p => p.ns = ns && p.key = key && p.stamp != own).map Prod.fst

/-- The intent of a DELETE_SECURE that has reached its erase (steps 1 and 2): its candidates are closed. -/
def State.secureIntent (s : State) (w : Work) : State :=
  let i := w.items.headD default
  let l := s.secureSegments w.desc.ns.toNat i.key w.bound
  let s := l.foldl (fun s n => if (s.segment? n).any Segment.open_ then s.closeEarly n else s) s
  (s.metaWrite 32).updDelta fun d => { d with intents := d.intents ++ [
    { ns := w.desc.ns.toNat, fp := i.fp, key := i.key, stamp := w.stamp, segments := l, todo := l, after := s.col.last + 1 }] }

/-- The intent of a DELETE_SECURE by its stamp, and an intent changed. -/
def State.intent? (s : State) (id : Stamp) : Option Intent := s.delta.intents.find? fun i => i.stamp = id
def State.updIntent (s : State) (id : Stamp) (f : Intent → Intent) : State :=
  s.updDelta fun d => { d with intents := d.intents.map fun x => if x.stamp = id then f x else x }

/-- The DELETE_SECURE's intent is written when its erase phase begins. -/
def State.withIntent (s : State) (id : Stamp) : State :=
  match s.work? id, s.intent? id with
  | some w, none => if w.phase = Phase.erase then s.secureIntent w else s
  | _, _ => s

/-- A candidate segment is walked: its next live record moves to stream 3 (step 3). -/
def State.secureRelocate (s : State) (id : Stamp) : State :=
  let s := s.withIntent id
  match s.intent? id with
  | none => s
  | some i =>
    match i.todo with
    | [] => s
    | n :: rest =>
      let next (s : State) : State :=
        if (s.nextLive n).isSome then s else s.updIntent id fun x => { x with todo := rest, after := s.col.last + 1 }
      if s.pins.pwrFail ∨ s.delta.sealed then s
      else match s.nextLive n with
        | none => next s
        | some p => (s.copyRecord n 3 p).elim s next

/-- Erases the blocks of one segment. -/
def State.eraseSegment (s : State) (n : Nat) : State :=
  match s.segment? n with
  | none => s
  | some g =>
    let die := s.delta.dieIndex g.group
    let dies := (g.blocks.zipIdx.filter fun e => !(e.2 ∈ g.bad)).foldl (fun m (b, c) =>
      mapUpd {} m (dieKey c die) fun d => { d with erased := b :: d.erased, wear := mapUpd 0 d.wear b (· + 1) }) s.delta.dies
    let s := s.queueRelease (g.handles.map Prod.snd) g.owner 0
    s.updDelta fun d => { d with dies := dies, segments := mapErase d.segments n
                                 erases := satAdd max64 d.erases g.blocks.length, slots := d.slots.filter fun e => e.2 != n }

/-- Steps 4 and 5: once earlier commands have completed and its programs are done, the segments are erased, the intent goes, and
the command completes with the blocks erased. -/
def State.secureErase (s : State) (id : Stamp) : State :=
  match s.intent? id with
  | none => s
  | some i =>
    let earlier := s.works.any fun w => !w.posted && w.phase != .erase && decide (w.stamp < i.after)
    let busy := i.segments.any fun n => (s.segment? n).any fun g => decide (g.done < g.filled)
    if !i.todo.isEmpty ∨ earlier ∨ busy ∨ s.pins.pwrFail then s
    else
      let blocks := 32 * i.segments.length
      let s := (i.segments.foldl State.eraseSegment s).wearEvents
      let s := (s.updDelta fun d => { d with intents := d.intents.filter fun x => x.stamp != id }).metaWrite 32
      let owner := ((s.space? i.ns).map fun n => n.params.owner).getD 0
      let data := eventData [(2, i.ns), (4, blocks)]
      let s := (s.raiseOnly 134 owner id data).record 0x204 id (eventPayload 134 owner true data ++ leBytes 8 i.fp.toNat)
      match s.work? id with
      | none => s
      | some w => s.deliver w { w.result with commit := w.stamp, length := blocks }

/-! ## Re-key sweep (R290) -/

/-- A version of the page's namespaces whose record lies under the previous generation, and is not lost. -/
def State.sweepTarget (s : State) (page gen : Nat) : Option (KeyEntry × Version) :=
  (s.index.keys.filterMap fun k =>
    if (s.space? k.ns).any fun n => n.params.page = page then
      (k.versions.find? fun v => v.page = page && v.gen = gen && v.loc.isSome && v.secured = 0 &&
        !(s.delta.lostList.any fun l => l.1 = k.ns && l.2.1 = k.fp && l.2.2 = v.stamp)).map fun v => (k, v)
    else none).head?

/-- The record that a version names: a version and its later TOUCHes may share it (R52). -/
def State.recordOf (s : State) (k : KeyEntry) (v : Version) (l : Loc) : Placed :=
  (((s.segment? l.segment).map Segment.recs).bind fun r => r.find? fun p => p.unit = l.unit && p.key = k.key).getD
    { ns := k.ns, fp := k.fp, key := k.key, stamp := v.stamp, wseq := v.wseq, unit := l.unit,
      units := recordUnits k.key.length v.value.length, body := v.body }

/-- The sweep's work units wait for every other (R281). -/
def State.sweepWaits (s : State) : Bool := s.pairs.isEmpty || s.nextUnit.isSome || !s.gorge.rx.isEmpty

/-- A swept record has moved (R290): every version that names it holds the new generation, counter and place. -/
def State.renew (s : State) (page gen number counter : Nat) (ns : Nat) (key : Bytes) (at_ : List Stamp) : State :=
  (s.updIndex fun i => { i with keys := i.keys.map fun e =>
    if e.ns = ns ∧ e.key = key then { e with versions := e.versions.map fun x =>
      if x.page = page ∧ x.gen = gen ∧ x.stamp ∈ at_ then { x with gen := number, counter := counter } else x } else e }).updPage page
    fun p => { p with rewritten := p.rewritten + 1 }

/-- One record is decrypted and re-encrypted under the current generation, or its failing tag makes it lost (R290, R255); DEDUCED
(log entry 141): the stamp of source 162 is then the version's. -/
def State.rekeyStep (s : State) (page : Nat) (tagFails : Bool) : State :=
  match s.keyPage? page with
  | none => s
  | some p =>
    match p.sweep, p.previous with
    | true, some prev =>
      if s.delta.sealed ∨ s.pins.pwrFail then s
      else
        match s.sweepTarget page prev.number with
        | none => s.sweepDone page p
        | some (k, v) =>
          match v.loc with
          | none => s
          | some old =>
            let rec_ := s.recordOf k v old
            let len := v.value.length
            let blocks := ceilDiv k.key.length 16 + ceilDiv len 16
            if s.sweepWaits then s
            else if tagFails then
              let s := (s.unitRun false (usesOf len) blocks).updGorge fun g => { g with tagFails := inc64 g.tagFails }
              let s := s.raise 162 p.owner v.stamp 0x702 (eventData [(1, page), (1, prev.number), (8, s.locationWord old)])
              (s.loseRecord old.segment { rec_ with stamp := v.stamp, wseq := v.wseq }).1
            else
              match s.takeUses page p.current.number (usesOf len) false 0 with
              | (_, none) => s
              | (s1, some c) =>
                match s1.copyRecord old.segment 3 { rec_ with body := { rec_.body with gen := p.current.number, counter := c } } with
                | none => s
                | some s2 =>
                  let shared := (k.versions.filter fun x => x.loc = some old).map Version.stamp
                  let s2 := (s2.renew page prev.number p.current.number c k.ns k.key shared).unitRun false (usesOf len) blocks
                  let s2 := s2.unitRun true (usesOf len) blocks
                  match s2.sweepTarget page prev.number, s2.keyPage? page with
                  | none, some p => s2.sweepDone page p
                  | _, _ => s2
    | _, _ => s

/-! ## Removal of a namespace (R48) -/

/-- Vale has removed the last entry of a namespace that is being removed: its ID is free, its record is written, the
rules that name it go (R206), its command completes. -/
def State.removalDone (s : State) (ns : Nat) : State :=
  match mapGet? s.index.removing ns with
  | none => s
  | some (space, st) =>
    let p := space.params
    let n := min max32 ((s.index.keys.filter fun k => k.ns = ns).map fun k => k.versions.length).sum
    let earlier := s.works.any fun w => isDataOp w.op && w.desc.ns.toNat = ns && decide (w.stamp < st.getD 0)
    if earlier then s
    else
      let s := (s.cutKeys fun k => if k.ns = ns then { k with versions := [] } else k).updIndex fun i =>
        { i with removing := mapErase i.removing ns }
      let s := (s.nsRecord ns (some p) none (st.getD 0)).removeRules fun r => r.ns = ns
      match st.bind s.work? with
      | none => s
      | some w => s.deliver w { commit := w.stamp, length := n }

/-! ## Health (R261) -/

/-- Bin of the temperature history. -/
def tempBin (c : Int) : Nat := if c < -20 then 0 else if 120 ≤ c then 15 else ((c + 30) / 10).toNat

/-- The junction is sampled once a minute. -/
def State.temperature (s : State) (c : Int) : State :=
  (s.updPins fun p => { p with temperature := c }).updDelta fun d => { d with health := { d.health with
    minutes := mapUpd 0 d.health.minutes (tempBin c) (fun n => satAdd max32 n 1)
    highest := max d.health.highest c, lowest := min d.health.lowest c } }

/-- Health counters are stored every 60 minutes; an hour of power counts. -/
def State.healthStore (s : State) : State :=
  (s.metaWrite 32).updDelta fun d => let h := { d.health with hours := d.health.hours + 1 }; { d with health := h, healthStored := h }

/-! ## Forced programs (R227) -/

/-- The oldest partly filled unit is forced when pool 6 is at its low water, every 10 µs. -/
def State.forcePool6 (s : State) : State :=
  if s.lowWater 6 < (s.pool 6).free ∨ s.localUs < s.delta.pool6At + 10 then s
  else
    let s := s.updDelta fun d => { d with pool6At := s.localUs }
    match leastBy (fun e => e.2.openSeq) (s.delta.segments.filter fun e => e.2.open_ && decide (e.2.stream ≤ 3) &&
        decide (e.2.done < e.2.filled ∧ e.2.filled < progEnd (s.delta.kOf e.2.slc) (e.2.filled - 1))) with
    | none => s
    | some (n, _) => s.forceSegment n

/-- The partly filled unit of a slot's open segment is forced where a test of it holds; the journal page for slot 64. -/
def State.forceSlot (s : State) (slot : Nat) (due : Segment → Bool) : State :=
  if slot = 64 then s.updDelta fun d => { d with jForced := !d.journal.isEmpty }
  else match mapGet? s.delta.slots slot with
    | none => s
    | some n => if (s.segment? n).any due then s.forceSegment n else s

/-- No new record for 10 ms of external time; a record placed 20 µs ago (R227). -/
def State.idleDue (s : State) (g : Segment) : Bool := decide (g.lastRec + 10000 ≤ s.grain)
def State.throughDue (s : State) (g : Segment) : Bool := decide (g.placedAt + 20 ≤ s.localUs)

end Sys2Proof.Machine
end

