-- ==== Sys2Proof/Machine/Dram.lean ====
section
/-! DEFINITION. The memory controller: merge buffer (R269), corrections, failed devices, remapping (R268, R270 to R272), poison
and held slices (R273, R275), the scrubbers (R271, R278). A line is known by its byte address. -/

namespace Sys2Proof.Machine

/-! ## Merge buffer (R269) -/

/-- An entry leaves the buffer: a whole line is written without a read and clears poison, any other is read, merged and
written, and keeps it (R273). A remapped line's entry goes to its spare line (R272). -/
def Dram.retire (d : Dram) (addr : Nat) (mask : BitVec 128) : Dram :=
  let d := { d with merge := d.merge.filter fun e => e.1 != addr }
  if mask = BitVec.allOnes 128 then { d with mergeFull := inc64 d.mergeFull, poison := d.poison.filter (· != d.lineAt addr) }
  else { d with mergeRmw := inc64 d.mergeRmw }

/-- A narrow write of the masked bytes of a line; with all 32 entries taken the least recently written one retires first. -/
def Dram.narrowWrite (d : Dram) (addr : Nat) (mask : BitVec 128) (bytes : Bytes) : Dram :=
  match d.merge.find? fun e => e.1 = addr with
  | some (_, m, b) => { d with merge := (d.merge.filter fun x => x.1 != addr) ++ [(addr, m ||| mask, overlay mask bytes b)] }
  | none =>
    let d := match d.merge with
      | e :: _ => if 32 ≤ d.merge.length then d.retire e.1 e.2.1 else d
      | [] => d
    { d with merge := d.merge ++ [(addr, mask, overlay mask bytes (zeros 128))] }

/-! ## Corrections (R268, R270, R272) -/

/-- The correction log counts a corrected read of a line, which takes a free entry or the lowest one (R270). -/
def Dram.logLine (d : Dram) (addr : Nat) : Dram × Nat :=
  let t := d.tick + 1
  match d.log.find? fun e => e.1 = addr with
  | some (_, n, _) => ({ d with tick := t, log := d.log.map fun e => if e.1 = addr then (addr, n + 1, t) else e }, n + 1)
  | none =>
    let low := d.log.foldl (fun acc e => match acc with
      | none => some e
      | some a => if e.2.1 < a.2.1 ∨ (e.2.1 = a.2.1 ∧ e.2.2 < a.2.2) then some e else some a) (none : Option (Nat × Nat × Nat))
    let keep := match low with
      | some a => if 256 ≤ d.log.length then d.log.filter fun e => e.1 != a.1 else d.log
      | none => d.log
    ({ d with tick := t, log := keep ++ [(addr, 1, t)] }, 1)

/-- A line whose count reaches the threshold is remapped; a spare line, or a full table, refuses it (R272). -/
def State.remapLine (s : State) (addr : Nat) : State :=
  let n := s.dram.remaps.length
  let spare := (List.range n).any fun i => s.spareLine i = addr
  let refuse (cause : Nat) (s : State) : State := s.raise 146 0 0 0x601 (eventData [(8, addr), (1, cause)])
  if spare then refuse 2 s
  else if n < 16 then
    ((s.updDram fun d => { d with remaps := d.remaps ++ [addr], poison := d.poison.filter (· != addr) }).metaWrite 0).raise
      145 0 0 0x601 (eventData [(8, addr), (8, s.spareLine n)])
  else
    let s' := s.updDram fun d => { d with refused := inc64 d.refused, remapFull := true, refusedRaised := true }
    if s.dram.refusedRaised then s' else refuse 1 s'

/-- Corrected symbols of one device on a line count toward its failed mark (R268). -/
def State.deviceLine (s : State) (line : DramLine) (dev : Nat) : State :=
  let rank := line.channel * 2 + line.rank
  let key := rank * 16 + dev
  let l := mapGet [] s.dram.lines key
  let l := if line.addr ∈ l then l else line.addr :: l
  let s := s.updDram fun d => { d with lines := mapSet d.lines key l }
  if s.inForce.device ≤ l.length ∧ (mapGet? s.dram.failed rank).isNone then
    ((s.updDram fun d => { d with failed := mapSet d.failed rank dev }).metaWrite 0).raise 147 0 0 0x602
      (eventData [(1, line.channel), (1, line.rank), (1, dev)])
  else s

/-- A read finds a correctable line: the symbols at some positions of it. -/
def State.correctedLine (s : State) (line : DramLine) (positions : List Nat) : State :=
  let symbols := positions.eraseDups.length
  let devices := lineDevices positions
  let addr := s.lineAt line.addr
  let s := s.updDram fun d => { d with corrected := inc64 d.corrected }
  let s := s.raiseLimited 144 0 0 0 (some 0x600) fun n => eventData [(8, addr), (4, symbols), (4, n)]
  let s := devices.foldl (fun s d => s.deviceLine line d) s
  let (d, n) := s.dram.logLine addr
  let s := s.updDram fun _ => d
  if n = s.inForce.remap then s.remapLine addr else s

/-- A pattern that the decoder of R268 corrects: up to 16 symbols, or, where a device of the rank is marked failed, up to 8 outside that
device, whose symbols are erasures. -/
def State.correctable (s : State) (line : DramLine) (positions : List Nat) : Bool :=
  match mapGet? s.dram.failed (line.channel * 2 + line.rank) with
  | none => decide (positions.eraseDups.length ≤ 16)
  | some d => decide ((positions.eraseDups.filter fun p => symbolDevice p != d).length ≤ 8)

/-! ## Uncorrectable lines (R273, R275) -/

/-- A slice is held: it keeps its last clean image (R275). Source 154 carries the address and the image's W. -/
def State.holdSlice (s : State) (slice addr : Nat) : State :=
  let w := mapGet 0 s.index.ckptW slice
  let s := (s.updDram fun d => { d with indexPoisoned := true, sinceSeal := d.sinceSeal + 1 }).updIndex fun i =>
    { i with heldSlices := if slice ∈ i.heldSlices then i.heldSlices else slice :: i.heldSlices
             keys := i.keys.map fun k => { k with poisoned := k.poisoned || decide (s.lineAt (Config.bucketLine k.fp) = addr) } }
  s.raise 154 0 0 0x00E (eventData [(8, addr), (8, w)])

/-- A new uncorrectable line: it takes the poison signature; source 149 names the reader. -/
def State.badLine (s : State) (line : DramLine) (reader : Nat) : State :=
  let addr := s.lineAt line.addr
  let s := s.updDram fun d => { d with uncorrectable := inc64 d.uncorrectable, poison := if addr ∈ d.poison then d.poison else addr :: d.poison }
  let s := s.raise 149 0 0 0x604 (eventData [(8, addr), (1, reader)])
  match line.slice with
  | some n => s.holdSlice n addr
  | none => s

/-- A line is read (R270, R273): by 2 the merge buffer, 3 the checkpoint writer, 4 the scrubber. A line that holds the poison signature is
reported poisoned, whatever its symbols are now. -/
def State.lineRead (s : State) (line : DramLine) (reader : Nat) (o : LineOutcome) : State :=
  let addr := s.lineAt line.addr
  let signature := s.updDram fun d => { d with poisonReads := inc64 d.poisonReads, poison := if addr ∈ d.poison then d.poison else addr :: d.poison }
  match o with
  | .clean => s
  | .poisonSignature => signature
  | .corrected positions =>
    if addr ∈ s.dram.poison then signature
    else if s.correctable line positions then s.correctedLine line positions else s.badLine line reader
  | .uncorrectable => if addr ∈ s.dram.poison then signature else s.badLine line reader

/-- Grains of a scrub period (R271). -/
def State.scrubPeriod (s : State) : Nat := s.inForce.scrub * 3600000000

/-- A scrub period that has passed gives way to the next one, in which every line is read again. -/
def State.scrubTurn (s : State) : State :=
  if s.grain < s.dram.scrubStart + s.scrubPeriod then s else s.updDram fun d => { d with scrubStart := s.grain, scrubbed := [] }

/-- The scrubber reads a line, once in a period (R271): nothing with scrubbing off or in PS3. -/
def State.scrubRead (s : State) (line : DramLine) (o : LineOutcome) : State :=
  if s.inForce.scrub = 0 ∨ 3 ≤ s.host.power then s
  else
    let s := s.scrubTurn
    if line.addr ∈ s.dram.scrubbed then s
    else (s.updDram fun d => { d with scrubbed := line.addr :: d.scrubbed }).lineRead line 4 o

/-- A merge entry retires: after 40 ns without a write, on a full mask, or because it is the least recently written (R269). Without a full mask
its line is read first. -/
def State.mergeRetire (s : State) (line : DramLine) (cause : MergeCause) (o : LineOutcome) : State :=
  match s.dram.merge.find? fun e => e.1 = line.addr with
  | none => s
  | some e =>
    let full := e.2.1 = BitVec.allOnes 128
    let holds := match cause with
      | .idle => true
      | .fullMask => full
      | .evicted => s.dram.merge.head?.map Prod.fst = some line.addr
    if holds then (if full then s else s.lineRead line 2 o).updDram fun d => d.retire line.addr e.2.1 else s

/-- A changed slice is written into stream 5 (R233), after its lines are read; a slice that is held then keeps its last clean image (R275). -/
def State.checkpointWrite (s : State) (slice w : Nat) (lines : List (DramLine × LineOutcome)) : State :=
  let s := lines.foldl (fun s l => s.lineRead l.1 3 l.2) s
  if slice ∈ s.index.heldSlices then s
  else
    let n := s.delta.imaging.length
    let s := s.writeImage slice w
    if s.delta.imaging.length = n then s
    else s.updIndex fun i => { i with ckptDirty := i.ckptDirty.filter (· != slice) }

/-! ## On-chip memory (R277, R278) -/

/-- A rule entry whose row differs from its copy is rewritten by the change-of-match-bits sequence (R208). -/
def Glen.rewriteRow (g : Glen) (bank row : Nat) : Glen :=
  let t := (g.bank bank).1
  let w := 2 ^ g.width t
  let l := g.rules_ (t == 1)
  match l.zipIdx.find? fun (r, i) => r.isSome && g.placeOf t i = (bank, row / w * w) with
  | some (some r, i) => if t < 2 then g.setTable (t == 1) (runOps l (rewriteOps i r)) else g
  | _ => g

/-- A Glen row that differs from its copy is rewritten from it (R278). The copy is a word of a controller table in SRAM; one with a double-bit
error gives nothing to rewrite from. -/
def State.glenScrub (s : State) (bank row : Nat) (copy : SramFault) : State :=
  let s := s.sramRead 6 (bank * 65536 + row) copy
  if copy = .doubleBit then s
  else ((s.updGlen fun g => g.rewriteRow bank row).updDram fun d => { d with glenFixes := inc64 d.glenFixes }).raise 155 0 0 0x600
    (eventData [(1, bank), (2, row)])

/-- Vale's index update writes its bucket line through the merge buffer (R68, R269). -/
def State.indexLine (s : State) (w : Work) : State :=
  w.items.foldl (fun s i => s.updDram fun d =>
    d.narrowWrite (Config.bucketLine i.fp) (Config.bucketMask i.fp) (Config.bucketBytes i.fp w.bound)) s

end Sys2Proof.Machine
end

