-- ==== Sys2Proof/Machine/Ports.lean ====
section
/-! DEFINITION. Ethernet ports: presence and configuration (R159, R163), counters (R182), reception (R166 to R170, R178, R179),
transmission (R167, R172 to R177), link states (R165), low-power idle (R174), control frames (R127, R170, R175). -/

namespace Sys2Proof.Machine

/-! ## Presence and counters -/

/-- Port `p`, and port `p` changed. -/
def State.port (s : State) (p : Nat) : Port := mapGet {} s.ports.ports p
def State.updPort (s : State) (p : Nat) (f : Port → Port) : State :=
  s.updPorts fun x => { x with ports := mapUpd {} x.ports p f }

/-- A port is present in its quad's mode (R159). -/
def State.portPresent (s : State) (p : Nat) : Bool :=
  decide (p < 16) && (match s.ports.quads.getD (p / 4) 255 with
    | 0 | 1 | 2 => true
    | 3 => p % 2 == 0
    | 4 => p % 4 == 0
    | _ => false)

/-- A port is configured (R163). -/
def State.portConfigured (s : State) (p : Nat) : Bool := s.portPresent p && (s.port p).everSet && (s.port p).config.enable

/-- Rate code of a port (R183), by its quad's mode. -/
def State.portRate (s : State) (p : Nat) : Nat :=
  let m := s.ports.quads.getD (p / 4) 255
  if s.portPresent p then m + 1 else 0

/-- The port is the time port or the backup port of a PTP source (R169, R170, R174). -/
def State.isTimePort (s : State) (p : Nat) : Bool :=
  s.time.config.source = 0 && (p = s.time.config.timePort || p = s.time.config.backup)

/-- Counts on a port: 40 bits, with the half-range event when bit 39 changes (R182, R184). -/
def State.count (s : State) (p i n : Nat) : State :=
  let old := mapGet 0 (s.port p).cnt i
  let new := (old + n) % 2 ^ 40
  let s := s.updPort p fun x => { x with cnt := mapSet x.cnt i new }
  if old / 2 ^ 39 = new / 2 ^ 39 ∨ !s.portConfigured p then s
  else s.raiseOnly (33 + 4 * p) 0 0 (eventData [(1, i), (1, new / 2 ^ 39)])

/-- Counts where there is something to count. -/
def State.countSome (s : State) (p i n : Nat) : State := if n = 0 then s else s.count p i n

/-- Size bin of a frame length (R182). -/
def sizeBin (n : Nat) : Nat :=
  if n ≤ 64 then 0 else if n ≤ 127 then 1 else if n ≤ 255 then 2 else if n ≤ 511 then 3 else if n ≤ 1023 then 4
  else if n ≤ 1518 then 5 else if n ≤ 2047 then 6 else if n ≤ 4095 then 7 else if n ≤ 8191 then 8 else 9

/-- Destination kind of an address: 0 unicast, 1 multicast, 2 broadcast. -/
def castOf (mac : BitVec 48) : Nat :=
  if mac = 0xFFFFFFFFFFFF#48 then 2 else if mac.getLsbD 40 then 1 else 0

/-! ## Reception -/

/-- IP entries of a port in use. -/
def PortConfig.entries (c : PortConfig) : List IpEntry := [c.ip0, c.ip1].filter fun e => e.version != 0

/-- Solicited-node group address of an IPv6 address. -/
def solicited (a : BitVec 128) : BitVec 48 := 0x3333FF000000#48 ||| (a.setWidth 48 &&& 0xFFFFFF#48)

/-- Group MAC address of an IP multicast address. -/
def groupMac (v6 : Bool) (a : BitVec 128) : BitVec 48 :=
  if v6 then 0x333300000000#48 ||| (a.setWidth 48 &&& 0xFFFFFFFF#48)
  else 0x01005E000000#48 ||| ((a >>> 96).setWidth 48 &&& 0x7FFFFF#48)

/-- The PTP group addresses of the configured transport (R169). -/
def State.ptpGroups (s : State) : List (BitVec 48) :=
  match s.time.config.transport with
  | 0 => [0x011B19000000#48, 0x0180C200000E#48]
  | 1 => [0x01005E000181#48, 0x01005E00006B#48]
  | _ => [0x333300000181#48, 0x33330000006B#48]

/-- Group addresses whose bins Ranegal sets on a port (R169). -/
def State.groupsOf (s : State) (p : Nat) : List (BitVec 48) :=
  let c := (s.port p).config
  (if s.isTimePort p then s.ptpGroups else []) ++
  [0x0180C200000E#48] ++
  (let l := c.entries.filter fun e => e.version = 6
   if l.isEmpty then [] else 0x333300000001#48 :: l.map fun e => solicited e.addr) ++
  (match s.cluster.identity with
   | some i => if i.port = p then [groupMac i.v6 i.group] else []
   | none => [])

/-- The address filter (R168). -/
def State.passesFilter (s : State) (p : Nat) (dst : BitVec 48) : Bool :=
  (s.port p).config.unicast.any (fun m => m != 0 && m = dst) || dst = 0xFFFFFFFFFFFF#48 ||
  (dst.getLsbD 40 && ((s.groupsOf p).map groupBin).contains (groupBin dst))

/-! ## FILTER (R202) -/

/-- EtherType of an IP version. -/
def ipType (v6 : Bool) : Nat := if v6 then 0x86DD else 0x0800

/-- A value cared in every bit. -/
def exactly (v : Nat) : Option (Nat × Nat) := some (v, 65535)

/-- Group addresses at which an IPv6 entry hears neighbour discovery: all nodes, and its solicited-node address. -/
def ndGroups (a : BitVec 128) : List (BitVec 128) :=
  [0xFF020000000000000000000000000001#128, 0xFF0200000000000000000001FF000000#128 ||| (a &&& 0xFFFFFF#128)]

/-- The IP group address of PTP messages, of the peer delay mechanism or of the others (R169). -/
def ptpGroupIp (v6 peer : Bool) : BitVec 128 :=
  match v6, peer with
  | false, false => 0xE0000181#128 <<< 96
  | false, true => 0xE000006B#128 <<< 96
  | true, false => 0xFF0E0000000000000000000000000181#128
  | true, true => 0xFF02000000000000000000000000006B#128

/-- The receive entries that one address entry of a port gives, with the counter of each one's class (R170). -/
def State.rxEntries (s : State) (p : Nat) (e : IpEntry) : List (FilterFields × Nat) :=
  let v6 : Bool := e.version = 6
  let tag : FilterFields := { port := p, tx := false, tagged := some e.vlan.isSome, vid := e.vlan }
  let ip : FilterFields := { tag with type := exactly (ipType v6), version := some (1 + b2n v6) }
  let udp (port class_ : Nat) (dst : BitVec 128) := ({ ip with proto := some 17, dst := some dst, dstPort := some port }, class_)
  let ptp : List (BitVec 128) :=
    if s.isTimePort p then
      e.addr :: (if (s.time.config.transport = 2) = v6 ∧ s.time.config.transport ≠ 0 then [ptpGroupIp v6 false, ptpGroupIp v6 true] else [])
    else []
  (if v6 then (e.addr :: ndGroups e.addr).map fun a => ({ ip with proto := some 58, dst := some a }, 30)
   else [({ tag with type := exactly 0x0806, dst := some e.addr }, 30), ({ ip with proto := some 1, dst := some e.addr }, 30)]) ++
  ptp.map (udp 319 29) ++ ptp.map (udp 320 29) ++
  [({ ip with proto := some 17, dstPort := some 319 }, 28), ({ ip with proto := some 17, dstPort := some 320 }, 28),
   udp s.ports.udp 31 e.addr] ++
  (match s.cluster.identity with
   | some i => if i.port = p ∧ i.v6 = v6 then [udp i.udp 30 e.addr, udp i.udp 30 i.group] else []
   | none => [])

/-- The receive entries of a port, the catch-all last. -/
def State.rxFilter (s : State) (p : Nat) : List (FilterFields × Nat) :=
  let base : FilterFields := { port := p, tx := false }
  [({ base with type := exactly 0x8808 }, 24), ({ base with type := exactly 0x8100 }, 25), ({ base with type := exactly 0x88A8 }, 25),
   ({ base with type := some (0, 0xFC00) }, 25), ({ base with type := some (0x0400, 0xFE00) }, 25),
   ({ base with type := exactly 0x88F7 }, if s.isTimePort p then 29 else 28), ({ base with type := exactly 0x88CC }, 30)] ++
  ((s.port p).config.entries.map (s.rxEntries p)).flatten ++ [(base, 28)]

/-- The transmit entries of a port: 0 express, the set of R172, else 1, preemptable. -/
def State.txFilter (s : State) (p : Nat) : List (FilterFields × Nat) :=
  let base : FilterFields := { port := p, tx := true }
  let udp : FilterFields := { base with proto := some 17 }
  [({ base with type := exactly 0x88F7 }, 0), ({ udp with dstPort := some 319, srcPort := some 319 }, 0),
   ({ udp with dstPort := some 320, srcPort := some 320 }, 0), ({ base with type := exactly 0x0806 }, 0),
   ({ base with type := exactly 0x88CC }, 0), ({ base with version := some 1, proto := some 1 }, 0),
   ({ base with version := some 2, proto := some 58 }, 0)] ++
  ([3, 4, 5, 6, 7].map fun t => ({ udp with srcPort := some s.ports.udp, lfType := some t }, 0)) ++
  [({ udp with srcPort := some s.ports.udp, lfType := some 2, lfFlags := some (4, 4) }, 0), (base, 1)]

/-- FILTER's entries for a port and a direction. Priorities rise with the position, so that no search returns MULTI; where each port's entries
stand, and that a result word names the class's counter or the queue, is the model's choice (DESIGN CHOICE, log entry 129). -/
def State.filterEntries (s : State) (p : Nat) (tx : Bool) : List Entry :=
  (if tx then s.txFilter p else s.rxFilter p).zipIdx.map fun ((f, r), i) =>
    { pos := 128 * p + 64 * b2n tx + i, data := f.data, mask := f.mask, priority := 128 * p + 64 * b2n tx + i, result := BitVec.ofNat 32 r }

/-- The result of FILTER's search for a frame. -/
def State.filterResult (s : State) (f : FilterFields) : Nat :=
  match winner (s.filterEntries f.port f.tx) f.data with
  | some (e, _) => e.result.toNat
  | none => 28

/-- An arriving frame as FILTER sees it. -/
def rxFields (f : RxFrame) : FilterFields :=
  let l := f.layers
  { port := f.port, tx := false, tagged := some f.tag.isSome, vid := f.tag, type := exactly f.etherType, version := some l.version
    proto := some l.proto, dst := some l.dst, src := some l.src, dstPort := some l.dstPort, srcPort := some l.srcPort, lfType := some l.lfType
    lfFlags := exactly l.lfFlags }

/-- A frame to be sent as FILTER sees it. -/
def TxFrame.fields (f : TxFrame) (p : Nat) : FilterFields :=
  let ip := f.ip.getD { proto := 0 }
  { port := p, tx := true, tagged := some f.tci.isSome, vid := f.tci.map (· % 4096), type := exactly f.etherType
    version := f.ip.map fun i => 1 + b2n i.v6, proto := some ip.proto, dst := some ip.dst, src := some ip.src, dstPort := some ip.dstPort
    srcPort := some ip.srcPort, lfType := f.header.map fun h => h.type.toNat, lfFlags := f.header.bind fun h => exactly h.flags.toNat }

/-- The class of a frame that has landed: the counter it takes, as FILTER decides (R170). A group address that only shares a bin with one of
the port's groups is unclaimed (R169); so are frames for the control cores while those restart (R164), and ICMP messages that ask nothing. -/
def State.frameClass (s : State) (f : RxFrame) : Nat :=
  if castOf f.dst = 1 ∧ f.dst ∉ s.groupsOf f.port then 28
  else
    let c := s.filterResult (rxFields f)
    let udp : Bool := f.layers.version ≠ 0 ∧ f.layers.proto = 17
    if c = 29 ∨ c = 30 ∨ c = 31 then
      if udp ∧ f.layers.fault ≠ 0 then (match f.layers.fault with | 1 => 25 | 2 => 26 | _ => 27)
      else if c = 30 ∧ (!s.mode.running ∨ (f.layers.version ≠ 0 ∧ !udp ∧ !f.layers.asks)) then 28
      else c
    else c

/-- Source 35 + 4p: a frame dropped for lack of pool 3 buffers (R179, R184). -/
def State.noBuffer (s : State) (p : Nat) : State :=
  let s := s.count p 23 1
  s.raiseLimited (35 + 4 * p) 0 0 0 (some 0x30A) fun n => eventData [(4, n), (4, (s.pool 3).free)]

/-- The first four rows of R166: the counter of a frame that is not good. -/
def State.frameFault (s : State) (f : RxFrame) : Option Nat :=
  if f.codeError ∨ f.fecBad ≠ 0 then some 21
  else if f.len ≤ 63 then some (if f.fcsOk then 16 else 17)
  else if (s.port f.port).config.maxFrame + 1 ≤ f.len then some (if f.fcsOk then 18 else 19)
  else if !f.fcsOk then some 20
  else none

/-- A good frame's row of R166. -/
def State.countGood (s : State) (f : RxFrame) : State :=
  let p := f.port
  let s := (((s.count p 1 1).count p 0 f.len).count p (2 + castOf f.dst) 1).count p (6 + sizeBin f.len) 1
  if f.tag.isSome then s.count p 5 1 else s

/-- Buffers that a frame of `len` octets lands in, and none beyond octet M (R166, R178). -/
def State.chainLength (s : State) (p len : Nat) : Nat := ceilDiv (min len (s.port p).config.maxFrame - 4) 2048

/-- An arriving frame (R166, R168, R170, R178, R179): one that passes the address filter lands in its chain, good or not, and the chain goes
back once it is decided; a Lerfold segment's is kept where the segment is held. A draw that fails drops the frame: it counts RX_NO_BUFFER
beside its row of R166. With PREEMPT_EN clear no preempted frame is reassembled (R172): its parts are no frames. -/
def State.receiveFrame (s : State) (f : RxFrame) : State :=
  let p := f.port
  let s := ((s.countSome p 80 f.fecCorrected).countSome p 81 f.fecBad).countSome p 82 f.fecSymbols
  if !(s.port p).config.preempt ∧ (f.fragments ≠ 0 ∨ f.mergeError) then s
  else
  let s := s.countSome p 41 f.fragments
  if f.mergeError then s.count p 42 1
  else
    let pass := s.passesFilter p f.dst
    let o : OwnerTag := { cls := 0, number := p }
    let (s, hs, whole) := if pass then s.rxDraws o (s.chainLength p f.len) [] else (s, [], true)
    let s := s.queueRelease hs o 0
    let fault := s.frameFault f
    let s := match fault with | some k => s.count p k 1 | none => s.countGood f
    if !whole then s.noBuffer p
    else if fault.isSome then s
    else if !pass then s.count p 22 1
    else s.count p (s.frameClass f) 1

/-! ## Transmission -/

/-- Time in transmit LPI ends: a frame has been queued (R174). -/
def State.lpiTxEnd (s : State) (p : Nat) : State :=
  let x := s.port p
  if x.lpiTx then (s.updPort p fun x => { x with lpiTx := false }).count p 71 (s.localUs - x.lpiTxAt) else s

/-- Time in receive LPI ends. -/
def State.lpiRxEnd (s : State) (p : Nat) : State :=
  let x := s.port p
  if x.lpiRx then (s.updPort p fun x => { x with lpiRx := false }).count p 44 (s.localUs - x.lpiRxAt) else s

/-- A frame is queued to a port, with the port's unicast entry 0 as its source address (R168), to the queue that FILTER assigns (R202); a
port that is not UP discards it (R165). -/
def State.enqueue (s : State) (p : Nat) (f : TxFrame) : State :=
  if (s.port p).link = .up then
    (s.updPort p fun x => { x with queue := x.queue ++ [{ f with
      src := x.config.unicast.headD 0, express := decide (s.filterResult (f.fields p) = 0) }] }).lpiTxEnd p
  else s.count p 73 1

/-- The express frame that a port sends next, and the queue without it. -/
def Port.nextExpress (x : Port) : Option (TxFrame × List TxFrame) :=
  let rec go : List TxFrame → List TxFrame → Option (TxFrame × List TxFrame)
    | _, [] => none
    | pre, f :: rest => if f.express then some (f, pre.reverse ++ rest) else go (f :: pre) rest
  go [] x.queue

/-- The frame that a port sends next: express first (R172). -/
def Port.nextFrame (x : Port) : Option (TxFrame × List TxFrame) :=
  match x.nextExpress with
  | some r => some r
  | none => match x.queue with
    | [] => none
    | f :: rest => some (f, rest)

/-- The frame has an 802.1Q tag. -/
def TxFrame.tagged (f : TxFrame) : Bool := f.tci.isSome

/-- A frame has been sent whole, preempted so many times on its way (R167, R172, R182). -/
def State.frameSent (s : State) (p : Nat) (f : TxFrame) (preempts : Nat) : State :=
  let n := max 64 f.len
  let s := (((s.count p 48 n).count p 49 1).count p (50 + f.cast) 1).count p (54 + sizeBin n) 1
  let s := if f.tagged then s.count p 53 1 else s
  let s := s.count p (if f.express then 65 else 66) 1
  let s := if preempts = 0 then s else s.count p 67 1
  let s := if f.stamped then s.count p 72 1 else s
  (s.updPort p fun x => { x with clean := x.clean + 1 }).emit (.frame p f)

/-- A frame's transmission ends: `late` means that its data did not arrive in time, which can end only a frame that is sent before it is
whole, with an inverted FCS (R176). -/
def State.frameEnd (s : State) (p : Nat) (f : TxFrame) (late : Bool) (preempts : Nat) : State :=
  let x := s.port p
  if late && !f.express && decide (x.threshold < f.len) then
    let t := if x.config.fixed then x.threshold else min x.config.maxFrame (x.threshold + 1024)
    let s := (s.updPort p fun x => { x with threshold := t, clean := 0 }).count p 64 1
    (s.emit (.frame p { f with aborted := true })).raiseLimited (34 + 4 * p) 0 0 0 (some 0x309) fun n => eventData [(4, n), (4, t)]
  else s.frameSent p f preempts

/-- A frame may be preempted: both its parts hold at least the minimum fragment (R173). -/
def Port.mayPart (x : Port) (f : TxFrame) : Bool := x.preemptOn && !f.express && decide (64 * (2 + x.config.minFrag) ≤ f.len)

/-- A MAC's turn on a port (R167, R172, R173, R176): it sends the next frame, or ends the one under way. With preemption active an express
frame preempts the one under way. `part` means that the transmission of a frame that may be preempted is still under way at the end of the
turn. No frame is longer than the port's M. -/
def State.transmit (s : State) (p : Nat) (late part : Bool) : State :=
  let x := s.port p
  if x.link ≠ .up then s
  else match x.sending with
  | some g =>
    match (if x.preemptOn then x.nextExpress else none) with
    | some (f, rest) =>
      let g := { g with paused := true, preempts := if g.paused then g.preempts else g.preempts + 1 }
      (s.updPort p fun x => { x with queue := rest, sending := some g }).frameSent p f 0
    | none =>
      let s := if g.paused then s.count p 68 1 else s
      if part then s.updPort p fun x => { x with sending := some { g with paused := false } }
      else (s.updPort p fun x => { x with sending := none }).frameEnd p g.frame late g.preempts
  | none =>
    match x.nextFrame with
    | none => s
    | some (f, rest) =>
      let s := s.updPort p fun x => { x with queue := rest }
      if x.config.maxFrame < f.len then s
      else if part && x.mayPart f then s.updPort p fun x => { x with sending := some { frame := f } }
      else s.frameEnd p f late 0

/-- The start threshold decays (R177). -/
def State.decay (s : State) (p : Nat) : State :=
  let x := s.port p
  if 1048576 ≤ x.clean ∧ !x.config.fixed then
    s.updPort p fun x => { x with threshold := max x.config.base (x.threshold - 256), clean := 0 }
  else s

/-! ## Links -/

/-- Source 32 + 4p with its PORT_LINK record (R184). -/
def State.linkEvent (s : State) (p cause : Nat) : State :=
  s.raise (32 + 4 * p) 0 0 0x308
    (eventData [(1, (s.port p).link.code), (1, s.portRate p), (1, cause), (1, b2n (s.port p).preemptOn)])

/-- A port comes UP (R165): threshold at its base, preemption to be verified where it is enabled, limits of R184 forgotten. -/
def State.linkUp (s : State) (p : Nat) (taps : BitVec 24) : State :=
  let s := s.updPort p fun x =>
    { x with link := .up, since := s.localUs, restartAt := 0, localFault := false, remoteFault := false, preemptOn := false,
             verifying := x.config.preempt, threshold := x.config.base, clean := 0, taps := taps, trained := true }
  ((s.forgetLimit (34 + 4 * p) 0).forgetLimit (35 + 4 * p) 0).linkEvent p 1

/-- A port leaves its link for a state (R165): its queue is discarded, and the link event follows an exit from UP. -/
def State.linkLeave (s : State) (p : Nat) (dest : Link) (cause : Nat) : State :=
  let x := s.port p
  let n := x.queue.length
  let s := if n = 0 then s else s.count p 73 n
  let s := ((s.lpiTxEnd p).lpiRxEnd p).updPort p fun x =>
    { x with link := dest, since := s.localUs, restartAt := 0, queue := [], sending := none, preemptOn := false, verifying := false,
             partnerTw := none, partnerPreempt := false }
  if x.link = .up then
    let s := (s.count p 83 1).linkEvent p cause
    if s.time.inUse = p ∨ p = s.time.config.timePort ∨ p = s.time.config.backup then s.masterLost p else s
  else s

/-- A fault condition of an enabled port, once for each entry into it (R182): 3 local fault, 4 remote fault. -/
def State.faultCount (s : State) (p cause : Nat) : State :=
  let x := s.port p
  if x.link = .disabled then s
  else if cause = 3 ∧ !x.localFault then (s.updPort p fun x => { x with localFault := true }).count p 84 1
  else if cause = 4 ∧ !x.remoteFault then (s.updPort p fun x => { x with remoteFault := true }).count p 85 1
  else s

/-- A link fault takes a port that is UP DOWN (R165): 2 alignment lost, 3 local fault, 4 remote fault. -/
def State.linkFault (s : State) (p cause : Nat) : State :=
  let s := s.faultCount p cause
  if (s.port p).link = .up ∧ 2 ≤ cause ∧ cause ≤ 4 then s.linkLeave p .down cause else s

/-! ## Control frames -/

/-- Octets of a frame with its FCS: link header, tag, IP and UDP headers, payload; padded to 64 (R167). -/
def frameLen (tci : Option Nat) (ip : Option IpOut) (payload : Nat) : Nat :=
  let layers := match ip with
    | none => 0
    | some i => (if i.v6 then 40 else 20) + if i.proto = 17 then 8 else 0
  max 64 (18 + (if tci.isSome then 4 else 0) + layers + payload)

/-- A control frame that Ranegal queues. Its content is its standard's (log entry 127). -/
def controlTx (etherType : Nat) (tci : Option Nat) (cast : Nat) (dst : BitVec 48) (ip : Option IpOut) (payload : Bytes) : TxFrame :=
  { kind := .control, len := frameLen tci ip payload.length, tci := tci, cast := cast, etherType := etherType, dst := dst
    ip := ip, payload := payload }

/-- The address entry of a port that holds an address. -/
def State.entryOf (s : State) (p : Nat) (ip : BitVec 128) : Option IpEntry := (s.port p).config.entries.find? fun e => e.addr = ip

/-- A port's own link-layer address: unicast entry 0. -/
def State.macOwn (s : State) (p : Nat) : BitVec 48 := (s.port p).config.unicast.headD 0

/-- An ARP body (IETF RFC 826): operation, sender, target. -/
def arpBody (op : Nat) (smac : BitVec 48) (sip : BitVec 128) (tmac : BitVec 48) (tip : BitVec 128) : Bytes :=
  beBytes 2 1 ++ beBytes 2 0x0800 ++ beBytes 1 6 ++ beBytes 1 4 ++ beBytes 2 op ++ beBytes 6 smac.toNat ++ beBytes 4 (sip.toNat / 2 ^ 96) ++
    beBytes 6 tmac.toNat ++ beBytes 4 (tip.toNat / 2 ^ 96)

/-- A neighbour-discovery body (IETF RFC 4861): solicitation 135 or advertisement 136, flags, target, the link-layer option. -/
def ndBody (type flags : Nat) (target : BitVec 128) (mac : BitVec 48) : Bytes :=
  beBytes 1 type ++ zeros 3 ++ beBytes 4 flags ++ beBytes 16 target.toNat ++ beBytes 1 (if type = 135 then 1 else 2) ++ beBytes 1 1 ++
    beBytes 6 mac.toNat

/-- The request for the link-layer address of `ip`, from a local address (R127): ARP, or a neighbour solicitation. -/
def State.neighbourRequest (s : State) (p : Nat) (own ip : BitVec 128) : State :=
  match s.entryOf p own with
  | none => s
  | some e =>
    if e.version = 6 then
      let group : BitVec 128 := 0xFF0200000000000000000001FF000000#128 ||| (ip &&& 0xFFFFFF#128)
      s.enqueue p (controlTx 0x86DD e.vlan 1 (solicited ip) (some { v6 := true, src := own, dst := group, hops := 255, proto := 58 })
        (ndBody 135 0 ip (s.macOwn p)))
    else s.enqueue p (controlTx 0x0806 e.vlan 2 0xFFFFFFFFFFFF#48 none (arpBody 1 (s.macOwn p) own 0 ip))

/-- The answer to a request for a local address. -/
def State.neighbourReply (s : State) (p : Nat) (ip asker : BitVec 128) (mac : BitVec 48) : State :=
  match s.entryOf p ip with
  | none => s
  | some e =>
    if e.version = 6 then
      s.enqueue p (controlTx 0x86DD e.vlan 0 mac (some { v6 := true, src := ip, dst := asker, hops := 255, proto := 58 })
        (ndBody 136 0x60000000 ip (s.macOwn p)))
    else s.enqueue p (controlTx 0x0806 e.vlan 0 mac none (arpBody 2 (s.macOwn p) ip mac asker))

/-- An echo request to a local address is answered, 100 per second and port (R170). -/
def State.echoReply (s : State) (p : Nat) (ip asker : BitVec 128) (mac : BitVec 48) (ident : BitVec 32) (data : Bytes) : State :=
  let x := s.port p
  let fresh := x.echoAt + 1000000 ≤ s.localUs
  let n := if fresh then 0 else x.echoes
  match s.entryOf p ip with
  | none => s
  | some e =>
    if n < 100 then
      let v6 := e.version = 6
      (s.updPort p fun x => { x with echoAt := if fresh then s.localUs else x.echoAt, echoes := n + 1 }).enqueue p
        (controlTx (ipType v6) e.vlan 0 mac (some { v6 := v6, src := ip, dst := asker, proto := if v6 then 58 else 1 })
          (beBytes 1 (if v6 then 129 else 0) ++ zeros 3 ++ beBytes 4 ident.toNat ++ data))
    else s

/-- A resolution is noted; the latest one counts (R133). -/
def State.learn (s : State) (ip : BitVec 128) (mac : BitVec 48) : State :=
  s.updWire fun w => { w with neighbours := (ip, mac) :: w.neighbours.filter fun e => e.1 != ip }

/-- Transmit LPI may be entered on a port (R174, R175). -/
def State.mayLpi (s : State) (p : Nat) : Bool :=
  let x := s.port p
  x.link = .up && x.config.lpi && !x.lpiTx && x.config.type != 2 && decide (s.portRate p ≤ 3) && !s.isTimePort p &&
  x.queue.isEmpty && x.sending.isNone && x.partnerTw.any fun t => decide (t ≤ 100)

/-- The port's own minimum wake time (R175). -/
def State.ownTw (s : State) (p : Nat) : Nat := Config.minWake ((s.port p).config.type * 8 + s.portRate p)

/-- An LLDP TLV (IEEE 802.1AB), and one of IEEE 802.3. -/
def tlv (type : Nat) (b : Bytes) : Bytes := beBytes 2 (type * 512 + b.length) ++ b
def tlv8023 (sub : Nat) (b : Bytes) : Bytes := tlv 127 (beBytes 3 0x00120F ++ beBytes 1 sub ++ b)

/-- The body of a port's LLDP frame: the mandatory TLVs, with PREEMPT_EN the Additional Ethernet Capabilities (R172), and where low-power
idle may be used the EEE TLV, whose Tw values are the port type's minimum (R175). -/
def State.lldpBody (s : State) (p : Nat) : Bytes :=
  let x := s.port p
  let mac := beBytes 6 (s.macOwn p).toNat
  let tw := beBytes 2 (s.ownTw p)
  tlv 1 ([4] ++ mac) ++ tlv 2 ([3] ++ mac) ++ tlv 3 (beBytes 2 120) ++
  (if x.config.preempt then tlv8023 7 (beBytes 2 (3 + 4 * b2n x.preemptOn + 8 * x.config.minFrag)) else []) ++
  (if x.config.lpi && x.config.type != 2 && decide (s.portRate p ≤ 3) then
    tlv8023 5 (tw ++ tw ++ tw ++ zeros 2 ++ beBytes 2 (x.partnerTw.getD 0)) else []) ++ tlv 0 []

/-! ## PTP messages (R17, R180, R181) -/

/-- A PTP message (IEEE 1588-2019): type, domain, correction field, the sender's port, sequenceId, and what follows the header. -/
def ptpBytes (type domain correction port : Nat) (seqId : BitVec 16) (body : Bytes) : Bytes :=
  beBytes 1 type ++ beBytes 1 2 ++ beBytes 2 (34 + body.length) ++ beBytes 1 domain ++ zeros 3 ++ beBytes 8 correction ++ zeros 4 ++
    beBytes 8 Config.clockIdentity.toNat ++ beBytes 2 (port + 1) ++ beBytes 2 seqId.toNat ++ beBytes 1 0 ++ beBytes 1 0x7F ++ body

/-- A PTP event message that Ranegal queues on a time port, toward the transport's group (R17), timestamped (R180). `peer`
tells a message of the peer delay mechanism. -/
def State.ptpSend (s : State) (p : Nat) (peer : Bool) (payload : Bytes) : State :=
  let t := s.time.config.transport
  let dst := s.ptpGroups.getD (b2n peer) 0
  if t = 0 then
    s.enqueue p { kind := .ptp, len := frameLen none none payload.length, cast := 1, etherType := 0x88F7, dst := dst
                  payload := payload, stamped := true }
  else
    let v6 : Bool := t != 1
    let e := ((s.port p).config.entries.find? fun e => e.version = if v6 then 6 else 4).getD {}
    let ip : IpOut := { v6 := v6, src := e.addr, dst := ptpGroupIp v6 peer, hops := 1, srcPort := 319, dstPort := 319 }
    s.enqueue p { kind := .ptp, len := frameLen e.vlan (some ip) payload.length, tci := e.vlan, cast := 1
                  etherType := ipType v6, dst := dst, ip := some ip, payload := payload, stamped := true }

end Sys2Proof.Machine
end

