-- ==== Sys2Proof/Machine/Wire.lean ====
section
/-! DEFINITION. The Lerfold wire: sending frames (R128, R129, R136, R139, R140), receive checks (R131, R137), reassembly and
replay decisions (R142 to R144), NAKs (R153), responses (R146 to R150), session states (R133, R134), keepalive (R154). -/

namespace Sys2Proof

/-- The 32 bytes of a Lerfold header, big-endian fields (R129). -/
def LfHeader.bytes (h : LfHeader) : Bytes :=
  Machine.beBytes 2 h.magic.toNat ++ Machine.beBytes 1 h.version.toNat ++ Machine.beBytes 1 h.type.toNat ++
  Machine.beBytes 2 h.session.toNat ++ Machine.beBytes 2 h.flags.toNat ++ Machine.beBytes 4 h.seq.toNat ++
  Machine.beBytes 4 h.ack.toNat ++ Machine.beBytes 2 h.segIndex.toNat ++ Machine.beBytes 2 h.segCount.toNat ++
  Machine.beBytes 4 h.payLen.toNat ++ Machine.beBytes 4 h.credit.toNat ++ Machine.beBytes 4 h.crc.toNat

/-- The header with its CRC (R129). -/
def LfHeader.sealed (h : LfHeader) : LfHeader := { h with crc := Machine.crc32c (h.bytes.take 28) }

end Sys2Proof

namespace Sys2Proof.Machine

/-! ## Sequence arithmetic -/

/-- `a` is below `b` in 32-bit serial-number arithmetic. -/
def seqLt (a b : BitVec 32) : Bool := a != b && decide ((b - a).toNat < 2147483648)
def seqLe (a b : BitVec 32) : Bool := a = b || seqLt a b

/-! ## Session figures -/

/-- Frame overhead O (R128). -/
def SessionParams.overhead (p : SessionParams) : Nat :=
  78 + (if p.vlan.isSome then 4 else 0) + (if p.v6 then 20 else 0) + (if p.secure then 24 else 0)

/-- Segment size S on a port of maximum frame M (R128). -/
def SessionParams.segment (p : SessionParams) (m : Nat) : Nat := (m - p.overhead - 32) / 256 * 256

/-- Credit grant C (R140). -/
def Session.grant (x : Session) : BitVec 32 := x.lowest + BitVec.ofNat 32 x.params.credit - 1

/-- Session flags byte of the block (R132). -/
def SessionParams.flags (p : SessionParams) : Nat := b2n p.secure + 2 * b2n p.admin + 4 * b2n p.vlan.isSome

/-- WIRE_SESSION record (R158, R346). -/
def State.sessionRecord (s : State) (n : Nat) (x : Session) (cause : Nat) (stamp : Stamp) : State :=
  s.record 0x306 stamp (leBytes 2 n ++ leBytes 1 cause ++ leBytes 1 x.params.flags ++ leBytes 2 x.params.srcPort.toNat ++
    leBytes 1 x.params.port ++ leBytes 1 (if x.params.v6 then 6 else 4) ++ beBytes 16 x.params.srcIp.toNat)

/-! ## Next hop (R133, R162) -/

/-- The address whose resolution reaches `ip` from a local address of a port: `ip` itself within the entry's prefix, else the
entry's gateway. -/
def State.nextHop (s : State) (port : Nat) (own ip : BitVec 128) : BitVec 128 :=
  match (s.port port).config.entries.find? fun e => e.addr = own with
  | none => ip
  | some e =>
    let shift := 128 - e.prefix_
    if e.gateway = 0 ∨ ip.toNat / 2 ^ shift = own.toNat / 2 ^ shift then ip else e.gateway

/-- The link-layer address that the control cores hold for an address. -/
def State.macOf (s : State) (port : Nat) (own ip : BitVec 128) : Option (BitVec 48) :=
  (s.wire.neighbours.find? fun e => e.1 = s.nextHop port own ip).map Prod.snd

/-! ## Sending -/

/-- The IP and UDP headers of a session's frames: its hop limit and DSCP, the device's Lerfold UDP port as the source (R126, R127). -/
def SessionParams.ipOut (p : SessionParams) (udp : Nat) : IpOut :=
  { v6 := p.v6, src := p.dstIp, dst := p.srcIp, hops := p.hops, dscp := p.dscp, srcPort := udp, dstPort := p.srcPort.toNat }


/-- Nonce of a SECURE frame (R136). -/
def frameNonce (salt : BitVec 32) (counter : Nat) : BitVec 96 := salt ++ BitVec.ofNat 64 counter

/-- Queues one frame of a session on its port (R129, R134, R136, R139, R140): it carries ack and credit grant, and on a SECURE
session the next frame counter. A counter of 2^64 - 1 closes the session instead (R137). -/
def State.sendFrame (s : State) (n : Nat) (type flags : Nat) (seq : BitVec 32) (index count : Nat) (payload : Bytes) :
    State :=
  match s.session? n with
  | none => s
  | some x =>
    let p := x.params
    if p.secure ∧ 2 ^ 64 - 1 ≤ x.txCounter then s.arrive (.sessionReset n 3) else
    let h : LfHeader := {
      magic := 0x4C46, version := 1, type := BitVec.ofNat 8 type, session := BitVec.ofNat 16 n
      flags := BitVec.ofNat 16 (flags + b2n p.secure), seq := seq, ack := x.ack, segIndex := BitVec.ofNat 16 index
      segCount := BitVec.ofNat 16 count, payLen := BitVec.ofNat 32 payload.length, credit := x.grant, crc := 0 }
    let dst := (s.macOf p.port p.dstIp p.srcIp).getD 0
    let base : TxFrame := { kind := .lerfold, len := max 64 (p.overhead + payload.length)
                            tci := p.vlan.map fun _ => p.tci, etherType := ipType p.v6, dst := dst, ip := some (p.ipOut s.ports.udp) }
    let f : TxFrame :=
      if p.secure then
        let (c, t) := Config.gcmSeal p.key (frameNonce p.salt x.txCounter) h.bytes payload
        { base with header := some h, payload := c, counter := x.txCounter, tag := t }
      else { base with header := some h.sealed, payload := payload }
    let s := if p.secure then s.frameUnit payload.length else s
    let s := s.updSession n fun x => { x with
      sent := x.grant, tx := inc64 x.tx, ackOwed := x.ackOwed && type != 3 && !seqLe x.ackFor x.ack
      txCounter := if p.secure then x.txCounter + 1 else x.txCounter }
    s.enqueue p.port f

/-- CREDIT payload and message (R133, R152), its fields big-endian as the header's (log entry 16). -/
def State.sendCredit (s : State) (n : Nat) : State :=
  match s.session? n with
  | none => s
  | some x =>
    s.sendFrame n 4 0 0 0 0 (beBytes 1 s.host.power ++ beBytes 1 (b2n (s.inForce.power.getLsbD 0)) ++ beBytes 2 x.seg ++
      beBytes 4 20 ++ beBytes 4 150 ++ beBytes 4 4000)

/-- CREDIT on every OPEN session (R152). -/
def State.creditAll (s : State) : State :=
  (s.wire.sessions.filter fun e => e.2.state = .open_).foldl (fun s e => s.sendCredit e.1) s

/-- A CREDIT is owed: the grant has advanced by K/4 or more without a frame carrying it (R140). -/
def Session.creditOwed (x : Session) : Bool := decide (max 1 (ceilDiv x.params.credit 4) ≤ (x.grant - x.sent).toNat)

/-- A request message is refused: counted, and a NAK unless one of its reason has left within 1,000 grains (R153, R157). -/
def State.sendNak (s : State) (n : Nat) (seq : BitVec 32) (reason index info : Nat) : State :=
  let s := s.updSession n fun x => { x with refusals := bump x.refusals reason }
  match s.session? n with
  | none => s
  | some x =>
    if x.naks.any fun k => k.1 = seq && k.2.1 = reason && decide (s.grain < k.2.2 + 1000) then s
    else
      let s := s.updSession n fun x => { x with
        naks := (seq, reason, s.grain) :: x.naks.filter fun k => decide (s.grain < k.2.2 + 1000) }
      s.sendFrame n 5 0 seq 0 0 (beBytes 2 reason ++ beBytes 2 index ++ beBytes 4 info)

/-! ## Discards -/

/-- A frame's binding is that of an OPEN session (R131 check 2). -/
def Session.bound (x : Session) (f : LfFrame) : Bool :=
  x.state = .open_ && x.params.srcIp = f.srcIp && x.params.srcPort = f.srcPort && x.params.dstIp = f.dstIp &&
  x.params.port = f.port && x.params.vlan = f.vlan

/-- A discard on a port, by reason, and on a session whose binding the frame matches (R157, R158). -/
def State.discardAt (s : State) (port n : Nat) (bound : Bool) (reason : Nat) : State :=
  let s := s.count port (31 + reason) 1
  if bound then
    (s.updSession n fun x => { x with discards := bump x.discards reason }).raiseLimited 205 (n * 16 + reason)
      (((s.session? n).map Session.fn).getD 0) 0 (some 0x307) fun c => eventData [(2, n), (1, reason), (4, c)]
  else s

/-- A discarded frame is counted by reason for its port, and for the session whose binding it matches, with source 205 (R131,
R157, R158). -/
def State.discardFrame (s : State) (f : LfFrame) (reason : Nat) : State :=
  let n := f.header.session.toNat
  s.discardAt f.port n ((s.session? n).any fun x => x.bound f) reason

/-! ## Acknowledgement -/

/-- A sequence has arrived whole or has been refused (R139). -/
def Session.arrived (x : Session) (seq : BitVec 32) : Session :=
  if seqLe seq x.ack then x
  else
    let b := if seq ∈ x.beyond then x.beyond else seq :: x.beyond
    let (next, b) := advanceSeq (b.length + 1) (x.ack + 1) b
    { x with ack := next - 1, beyond := b }

/-- Buffers of messages that go back to Basin. -/
def State.releaseMessages (s : State) (n : Nat) (p : Message → Bool) : State :=
  match s.session? n with
  | none => s
  | some x =>
    let s := (x.messages.filter p).foldl (fun s m => s.queueRelease m.handles { cls := 0, number := x.params.port } 0) s
    s.updSession n fun x => { x with messages := x.messages.filter fun m => !p m }

/-- A message is refused with a NAK: its segments go, and its sequence counts as arrived (R139, R142, R143). -/
def State.refuseMessage (s : State) (n : Nat) (seq : BitVec 32) (reason index info : Nat) : State :=
  ((s.releaseMessages n fun m => m.seqNo = seq).updSession n fun x => x.arrived seq).sendNak n seq reason index info

/-! ## Request messages -/

/-- What makes a segment malformed by itself (R143). -/
def segmentBad (h : LfHeader) (room : Nat) : Bool :=
  let count := h.segCount.toNat
  let i := h.segIndex.toNat
  let len := h.payLen.toNat
  let last := h.flags.getLsbD 1
  count = 0 || decide (count ≤ i) || (last != decide (i + 1 = count)) ||
  (decide (2 ≤ count) && !last && !(len % 256 = 0 && decide (1280 ≤ len ∧ len ≤ room))) ||
  (decide (2 ≤ count) && last && (len = 0 || decide (room < len))) ||
  (count = 1 && decide (len < 64 ∨ Config.maxMessage < len)) ||
  (decide (2 ≤ count) && decide (Config.maxMessage < (count - 1) * 1280 + (if last then len else 1)))

/-- Lengths that disagree among a message's segments: the first segment's index that fails (R143). -/
def lengthsBad (count : Nat) (segs : NatMap Bytes) : Option Nat :=
  match segs.find? fun e => e.1 + 1 != count with
  | none => none
  | some (_, b) =>
    let p := b.length
    (segs.find? fun e => if e.1 + 1 = count then decide (p < e.2.length) else e.2.length != p).map Prod.fst |>.orElse
      fun _ => if Config.maxMessage < (count - 1) * p + 1 then some (count - 1) else
        match mapGet? segs (count - 1) with
        | some l => if Config.maxMessage < (count - 1) * p + l.length then some (count - 1) else none
        | none => none

/-- Bytes of partial messages held for a session (R144). -/
def Session.held (x : Session) : Nat :=
  ((x.messages.filter fun m => !(x.seen.any fun e => e.seqNo = m.seqNo)).map fun m => (m.segs.map fun g => g.2.length).sum).sum

/-- The whole bytes of a message. -/
def Message.bytes (m : Message) : Bytes := m.segs.flatMap Prod.snd

/-- Requests that have left the replay window are forgotten (R142). -/
def Session.trim (x : Session) : Session :=
  { x with seen := x.seen.filter fun e => decide ((x.highest - e.seqNo).toNat < Config.replayWindow) || seqLt x.highest e.seqNo }

/-- A completed request's answer from the replay cache (R142): one LAST segment with REPLAY set. -/
def State.sendReplay (s : State) (n : Nat) (seq : BitVec 32) (c : Completion) : State :=
  (s.updSession n fun x => { x with replayed := inc64 x.replayed }).sendFrame n 2 (2 + 8) seq 0 1 c.bytes

/-- A message admitted as a new request: it reaches Col's intake (R138, R142). In BOOT after a warm restart the datapath answers it
BUSY_RETRY (R364). -/
def State.admitMessage (s : State) (n : Nat) (m : Message) (c : Submission) : State :=
  match s.session? n with
  | none => s
  | some x =>
    let q := m.seqNo
    let s := s.updSession n fun x =>
      let y := { x with highest := if seqLt x.highest q then q else x.highest, seen := { seqNo := q, count := m.count } :: x.seen }
      (y.arrived q).trim
    if s.mode = .boot then
      let (s, r) := s.retryAfter 1
      (s.releaseMessages n fun k => k.seqNo = q).answerUnstamped (c.work x.fn 0 .admin) .busyRetry r
    else (s.arrive (.cmd { c := c })).beginExit

/-- An ACK is owed for a message that has become whole (R139). -/
def Session.oweAck (x : Session) (q : BitVec 32) : Session :=
  { x with ackOwed := true, ackFor := if x.ackOwed && seqLt q x.ackFor then x.ackFor else q }

/-- A message that has become whole (R142): refused with a NAK, or admitted. -/
def State.messageWhole (s : State) (n : Nat) (m : Message) (c : Submission) : State :=
  match s.session? n with
  | none => s
  | some x =>
    let q := m.seqNo
    let s := s.updSession n fun x => x.oweAck q
    if seqLt x.grant q then s.refuseMessage n q 1 0xFFFF x.grant.toNat
    else if seqLt q x.params.initial ∨ (seqLe q x.highest ∧ Config.replayWindow ≤ (x.highest - q).toNat) then
      s.refuseMessage n q 2 0xFFFF (x.highest - 1023).toNat
    else s.admitMessage n m c

/-- The submission that a request message carries (R145). -/
def Message.submission (m : Message) (n : Nat) : Submission :=
  { carrier := .wire n m.seqNo, desc := Descriptor.ofBytes m.bytes, area := [(0, m.bytes)] }

/-- Octets of a frame from an offset on are written into its chain of pool 3 buffers (R178). DESIGN CHOICE (log entry 128): the octets of
the link, IP and UDP headers before the Lerfold header are no operand of the rows, and stand as 0. -/
def State.chainWrite (s : State) (hs : List Handle) (o : OwnerTag) (off : Nat) (b : Bytes) : State :=
  let all := zeros off ++ b
  hs.zipIdx.foldl (fun s (h, i) => (s.writeBuffer h o 0 ((all.drop (2048 * i)).take 2048)).1) s

/-- An accepted REQUEST segment, not held yet (R142 to R144). -/
def State.requestSegment (s : State) (n : Nat) (x : Session) (f : LfFrame) (payload : Bytes) : State :=
  let h := f.header
  let q := h.seq
  let i := h.segIndex.toNat
  let count := h.segCount.toNat
  match x.seen.find? fun e => e.seqNo = q with
  | some e =>
    (match e.done with
     | none => s.discardFrame f 9
     | some c => if i + 1 = e.count then s.sendReplay n q c else s.discardFrame f 8)
  | none =>
    let room := (s.port x.params.port).config.maxFrame - x.params.overhead
    let old := x.messages.find? fun m => m.seqNo = q
    if segmentBad h room ∨ (old.any fun m => m.count != count) then s.refuseMessage n q 3 i i
    else
      let m := old.getD { seqNo := q, count := count }
      let segs := mapSet m.segs i payload
      match lengthsBad count segs with
      | some bad => s.refuseMessage n q 3 bad bad
      | none =>
        let budget := x.params.budget * 1048576
        if budget < x.held + payload.length then s.sendNak n q 4 i ((budget - x.held) / 1024)
        else
          let o : OwnerTag := { cls := 0, number := x.params.port }
          match s.rxDraws o (s.chainLength x.params.port (x.params.overhead + payload.length)) [] with
          | (s, hs, false) => (s.queueRelease hs o 0).noBuffer f.port
          | (s, hs, true) =>
            let s := s.chainWrite hs o (x.params.overhead - 36 - (if x.params.secure then 24 else 0)) (h.bytes ++
              (if x.params.secure then beBytes 8 f.counter.toNat ++ payload ++ beBytes 16 f.tag.toNat else payload))
            let m := { m with segs := segs, handles := m.handles ++ hs, last := s.grain }
            let s := s.updSession n fun x => { x with messages := m :: x.messages.filter fun k => k.seqNo != q }
            if segs.length = count then s.messageWhole n m (m.submission n) else s

/-- Check 8 (R131): a REQUEST segment already held for a message that is not yet whole. -/
def Session.holdsSegment (x : Session) (h : LfHeader) : Bool :=
  h.type = 1 && !(x.seen.any fun e => e.seqNo = h.seq) &&
  ((x.messages.find? fun m => m.seqNo = h.seq).bind fun m => mapGet? m.segs h.segIndex.toNat).isSome

/-- A frame that has passed checks 1 to 6: its type, a segment held already, then what it carries (R131 checks 7 and 8, R154). -/
def State.acceptFrame (s : State) (n : Nat) (f : LfFrame) (payload : Bytes) : State :=
  let t := f.header.type.toNat
  if t ≠ 1 ∧ t ≠ 6 ∧ t ≠ 7 then s.discardFrame f 7
  else if (s.session? n).any fun x => x.holdsSegment f.header then s.discardFrame f 8
  else
    let s := s.updSession n fun x => { x with rx := inc64 x.rx, lastRx := s.grain, pings := 0 }
    match s.session? n with
    | none => s
    | some x =>
      if t = 1 then s.requestSegment n x f payload
      else if t = 6 then s.sendFrame n 7 0 0 0 0 (padTo 8 payload ++ beBytes 8 s.nowNs)
      else s

/-- Check 1 (R131): magic, version, reserved flags, type, payload length against the UDP length. -/
def headerGood (f : LfFrame) : Bool :=
  let h := f.header
  let extra := if h.flags.getLsbD 0 then 24 else 0
  h.magic = 0x4C46 && h.version = 1 && decide (h.flags.toNat < 16) && decide (1 ≤ h.type.toNat ∧ h.type.toNat ≤ 7) &&
  f.udpLen = 32 + extra + h.payLen.toNat && f.payload.length = h.payLen.toNat

/-- A SECURE frame counter is acceptable (R137). -/
def Session.counterGood (x : Session) (c : Nat) : Bool :=
  decide (c < 2 ^ 63) && (!x.rxAny || (!(c ∈ x.rxSeen) && decide (x.rxHigh < c + 1024)))

/-- The counter has been accepted. -/
def Session.counterTake (x : Session) (c : Nat) : Session :=
  let high := if x.rxAny then max x.rxHigh c else c
  { x with rxAny := true, rxHigh := high, rxSeen := c :: x.rxSeen.filter fun k => decide (high < k + 1024) }

/-- The receive checks of R131 on an arriving frame; a SECURE frame then waits for its tag check (R281). -/
def State.receiveLerfold (s : State) (f : LfFrame) : State :=
  let n := f.header.session.toNat
  if (s.port f.port).link ≠ .up ∨ f.udpPort.toNat ≠ s.ports.udp then s
  else if !headerGood f then s.discardFrame f 1
  else
    match s.session? n with
    | none => s.discardFrame f 2
    | some x =>
      if !x.bound f then s.discardFrame f 2
      else if f.header.flags.getLsbD 0 != x.params.secure then s.discardFrame f 3
      else if !x.params.secure then
        if f.header.crc = crc32c (f.header.bytes.take 28) then s.acceptFrame n f f.payload else s.discardFrame f 4
      else if !x.counterGood f.counter.toNat then s.discardFrame f 5
      else s.updGorge fun g => { g with rx := g.rx ++ [f] }

/-- The tag check of a received SECURE frame (R131 checks 5 and 6, R136, R137). -/
def State.checkSecure (s : State) (f : LfFrame) : State :=
  let n := f.header.session.toNat
  match s.session? n with
  | none => s.discardFrame f 2
  | some x =>
    if !x.bound f then s.discardFrame f 2
    else if !x.counterGood f.counter.toNat then s.discardFrame f 5
    else
      match Config.gcmOpen x.params.key (frameNonce x.params.salt f.counter.toNat) f.header.bytes f.payload f.tag with
      | none => s.discardFrame f 6
      | some b =>
        if f.counter.toNat = 2 ^ 63 - 1 then s.arrive (.sessionReset n 3)
        else (s.updSession n fun x => x.counterTake f.counter.toNat).acceptFrame n f b

/-- A partial message without a new segment for 10 ms is discarded (R144). -/
def State.reassemblyTimeout (s : State) (n : Nat) (seq : BitVec 32) : State :=
  match s.session? n with
  | none => s
  | some x =>
    match x.messages.find? fun m => m.seqNo = seq && !(x.seen.any fun e => e.seqNo = seq) with
    | none => s
    | some m => if m.last + 10000 ≤ s.grain then s.refuseMessage n seq 5 0xFFFF m.segs.length else s

/-! ## Responses -/

/-- Sends the next segment of a response (R146, R147, R150, R151); the LAST one carries the trailer, and the command's buffers
go back (R187), its completion counts (R397), and the sequence is completed (R140, R142). While the read runs, a segment leaves once
decryption has yielded its bytes, and the last one waits for the result (R149). -/
def State.sendResponse (s : State) (n : Nat) (seq : BitVec 32) : State :=
  match s.session? n with
  | none => s
  | some x =>
    match x.responses.find? fun r => r.seqNo = seq with
    | none => s
    | some r =>
      let seg := max 1 x.seg
      let failed := r.result.status != .success
      let full := max 1 (ceilDiv r.planned seg)
      let trailer : Completion := { tag := r.tag, head := 0, phase := false, result := r.result }
      let off := r.next * seg
      let cut := failed && !r.data.isEmpty
      if r.growing ∧ (r.data.length < off + seg ∨ r.planned ≤ off + seg) then s else
      let last := !r.growing && (if cut then decide (r.data.length ≤ off) else decide (r.data.length ≤ off + seg))
      let flags := (if last then 2 else 0) + (if r.urgent then 4 else 0)
      let count := if cut && last then r.next + 1 else if r.streamed then 0 else if failed && !cut then 1 else full
      let payload := (r.data.drop off).take seg ++ (if last then trailer.bytes else [])
      let s := if last then s.updSession n fun x => (x.complete seq).keep seq trailer else s
      let s := s.sendFrame n 2 flags seq r.next count payload
      if last then
        let s := (s.updSession n fun x => { x with responses := x.responses.filter fun k => k.seqNo != seq }).countStatus n r.result.status
        (s.queueRelease r.handles { cls := 2, number := n } (s.wirePos n seq)).updHost fun h => { h with idleSince := s.grain }
      else s.updSession n fun x => { x with responses := x.responses.map fun k => if k.seqNo = seq then { k with next := k.next + 1 } else k }

/-- A read's first byte is released as its first data segment is handed to a MAC (R35, R149). -/
def State.firstSegment (s : State) (id : Stamp) (w : Option Work) : State :=
  match w with
  | some w =>
    match w.carrier with
    | .wire n q => if (s.session? n).any fun x => x.responses.any fun r => r.seqNo = q && r.stamp = id && r.next = 0 then s.sendResponse n q else s
    | _ => s
  | none => s

/-! ## Session states (R133, R134) -/

/-- A session opens: its segment size by the port's M now (R128), replay window empty, CREDIT sent, record; the SESSION_OPEN that waits completes (R133, R134). -/
def State.openSession (s : State) (n : Nat) : State :=
  match s.session? n with
  | none => s
  | some x =>
    let opener := x.closer
    let i := x.params.initial
    let seg := x.params.segment (s.port x.params.port).config.maxFrame
    let s := s.updSession n fun x => { x with
      state := .open_, seg := seg, highest := i - 1, ack := i - 1, lowest := i, sent := i - 1, lastRx := s.grain, closer := none }
    let s := (s.sendCredit n).sessionRecord n x 1 (opener.getD 0)
    match opener.bind s.work? with
    | some w => s.deliver w { commit := w.stamp, length := n }
    | none => s

/-- A session closes at a stamp (R134): partial messages go, its commands are decided as by a queue reset (R93). Cause 2
keepalive, 3 counter exhausted, 4 SESSION_CLOSE. -/
def State.closeSession (s : State) (n cause : Nat) (st : Stamp) (closer : Option Stamp) : State :=
  match s.session? n with
  | none => s
  | some x =>
    if x.state ≠ .open_ then s
    else
      let whole (m : Message) : Bool := x.seen.any fun e => e.seqNo = m.seqNo
      let s := (s.releaseMessages n fun m => !whole m).updSession n fun x => { x with state := .closing, closer := closer }
      let s := s.resetContext n st
      if cause = 4 then s.sessionRecord n x 4 st
      else
        let s := s.raiseOnly 204 x.fn st (eventData [(2, n), (1, cause - 1)])
        s.sessionRecord n x cause st

/-- Has a wire command or response of the session still to finish, apart from the SESSION_CLOSE that closes it? -/
def State.sessionBusy (s : State) (n : Nat) (x : Session) : Bool :=
  let wire (c : Carrier) : Bool := match c with
    | .wire k _ => k = n
    | _ => false
  !x.responses.isEmpty || (s.works.any fun w => wire w.carrier && !w.posted && !decide (x.closer = some w.stamp)) ||
  (s.col.intake ++ s.col.carry).any fun e => match e with
    | .cmd a => wire a.c.carrier
    | _ => false

/-- A CLOSING session whose last command has completed and whose responses are sent becomes FREE, and the rules that name it go (R134,
R206). A SESSION_CLOSE that
its own session carried completes first, its response being the last one the session sends. -/
def State.freeSession (s : State) (n : Nat) : State :=
  match s.session? n with
  | none => s
  | some x =>
    if x.state ≠ .closing ∨ s.sessionBusy n x then s
    else
      let closer := x.closer.bind s.work?
      match closer.filter fun w => w.carrier.context = some n with
      | some w => (s.updSession n fun x => { x with closer := none }).deliver w { commit := w.stamp }
      | none =>
        let s := s.sessionRecord n x 5 0
        let s := (s.updWire fun w => { w with sessions := mapErase w.sessions n }).removeRules fun r => r.reqKind = 1 && r.reqNum = n
        let s := (List.range 16).foldl (fun s r => s.forgetLimit 205 (n * 16 + r)) s
        match closer with
        | some w => s.deliver w { commit := w.stamp }
        | none => s

/-- No resolution within 1 s: SESSION_OPEN fails (R133). -/
def State.resolveTimeout (s : State) (n : Nat) : State :=
  match s.session? n with
  | none => s
  | some x =>
    match x.closer.bind s.work? with
    | none => s
    | some w =>
      if x.state = .resolving ∧ grainOf w.stamp + 1000000 ≤ s.grain then
        (s.updWire fun k => { k with sessions := mapErase k.sessions n }).deliver w { status := .conditionFailed, commit := w.stamp }
      else s

/-- A resolution opens the sessions that wait for it (R133). -/
def State.resolved (s : State) (ip : BitVec 128) : State :=
  (s.wire.sessions.filter fun e => e.2.state = .resolving && s.nextHop e.2.params.port e.2.params.dstIp e.2.params.srcIp = ip).foldl (fun s e => s.openSession e.1) s

/-- Keepalive: a PING after one interval of silence and again after two (R154). -/
def State.keepalivePing (s : State) (n : Nat) : State :=
  match s.session? n with
  | none => s
  | some x =>
    let i := x.params.keepalive * 1000
    if x.state = .open_ ∧ i ≠ 0 ∧ x.pings < 2 ∧ x.lastRx + i * (x.pings + 1) ≤ s.grain then
      (s.updSession n fun x => { x with pings := x.pings + 1 }).sendFrame n 6 0 0 0 0 (beBytes 8 s.nowNs)
    else s

/-- The session's keepalive has expired: three intervals without an accepted frame (R154). -/
def State.keepaliveDue (s : State) (n : Nat) : Bool :=
  (s.session? n).any fun x => x.state = .open_ && x.params.keepalive != 0 && decide (x.lastRx + x.params.keepalive * 3000 ≤ s.grain)

/-- A SECURE frame counter has reached its limit (R137). -/
def State.counterDone (s : State) (n : Nat) : Bool :=
  (s.session? n).any fun x => x.state = .open_ && x.params.secure &&
    (decide (2 ^ 64 - 1 ≤ x.txCounter) || (x.rxAny && decide (2 ^ 63 - 2 ≤ x.rxHigh)))

end Sys2Proof.Machine
end

