-- ==== Sys2Proof/Machine/Cluster.lean ====
section
/-! DEFINITION. The cluster: roles (R305), identity and map (R306, R308), map datagrams (R309, R310), mirror pairs (R311 to
R318). -/

namespace Sys2Proof.Machine

/-! ## How an admin command ends -/

/-- An admin command completes with a result at its stamp. -/
def State.done (s : State) (w : Work) (r : Result) : State := s.deliver w { r with commit := w.stamp }

/-- An admin command completes SUCCESS without data. -/
def State.ok (s : State) (w : Work) : State := s.done w {}

/-- An admin command fails. -/
def State.fails (s : State) (w : Work) (f : Fail) : State := s.done w { status := f.1, detail := f.2 }

/-- An admin command fails with a status and detail 0. -/
def State.refuse (s : State) (w : Work) (st : Status) : State := s.fails w (st, 0)

/-- An admin command returns data (R94): its area must hold them; on a ring a DMA write comes first (R113). -/
def State.returns (s : State) (w : Work) (data : Bytes) (r : Result) : State :=
  if w.desc.valLen.toNat < data.length then s.fails w (badField 8)
  else
    match w.carrier with
    | .admin _ | .ring _ =>
      match valuePieces w.sub w.desc.valLen.toNat with
      | .error f => s.fails w f
      | .ok _ => s.addWork { w with phase := .dma, data := data, ponr := true, result := { r with commit := w.stamp } }
    | _ => s.deliver { w with data := data } { r with commit := w.stamp }

/-- A block of `n` bytes that a command reads from its data area; a value length below it names offset 0x08, and its segment list covers
the value length (R76). -/
def Work.block (w : Work) (n : Nat) : Except Fail Bytes :=
  if w.desc.valLen.toNat < n then .error (badField 8)
  else match valuePieces w.sub w.desc.valLen.toNat, valuePieces w.sub n with
    | .error f, _ => .error f
    | _, .error f => .error f
    | .ok _, .ok p => readPieces w.sub p

/-! ## Role (R305) -/

/-- ROLE_SET. -/
def State.roleSet (s : State) (w : Work) : State :=
  let role := w.desc.param 0x20 1
  if 3 ≤ role then s.fails w (badField 0x20)
  else if s.mode ≠ .service ∨ !s.cluster.pairs.isEmpty then s.refuse w .conditionFailed
  else
    let old := s.cluster.role
    let s := s.updCluster fun c => { c with role := roleOf role, roleStored := some (roleOf role) }
    (s.record 0x803 w.stamp ([BitVec.ofNat 8 old.code, BitVec.ofNat 8 role] ++ zeros 6)).ok w

/-! ## Identity and map (R306, R308) -/

/-- Device number of this device: 0 before an identity. -/
def State.deviceNumber (s : State) : Nat := (s.cluster.identity.map Identity.device).getD 0

/-- An address field of 16 bytes as R306 lays it out: for IPv4 the rest is 0. -/
def addressGood (v6 : Bool) (b : Bytes) : Bool := v6 || allZero (b.drop 4)
def multicast (v6 : Bool) (b : Bytes) : Bool :=
  let x := (b.headD 0).toNat
  addressGood v6 b && (if v6 then x = 255 else decide (224 ≤ x ∧ x < 240))

/-- Range checks of an IDENTITY block, lowest offset first. -/
def State.identityFail (s : State) (b : Bytes) : Option Fail :=
  let ver := field b 1 1
  let udp := field b 6 2
  let port := field b 8 1
  firstFail [(ver = 4 || ver = 6, badArea 1), (decide (field b 2 2 < 1024), badArea 2), (decide (field b 4 2 < 1024), badArea 4),
    (!(udp = 0 || udp = 319 || udp = 320 || udp = s.ports.udp), badArea 6),
    (decide (port < 16) && s.portConfigured port, badArea 8), (allZero (slice b 9 3), badArea 9),
    (multicast (ver = 6) (slice b 0x20 16), badArea 0x20), (addressGood (ver = 6) (slice b 0x30 16), badArea 0x30)]

/-- A device-table entry of a map, and its checks. -/
def deviceEntry (b : Bytes) (n : Nat) : Bytes := slice b (0x8040 + 32 * n) 32
def entryPresent (e : Bytes) : Bool := bitOf (field e 0 1) 0
def entryFail (off : Nat) (e : Bytes) : Option Fail :=
  firstFail [(decide (field e 0 1 < 2), badArea off), (!entryPresent e || field e 1 1 = 4 || field e 1 1 = 6, badArea (off + 1)),
    (allZero (slice e 4 4), badArea (off + 4)),
    (!entryPresent e || addressGood (field e 1 1 = 6) (slice e 8 16), badArea (off + 8)), (allZero (slice e 0x18 8), badArea (off + 0x18))]

/-- Slice owners that a map block names, slice 0 first. -/
def sliceWords (b : Bytes) : List Nat := (List.range Config.slices).map fun i => field b (0x40 + 2 * i) 2

/-- Range checks of a MAP block. -/
def mapFail (b : Bytes) : Option Fail :=
  let present := (List.range 1024).filter fun n => entryPresent (deviceEntry b n)
  (firstFail [(allZero (slice b 9 3), badArea 9), (field b 0x0C 4 != 0, badArea 0x0C)]).orElse fun _ =>
  ((sliceWords b).findIdx? fun o => !(o ∈ present)).map (fun i => badArea (0x40 + 2 * i)) |>.orElse fun _ =>
  (List.range 1024).findSome? fun n => entryFail (0x8040 + 32 * n) (deviceEntry b n)

/-- The device table that a map block names. -/
def mapDevices (b : Bytes) : NatMap (Nat × Nat × BitVec 128) :=
  (List.range 1024).filterMap fun n =>
    let e := deviceEntry b n
    if entryPresent e then some (n, field e 1 1, field e 2 2, BitVec.ofNat 128 (fieldBe e 8 16)) else none

/-- Source 192 with its CLUSTER_MAP record (R319). -/
def State.mapEvent (s : State) (op epoch manager : Nat) (st : Stamp) : State :=
  s.raise 192 0 st 0x800 (eventData [(1, op), (4, epoch), (2, manager)])

/-- A map takes effect (R308): owners, devices, epoch; cutovers of earlier epochs are overridden. -/
def State.installMap (s : State) (block : Bytes) (epoch : Nat) (mapStamp st : Stamp) : State :=
  s.updCluster fun c => { c with
    epoch := epoch, mapStamp := mapStamp, adopt := st, refreshed := s.localUs, silent := false, adoptions := inc64 c.adoptions
    owners := (sliceWords block).zipIdx.map fun (o, i) => (i, o % 1024)
    devices := mapDevices block
    overrides := c.overrides.filter fun o => decide (epoch ≤ o.2.2) }

/-- Bytes of the slice and device tables as the manager publishes them (R306, R309). -/
def State.mapBytes (s : State) : Bytes :=
  let own := s.deviceNumber
  ((List.range Config.slices).flatMap fun i => leBytes 2 (mapGet own s.cluster.owners i)) ++
  ((List.range 1024).flatMap fun n => match mapGet? s.cluster.devices n with
    | none => zeros 32
    | some (v, udp, a) => leBytes 1 1 ++ leBytes 1 v ++ leBytes 2 udp ++ zeros 4 ++ beBytes 16 a.toNat ++ zeros 8)

/-- A map datagram's bytes: header with CRC, payload. -/
def mapDatagram (type epoch manager fragment count mapStamp : Nat) (payload : Bytes) : Bytes :=
  let h := beBytes 2 0x4C4D ++ beBytes 1 1 ++ beBytes 1 type ++ beBytes 4 epoch ++ beBytes 2 manager ++ beBytes 1 fragment ++
    beBytes 1 count ++ beBytes 2 payload.length ++ zeros 2 ++ beBytes 8 mapStamp ++ zeros 4
  h ++ beBytes 4 (crc32c (h ++ payload)).toNat ++ payload

/-- A map datagram leaves on the identity's local port, from its address and map UDP port, toward an address and a UDP port (R309). -/
def State.sendMap (s : State) (id : Identity) (dst : BitVec 48) (peer : BitVec 128 × Nat) (cast : Nat) (bytes : Bytes) : State :=
  let e := ((s.port id.port).config.entries.find? fun e => e.version = if id.v6 then 6 else 4).getD {}
  let ip : IpOut := { v6 := id.v6, src := e.addr, dst := peer.1, srcPort := id.udp, dstPort := peer.2 }
  (s.enqueue id.port { kind := .map, len := frameLen e.vlan (some ip) bytes.length, tci := e.vlan, etherType := ipType id.v6
                       ip := some ip, cast := cast, dst := dst, payload := bytes }).updCluster fun c => { c with published := inc64 c.published }

/-- The 64 fragments of the map held, of a type, toward a destination. -/
def State.sendFragments (s : State) (id : Identity) (type : Nat) (dst : BitVec 48) (peer : BitVec 128 × Nat) (cast : Nat) : State :=
  let all := s.mapBytes
  (List.range 64).foldl (fun s i => s.sendMap id dst peer cast
    (mapDatagram type s.cluster.epoch id.device i 64 s.cluster.mapStamp (slice all (1024 * i) 1024))) s

/-- The manager publishes its map to the group (R309). -/
def State.publish (s : State) : State :=
  match s.cluster.identity with
  | none => s
  | some id =>
    if s.cluster.role = .manager ∧ s.cluster.epoch ≠ 0 then
      (s.sendFragments id 1 (groupMac id.v6 id.group) (id.group, id.udp) 1).updCluster fun c => { c with publishedAt := s.localUs }
    else s

/-- Writing an owner onto the slices of a pair: whether a new map changes one. -/
def State.mapMovesPair (s : State) (b : Bytes) : Bool :=
  s.cluster.pairs.any fun p => p.slices.any fun i =>
    field b (0x40 + 2 * i) 2 != (s.sliceOwner i).getD s.deviceNumber

/-- MAP_SET IDENTITY, its block read. -/
def State.mapIdentity (s : State) (w : Work) (b : Bytes) : State :=
  let key := BitVec.ofNat 128 (field b 0x10 16)
  let held := s.index.keys.any fun k => !k.versions.isEmpty
  if s.cluster.role = .standalone then s.refuse w .conditionFailed
  else match s.identityFail b with
    | some f => s.fails w f
    | none =>
      if s.index.fpKey ≠ some key ∧ held then s.refuse w .conditionFailed
      else if s.deviceNumber ≠ field b 2 2 ∧ !s.cluster.pairs.isEmpty then s.refuse w .conditionFailed
      else
        let id : Identity := { v6 := field b 1 1 = 6, device := field b 2 2, manager := field b 4 2, udp := field b 6 2, port := field b 8 1
                               group := BitVec.ofNat 128 (fieldBe b 0x20 16), address := BitVec.ofNat 128 (fieldBe b 0x30 16) }
        let s := (s.updCluster fun c => { c with identity := some id }).updIndex fun i => { i with fpKey := some key }
        ((s.metaWrite 0).mapEvent 0 s.cluster.epoch id.manager w.stamp).ok w

/-- MAP_SET MAP, its block read. -/
def State.mapMap (s : State) (w : Work) (b : Bytes) : State :=
  let epoch := field b 0x0C 4
  if s.cluster.role ≠ .manager then s.refuse w .conditionFailed
  else match mapFail b with
    | some f => s.fails w f
    | none =>
      if epoch ≤ s.cluster.epoch ∨ s.mapMovesPair b then s.refuse w .conditionFailed
      else
        let s := (s.installMap b epoch w.stamp w.stamp).metaWrite 0
        ((s.mapEvent 1 epoch s.deviceNumber w.stamp).publish).ok w

/-- MAP_SET: the operation selects the block's length (R306). -/
def State.mapSetCmd (s : State) (w : Work) : State :=
  match w.block 64 with
  | .error f => s.fails w f
  | .ok h =>
    if field h 0 1 = 0 then s.mapIdentity w h
    else if field h 0 1 = 1 then
      match w.block 65600 with
      | .error f => s.fails w f
      | .ok b => s.mapMap w b
    else if s.cluster.role = .standalone then s.refuse w .conditionFailed
    else s.fails w (badArea 0)

/-! ## Map datagrams (R309, R310) -/

/-- A datagram is discarded: counted by cause, source 195 (R310, R377). -/
def State.mapDiscard (s : State) (cause : Nat) (d : MapDatagram) (v6 : Bool) : State :=
  (s.updCluster fun c => { c with discards := bump c.discards cause }).raiseLimited 195 0 0 0 (some 0x800) fun _ =>
    BitVec.ofNat 128 (cause + (if v6 then 6 else 4) * 2 ^ 8 + d.epoch % 2 ^ 32 * 2 ^ 32 +
      (if v6 then (d.srcIp.toNat % 2 ^ 64) else d.srcIp.toNat / 2 ^ 96) * 2 ^ 64)

/-- The fields of a PUBLISH or REPLY are in range. -/
def mapDatagramGood (d : MapDatagram) : Bool :=
  d.magic = 0x4C4D && d.version = 1 && decide (d.manager < 1024) && d.reserved = 0 &&
  ((d.count = 64 && decide (d.fragment < 64) && d.payLen = 1024 && d.payload.length = 1024 && d.epoch != 0) ||
   (d.type = 3 && d.count = 0 && d.fragment = 0 && d.payLen = 0 && d.payload.isEmpty))

/-- A worker takes a PUBLISH or REPLY (R310): discards it, notes a refresh, or gathers it. The Bool says that a whole map waits
for its adoption. -/
def State.mapReceive (s : State) (d : MapDatagram) : State × Bool :=
  match s.cluster.identity with
  | none => (s, false)
  | some id =>
    let c := s.cluster
    if c.role ≠ .worker ∨ d.type = 2 then (s, false)
    else if !d.crcOk then (s.mapDiscard 1 d id.v6, false)
    else if !(d.type = 1 ∨ d.type = 3) ∨ !mapDatagramGood d then (s.mapDiscard 2 d id.v6, false)
    else if d.srcIp ≠ id.address ∨ d.manager ≠ id.manager then (s.mapDiscard 3 d id.v6, false)
    else if d.epoch < c.epoch then (s.mapDiscard 4 d id.v6, false)
    else if d.epoch = c.epoch ∨ d.count = 0 then
      (if d.epoch = c.epoch then s.updCluster fun c => { c with refreshed := s.localUs, silent := false } else s, false)
    else
      let fresh := decide (c.gatherEpoch < d.epoch)
      if d.epoch < c.gatherEpoch then (s, false)
      else
        let held := mapSet (if fresh then [] else c.gathered) d.fragment d.payload
        let s := s.updCluster fun c => { c with
          gatherEpoch := d.epoch, gatherStamp := d.mapStamp, gatherAt := if fresh then s.localUs else c.gatherAt, gathered := held }
        if held.length = 64 then
          (s.updCluster fun c => { c with gatherEpoch := 0, gatherAt := 0, gatherStamp := 0, gathered := [],
                                          whole := some (d.epoch, d.mapStamp, held) }, true)
        else (s, false)

/-- The adoption of a whole map at its stamp (R310). -/
def State.mapAdopt (s : State) (epoch : Nat) (st : Stamp) : State :=
  match s.cluster.whole with
  | none => s
  | some (e, ms, held) =>
    if e ≠ epoch ∨ e ≤ s.cluster.epoch ∨ s.cluster.role ≠ .worker then s
    else
      let block := zeros 0x40 ++ (held.flatMap Prod.snd)
      let s := (s.installMap block e ms st).updCluster fun c => { c with whole := none }
      (s.metaWrite 0).mapEvent 1 e ((s.cluster.identity.map Identity.manager).getD 0) st

/-- The manager answers a REQUEST (R309). -/
def State.mapRequest (s : State) (d : MapDatagram) : State :=
  match s.cluster.identity with
  | none => s
  | some id =>
    if s.cluster.role ≠ .manager then s
    else if !d.crcOk then s.mapDiscard 1 d id.v6
    else if d.magic ≠ 0x4C4D ∨ d.version ≠ 1 ∨ d.type ≠ 2 ∨ d.count ≠ 0 ∨ d.fragment ≠ 0 ∨ d.payLen ≠ 0 ∨ d.mapStamp ≠ 0 ∨ d.reserved ≠ 0 then
      s.mapDiscard 2 d id.v6
    else
      let fresh := decide (s.cluster.reqAt + 1000000 ≤ s.localUs)
      let s := s.updCluster fun c => { c with reqAt := if fresh then s.localUs else c.reqAt, reqs := if fresh then [] else c.reqs }
      if 100 ≤ mapGet 0 s.cluster.reqs d.port then s.updCluster fun c => { c with dropped := inc64 c.dropped }
      else
        let s := s.updCluster fun c => { c with reqs := bump c.reqs d.port, answered := inc64 c.answered }
        let dst := ((s.wire.neighbours.find? fun e => e.1 = d.srcIp).map Prod.snd).getD 0
        if d.epoch = s.cluster.epoch then
          s.sendMap id dst (d.srcIp, d.srcPort.toNat) 0 (mapDatagram 3 s.cluster.epoch id.device 0 0 s.cluster.mapStamp [])
        else s.sendFragments id 3 dst (d.srcIp, d.srcPort.toNat) 0

/-- A fragment set that is not whole 2 s after its first fragment is discarded (R310). -/
def State.mapGatherTimeout (s : State) : State :=
  let c := s.cluster
  if c.gatherEpoch ≠ 0 ∧ c.gatherAt + 2000000 ≤ s.localUs then
    let d : MapDatagram := {
      port := 0, srcIp := (c.identity.map Identity.address).getD 0, srcPort := 0, type := 1, magic := 0, version := 1,
      epoch := c.gatherEpoch, manager := 0, fragment := 0, count := 0, payLen := 0, mapStamp := 0, reserved := 0, crcOk := true, payload := [] }
    (s.mapDiscard 5 d (c.identity.any Identity.v6)).updCluster fun c => { c with gatherEpoch := 0, gatherStamp := 0, gatherAt := 0, gathered := [] }
  else s

/-- No adoption or refresh for 5 s at a non-zero epoch: source 193, once (R310). -/
def State.mapSilence (s : State) : State :=
  let c := s.cluster
  if c.role = .worker ∧ c.epoch ≠ 0 ∧ !c.silent ∧ c.refreshed + 5000000 ≤ s.localUs then
    (s.updCluster fun c => { c with silent := true }).raise 193 0 0 0x800 (eventData [(4, c.epoch)])
  else s

/-! ## Pairs: start (R311) -/

/-- Range checks of a pair block, lowest offset first. -/
def State.pairBlockFail (s : State) (b : Bytes) : Option Fail :=
  let source := field b 1 1 = 0
  let rate := field b 8 4
  let lead := field b 0xC 4
  let port := field b 0x16 1
  let ver := field b 0x17 1
  (firstFail [(decide (1 ≤ field b 0 1 ∧ field b 0 1 ≤ 3), badArea 0), (decide (field b 1 1 < 2), badArea 1), (decide (field b 2 2 < 1024), badArea 2),
    (decide (field b 4 2 < 4096), badArea 4), (decide (1 ≤ field b 6 2 ∧ field b 6 2 ≤ Config.slices), badArea 6),
    (!source || rate = 0 || decide (100 ≤ rate ∧ rate ≤ 10000), badArea 8), (!source || lead = 0 || decide (10 ≤ lead ∧ lead ≤ 1000000), badArea 0xC),
    (!source || field b 0 1 != 2 || decide (field b 0x14 1 ≤ 16), badArea 0x14), (!source || decide (field b 0x15 1 < 2), badArea 0x15),
    (!source || (decide (port < 16) && s.portConfigured port), badArea 0x16), (!source || ver = 4 || ver = 6, badArea 0x17),
    (!source || addressGood (ver = 6) (slice b 0x18 16), badArea 0x18),
    (allZero (slice b 0x2A 2), badArea 0x2A), (allZero (slice b 0x58 8), badArea 0x58), (source || decide (field b 0x60 1 ≤ 64), badArea 0x60),
    (allZero (slice b 0x61 7), badArea 0x61), (allZero (slice b 0x268 8), badArea 0x268)])

/-- Slices that a pair block lists. -/
def pairSlices (b : Bytes) (n : Nat) : List Nat := (List.range n).map fun i => field b (0x270 + 2 * i) 2

/-- The lowest free pair slot. -/
def State.pairSlot (s : State) : Nat := ((List.range 4).find? fun i => s.cluster.pairs.all fun p => p.slot != i).getD 4

/-- Hold stamps that a target's block lists and that are no hold points yet, each once. -/
def State.newHolds (s : State) (b : Bytes) : List Stamp :=
  ((List.range (field b 0x60 1)).map fun i => field b (0x68 + 8 * i) 8).foldl
    (fun l h => if h ∈ l ∨ (s.index.holds.any fun x => x.stamp = h) then l else l ++ [h]) []

/-- A frame from the source toward the target of a pair's peer session (R156, R311): header as a client sends it, LAST on a final segment
(R129). -/
def State.peerFrame (s : State) (p : Pair) (type : Nat) (last : Bool) (seq : BitVec 32) (index count : Nat) (payload : Bytes) : State :=
  let q := p.params
  let h : LfHeader := {
    magic := 0x4C46, version := 1, type := BitVec.ofNat 8 type, session := BitVec.ofNat 16 p.session, flags := BitVec.ofNat 16 (b2n q.secure + 2 * b2n last)
    seq := seq, ack := 0, segIndex := BitVec.ofNat 16 index, segCount := BitVec.ofNat 16 count, payLen := BitVec.ofNat 32 payload.length
    credit := 0, crc := 0 }
  let base : TxFrame := { kind := .lerfold, len := max 64 (q.overhead + payload.length)
                          tci := q.vlan, etherType := ipType q.v6, dst := (s.macOf q.port q.dstIp q.srcIp).getD 0
                          ip := some (q.ipOut s.ports.udp) }
  if q.secure then
    let (c, t) := Config.gcmSeal q.key (frameNonce q.salt p.txCounter) h.bytes payload
    ((s.frameUnit payload.length).updPair p.number fun p => { p with txCounter := p.txCounter + 1 }).enqueue q.port
      { base with header := some h, payload := c, counter := p.txCounter, tag := t }
  else s.enqueue q.port { base with header := some h.sealed, payload := payload }

/-- The REQUEST frames of a pair message, its segments in order (R128, R138). -/
def State.peerRequest (s : State) (p : Pair) (m : PeerMsg) : State :=
  let body := m.desc.bytes ++ m.area
  let seg := max 256 (p.params.segment (s.port p.params.port).config.maxFrame)
  let n := max 1 (ceilDiv body.length seg)
  (List.range n).foldl (fun s i =>
    match s.cluster.pairs.find? fun x => x.number = p.number with
    | none => s
    | some p => s.peerFrame p 1 (i + 1 = n) m.seqNo i n (slice body (seg * i) seg)) s

/-- Messages leave as far as the credit grant allows (R140). -/
def State.peerSendAll (s : State) (number : Nat) : Nat → State
  | 0 => s
  | fuel + 1 =>
    match s.cluster.pairs.find? fun p => p.number = number with
    | none => s
    | some p =>
      match p.toSend with
      | [] => s
      | m :: rest =>
        if p.target ∨ !seqLe p.nextSeq p.credit then s
        else
          let m := { m with seqNo := p.nextSeq, sentAt := s.grain, desc := { m.desc with tag := p.nextSeq.truncate 16 } }
          let s := s.updPair number fun p => { p with toSend := rest, waiting := p.waiting ++ [m], nextSeq := p.nextSeq + 1 }
          (s.peerRequest p m).peerSendAll number fuel

/-- Queues a pair message and sends what may go. -/
def State.peerQueue (s : State) (number : Nat) (m : PeerMsg) : State :=
  let s := s.updPair number fun p => { p with toSend := p.toSend ++ [m] }
  s.peerSendAll number 65536

/-- A message without key or value: COPY_DONE, PROPOSE, MARK (R311). -/
def plainMsg (kind : Nat) (st : Stamp) : PeerMsg :=
  { kind := kind, seqNo := 0, desc := pairDesc 0x22 0 0 0 0 0 kind 0 st, area := [] }

/-- Why a pair may not start (R311): CONDITION_FAILED. -/
def State.pairRefused (s : State) (b : Bytes) : Bool :=
  let source := field b 1 1 = 0
  let slices := pairSlices b (field b 6 2)
  let session := s.session? (field b 4 2)
  s.cluster.role = .standalone || s.time.quality != .locked || decide (4 ≤ s.cluster.pairs.length) ||
  (s.cluster.pairs.any fun p => p.slices.any fun i => slices.contains i) ||
  (if source then slices.any fun i => !s.owns i else slices.any fun i => s.owns i) ||
  (source && s.delta.sealed && field b 0 1 != 3) || (!source && s.delta.sealed) ||
  (!source && !(session.any fun x => x.state = .open_ && x.params.keepalive != 0))

/-- PAIR_START (R311). -/
def State.pairStart (s : State) (w : Work) : State :=
  match w.block 0x270 with
  | .error f => s.fails w f
  | .ok h =>
    match s.pairBlockFail h with
    | some f => s.fails w f
    | none =>
      match w.block (0x270 + 2 * field h 6 2) with
      | .error f => s.fails w f
      | .ok b =>
        let slices := pairSlices b (field b 6 2)
        match slices.findIdx? (Config.slices ≤ ·) with
        | some i => s.fails w (badArea (0x270 + 2 * i))
        | none =>
          let source := field b 1 1 = 0
          let secure := source && bitOf (field b 0x15 1) 0
          let kek := (s.fn w.fn).kek
          let key := kek.bind fun k => Config.unwrapKey k (slice b 0x30 40)
          if secure ∧ kek.isSome ∧ key.isNone then s.fails w (badArea 0x30)
          else if s.pairRefused b ∨ (secure ∧ kek.isNone) then s.refuse w .conditionFailed
          else
            let holds := if source then [] else s.newHolds b
            if Config.holdPoints < s.index.holds.length + holds.length then s.fails w (.noSpace, 4)
            else
              let slot := s.pairSlot
              let v6 := field b 0x17 1 = 6
              let initial := BitVec.ofNat 32 (field b 0x10 4)
              let port := field b 0x16 1
              let target := BitVec.ofNat 128 (fieldBe b 0x18 16)
              let own := ((s.port port).config.entries.find? fun e => e.version = if v6 then 6 else 4).getD {}
              let p : Pair := {
                number := slot + 1, kind := field b 0 1, target := !source, peer := field b 2 2, session := field b 4 2, slices := slices
                slot := slot, fn := w.fn, rate := if field b 8 4 = 0 then 2000 else field b 8 4
                lead := if field b 0xC 4 = 0 then 1000 else field b 0xC 4, sample := field b 0x14 1, t0 := w.stamp, startedAt := s.localUs, nextSeq := initial
                credit := initial - 1
                params := { v6 := v6, secure := secure, port := port, srcPort := BitVec.ofNat 16 (field b 0x28 2), vlan := own.vlan
                            srcIp := target, dstIp := own.addr, tci := own.vlan.getD 0, salt := BitVec.ofNat 32 (field b 0x2C 4)
                            key := key.getD 0, initial := initial } }
              let all := s.index.spaces.map Prod.fst
              let s := holds.foldl (fun s h => (s.addHold h all).holdRecord h 3 0 all.length w.stamp) s
              let s := s.updCluster fun c => { c with pairs := c.pairs ++ [p] }
              let s := if s.mode = .paired then s else s.enterMode .paired
              let s := s.raise 194 0 w.stamp 0x801 (eventData [(1, p.number), (1, p.kind), (1, b2n p.target), (2, p.peer), (2, slices.length)])
              let s := if source ∧ (s.macOf port own.addr target).isNone then s.neighbourRequest port own.addr (s.nextHop port own.addr target) else s
              let s := if source then s.peerFrame p 6 false 0 0 0 (beBytes 8 s.nowNs) else s
              (s.metaWrite 0).done w { length := p.number }

/-! ## Pairs: ends (R317, R318) -/

/-- A pair is gone; the last one ends PAIRED (R15). -/
def State.removePair (s : State) (number : Nat) : State :=
  let s := s.updCluster fun c => { c with pairs := c.pairs.filter fun p => p.number != number }
  if s.mode = .paired ∧ s.cluster.pairs.isEmpty then s.enterMode (if s.delta.sealed then .sealed else .service) else s

/-- Copied versions leave a target whose pair fails (R317). -/
def State.dropCopies (s : State) (p : Pair) : State :=
  let cut (k : KeyEntry) : KeyEntry :=
    { k with versions := k.versions.filter fun v => !(p.copies.any fun c => c.1 = k.ns && c.2.1 = k.fp && c.2.2 = v.stamp) }
  s.cutKeys cut

/-- Source 197 (R319): state entered, 0 for ended, and cause. -/
def State.pairEvent (s : State) (p : Pair) (state cause : Nat) (st : Stamp) : State :=
  s.raise 197 0 st 0x801 (eventData [(1, p.number), (1, state), (1, cause)])

/-- A pair fails, or becomes UNCERTAIN once a cutover is proposed or accepted (R317). -/
def State.pairFail (s : State) (p : Pair) (cause : Nat) (st : Stamp) : State :=
  match p.state with
  | .copying | .comparing =>
    let s := if p.target then s.dropCopies p else s
    ((s.removePair p.number).pairEvent p 0 cause st)
  | .proposed | .committed =>
    (s.updPair p.number fun p => { p with state := .uncertain, failed := none, waiting := [], toSend := [] }).pairEvent p 5 cause st
  | .uncertain => s

/-- The slices of a pair have an owner set by its cutover (R308). -/
def State.overrideOwner (s : State) (p : Pair) (owner : Nat) : State :=
  s.updCluster fun c => { c with overrides := p.slices.foldl (fun m i => mapSet m i (owner, c.epoch)) c.overrides }

/-- The source drops the slices in the background, once commands stamped below the cutover are done (R316). -/
def State.dropSlices (s : State) (p : Pair) : State :=
  s.updCluster fun c => { c with drops := c.drops ++ [(p.slices, p.cutover * 4096)] }

/-- The cutover completes on one side (R316): ownership, source 196, the pair's end. -/
def State.cutover (s : State) (p : Pair) (st : Stamp) : State :=
  let s := if p.target then s.overrideOwner p s.deviceNumber else (s.overrideOwner p p.peer).dropSlices p
  (s.removePair p.number).raise 196 0 st 0x801 (eventData [(1, p.number), (8, p.cutover), (1, b2n p.target)])

/-- PAIR_END (R318). -/
def State.pairEnd (s : State) (w : Work) : State :=
  let disp := w.desc.param 0x22 1
  if 2 < disp then s.fails w (badField 0x22)
  else
    match s.cluster.pairs.find? fun p => p.number = w.desc.param 0x20 2 with
    | none => s.refuse w .notFound
    | some p =>
      if p.fn ≠ w.fn then s.refuse w .notPermitted
      else if disp = 0 then ((s.pairFail p 1 w.stamp).metaWrite 0).ok w
      else if p.state ≠ .uncertain then s.refuse w .conditionFailed
      else
        let s := if disp = 1 then (if p.target then s.dropCopies p else s)
          else if p.target then s.overrideOwner p s.deviceNumber
          else (s.overrideOwner p p.peer).dropSlices p
        (((s.removePair p.number).pairEvent p 0 1 w.stamp).metaWrite 0).ok w

/-- Slices dropped in the background (R316, R317): versions go once no command below the cutover is in flight. -/
def State.backgroundDrops (s : State) : State :=
  let ready := s.cluster.drops.filter fun d => s.works.all fun w => decide (d.2 ≤ w.stamp)
  let gone (k : KeyEntry) : Bool := ready.any fun d => d.1.contains (sliceOf k.fp)
  if ready.isEmpty then s
  else
    (s.cutKeys fun k => if gone k then { k with versions := [] } else k).updCluster fun c =>
      { c with drops := c.drops.filter fun d => !(d ∈ ready) }

/-! ## The source's side (R313 to R316) -/

/-- A pair, by number. -/
def State.pair? (s : State) (number : Nat) : Option Pair := s.cluster.pairs.find? fun p => p.number = number

/-- Order of the bulk copy: fingerprint (which orders slices too), namespace, key, stamp. -/
def copyBefore (a b : BitVec 64 × Nat × Bytes × Stamp) : Bool :=
  if a.1 ≠ b.1 then decide (a.1.toNat < b.1.toNat)
  else if a.2.1 ≠ b.2.1 then decide (a.2.1 < b.2.1)
  else if a.2.2.1 ≠ b.2.2.1 then bytesLe a.2.2.1 b.2.2.1
  else decide (a.2.2.2 < b.2.2.2)

/-- The next version that the bulk copy sends: needed, stamped below T0, in the listed slices, above the position. DESIGN CHOICE (log entry
139): a version in the lost-record list, which no read returns (R255), is passed over. -/
def State.copyNext (s : State) (p : Pair) : Option (KeyEntry × Version) :=
  let lost (k : KeyEntry) (v : Version) : Bool := s.delta.lostList.any fun l => l.1 = k.ns && l.2.1 = k.fp && l.2.2 = v.stamp
  let all := (s.index.keys.filter fun k => p.slices.contains (sliceOf k.fp)).flatMap fun k =>
    ((withNewer none k.versions).filter fun (v, newer) =>
      decide (v.stamp < p.t0) && s.needed k.ns k.key v newer && !lost k v).map fun (v, _) => (k, v)
  let pos (x : KeyEntry × Version) : BitVec 64 × Nat × Bytes × Stamp := (x.1.fp, x.1.ns, x.1.key, x.2.stamp)
  (all.filter fun x => p.cursor.all fun c => copyBefore c (pos x)).foldl (fun acc x => match acc with
    | none => some x
    | some a => if copyBefore (pos x) (pos a) then some x else some a) none

/-- The APPLY of a held version (R312, R313). -/
def copyMsg (k : KeyEntry) (v : Version) : PeerMsg :=
  let (op, value, arg, st) :=
    if v.secured ≠ 0 then (0x13, [], 0, v.secured)
    else if v.kind = .tombstone then (0x12, [], 0, v.stamp)
    else (0x10, v.value, v.expiry, v.stamp)
  { kind := 1, seqNo := 0, desc := pairDesc op k.ns k.key.length value.length 0 arg 1 0 st, area := k.key ++ value }

/-- The bulk copy has sent more than the copy rate allows since its start (R313): 1 MB/s is a byte in a microsecond. -/
def State.copyAhead (s : State) (p : Pair) : Bool := decide (p.rate * (s.localUs - p.startedAt) < p.copied)

/-- One step of the bulk copy; COPY_DONE at its end (R313). -/
def State.bulkCopy (s : State) (number : Nat) : State :=
  match s.pair? number with
  | none => s
  | some p =>
    let waiting := (p.waiting.filter fun m => m.kind = 1 && !m.acked).length + p.toSend.length
    if p.target ∨ p.walkDone ∨ p.state ≠ .copying ∨ Config.maxWaitingApplies ≤ waiting ∨ s.copyAhead p then s
    else
      match s.copyNext p with
      | none => (s.updPair number fun p => { p with walkDone := true }).peerQueue number (plainMsg 3 p.t0)
      | some (k, v) =>
        let m := copyMsg k v
        let bytes := 256 * recordUnits k.key.length (m.area.length - k.key.length)
        (s.updPair number fun p => { p with cursor := some (k.fp, k.ns, k.key, v.stamp), copied := satAdd max64 p.copied bytes }).peerQueue number m

/-- The source proposes a cutover (R314). -/
def State.proposeSend (s : State) (number : Nat) : State :=
  match s.pair? number with
  | none => s
  | some p =>
    let applies := ((p.waiting ++ p.toSend).filter fun m => m.kind = 1).length
    if p.target ∨ p.kind = 2 ∨ p.state ≠ .copying ∨ !p.copyDone ∨ 1024 ≤ applies ∨ s.time.quality ≠ .locked then s
    else
      let c := s.grain + p.lead
      ((s.updPair number fun p => { p with state := .proposed, cutover := c, proposeSent := true }).metaWrite 0).peerQueue number (plainMsg 4 (c * 4096))

/-- The target's answer to PROPOSE (R315, R316): 0 for SUCCESS. -/
def State.proposeAnswer (s : State) (number status : Nat) : State :=
  match s.pair? number with
  | none => s
  | some p =>
    if p.target ∨ p.state ≠ .proposed ∨ !(p.waiting.any fun m => m.kind = 4) then s
    else
      let s := s.updPair number fun p => { p with waiting := p.waiting.filter fun m => m.kind != 4 }
      if status = 0 then (s.updPair number fun p => { p with state := .committed }).metaWrite 0
      else
        let s := s.updPair number fun p =>
          { p with state := .copying, cutover := 0, proposeSent := false, refusals := p.refusals + 1, lead := min 1000000 (2 * p.lead) }
        match s.pair? number with
        | none => s
        | some p => if 16 ≤ p.refusals then (s.pairFail p 4 0).metaWrite 0 else s.metaWrite 0

/-- The source sends MARK once every write below C is done and applied (R316). -/
def State.markSend (s : State) (number : Nat) : State :=
  match s.pair? number with
  | none => s
  | some p =>
    let open_ := s.works.any fun w => isWriteOp w.op && decide (grainOf w.stamp < p.cutover) && !w.posted &&
      w.items.any fun i => p.slices.contains (sliceOf i.fp)
    let applies := (p.waiting ++ p.toSend).any fun m => m.kind = 1
    if p.target ∨ p.state ≠ .committed ∨ p.markSent ∨ open_ ∨ applies ∨ s.grain < p.cutover then s
    else (s.updPair number fun p => { p with markSent := true }).peerQueue number (plainMsg 5 (p.cutover * 4096))

/-- MARK's completion completes the cutover on the source (R316). -/
def State.markAnswer (s : State) (number : Nat) : State :=
  match s.pair? number with
  | none => s
  | some p => if p.target ∨ p.state ≠ .committed ∨ !p.markSent then s else (s.cutover p 0).metaWrite 0

/-- A pair message has been unacknowledged for 1 s on the source, or the target's peer session has closed (R317). -/
def State.peerLost (s : State) (number : Nat) : State :=
  match s.pair? number with
  | none => s
  | some p =>
    let late := p.waiting.any fun m => !m.acked && decide (m.sentAt + 1000000 ≤ s.grain)
    let closed := p.target && !((s.session? p.session).any fun x => x.state = .open_)
    if (!p.target && late) || closed then (s.pairFail p 2 0).metaWrite 0 else s

/-- A frame from the target on a peer session, to which the source is the client (R156, R311, R313): acknowledgement, credit, the completion
of a message; a PING, which it answers (R154); a NAK, whose reason its status gives: what was refused for want of credit, of room, or of a
segment goes again (R153, R155). -/
def State.peerReceive (s : State) (f : PeerFrame) : State :=
  match s.pair? f.pair with
  | none => s
  | some p =>
    if p.target ∨ !f.valid then s
    else
      let s := s.updPair f.pair fun p => { p with
        credit := if seqLt p.credit f.credit then f.credit else p.credit
        waiting := p.waiting.map fun m => { m with acked := m.acked || seqLe m.seqNo f.ack || (f.type = 3 && m.seqNo = f.seq) } }
      let s := s.peerSendAll f.pair 65536
      if f.type = 6 then s.peerFrame p 7 false 0 0 0 (padTo 8 f.payload ++ beBytes 8 s.nowNs)
      else if f.type = 5 then
        match p.waiting.find? fun m => m.seqNo = f.seq with
        | some m => if f.status = 1 ∨ f.status = 4 ∨ f.status = 5 then s.peerRequest p m else s
        | none => s
      else if f.type ≠ 2 then s
      else
        match p.waiting.find? fun m => m.seqNo = f.seq && m.kind ≤ 3 with
        | none => s
        | some m =>
          let s := s.updPair f.pair fun p => { p with waiting := p.waiting.filter fun x => x.seqNo != f.seq }
          if m.kind = 1 then
            if f.status = 0 then s.updPair f.pair fun p => { p with applied := inc64 p.applied }
            else match s.pair? f.pair with
              | none => s
              | some p => (s.pairFail p 3 0).metaWrite 0
          else if m.kind = 3 ∧ f.status = 0 then
            (s.updPair f.pair fun p => { p with copyDone := true, state := if p.kind = 2 then .comparing else p.state }).metaWrite 0
          else s

/-- A pair message is sent again with the same sequence (R155, R315). -/
def State.peerRetransmit (s : State) (number : Nat) (seq : BitVec 32) : State :=
  match s.pair? number with
  | none => s
  | some p =>
    match p.waiting.find? fun m => m.seqNo = seq with
    | none => s
    | some m => s.peerRequest p m

/-! ## The target's side (R313, R315, R316) -/

/-- COPY_DONE, PROPOSE and MARK at their stamps. -/
def State.targetMessage (s : State) (w : Work) (p : Pair) : State :=
  let c := grainOf (w.desc.param 0x38 8)
  match w.desc.peerKind with
  | 3 => (s.updPair p.number fun p => { p with copyDone := true }).ok w
  | 4 =>
    if p.state = .copying ∧ p.kind ≠ 2 ∧ grainOf w.stamp + 2 ≤ c ∧ s.time.quality = .locked then
      ((s.updPair p.number fun p => { p with state := .committed, cutover := c }).metaWrite 0).ok w
    else s.refuse w .conditionFailed
  | _ =>
    if p.state = .committed ∧ p.cutover = c then ((s.ok w).cutover p w.stamp).metaWrite 0
    else s.refuse w .conditionFailed

/-- What pairs make of the commands that have just ended: a failed APPLY, a closed peer session (R317), messages to send. -/
def State.pairSettle (s : State) : State :=
  (s.cluster.pairs.map Pair.number).foldl (fun s n =>
    match s.pair? n with
    | none => s
    | some p =>
      match p.failed with
      | some cause => (s.pairFail p cause 0).metaWrite 0
      | none => if p.target then s.peerLost n else s.peerSendAll n 65536) s

end Sys2Proof.Machine
end

