-- ==== Sys2Proof/Machine/Admin.lean ====
section
/-! DEFINITION. Admin commands: queue contexts (R95, R118), namespaces (R44, R46, R48, R96), key pages (R286 to R289), sessions
(R132 to R134), health (R157, R261), time (R19, R29, R97, R98), calendar (R99), hold points (R57), recorder (R353 to R355),
ports (R162 to R164). Each takes the work record of the command at its stamp. -/

namespace Sys2Proof.Machine

/-! ## Queue contexts (R95, R118) -/

/-- A queue context is in use. -/
def State.contextUsed (s : State) (ctx : Nat) : Bool := (s.ring? ctx).isSome || (s.session? ctx).isSome

/-- The lowest-numbered free context. -/
def State.freeContext (s : State) : Option Nat := (List.range Config.queueContexts).find? fun c => !s.contextUsed c

/-- QUEUE_CREATE. -/
def State.queueCreate (s : State) (w : Work) : State :=
  let d := w.desc
  let sq := d.stampArg.toNat
  let cq := d.valAddr.toNat
  let ctx := d.param 0x20 2
  let size (off : Nat) : Bool := decide (4 ≤ d.param off 1 ∧ d.param off 1 ≤ 16)
  match firstFail [(sq % 4096 = 0, badField 0x10), (cq % 4096 = 0, badField 0x18), (decide (ctx < 4096) || ctx = 0xFFFF, badField 0x20),
      (size 0x22, badField 0x22), (size 0x23, badField 0x23), (decide (d.param 0x24 2 ≤ maxVector w.fn), badField 0x24),
      (decide (d.param 0x26 2 < 2), badField 0x26), (d.param 0x28 24 = 0, badField 0x28)] with
  | some f => s.fails w f
  | none =>
    if ctx ≠ 0xFFFF ∧ s.contextUsed ctx then s.refuse w .conditionFailed
    else
      match (if ctx = 0xFFFF then s.freeContext else some ctx) with
      | none => s.fails w (.noSpace, 5)
      | some c =>
        let r : Ring := { fn := w.fn, sqBase := sq, cqBase := cq, sqSize := d.param 0x22 1, cqSize := d.param 0x23 1,
                          vector := d.param 0x24 2, intr := d.param 0x26 2 = 1 }
        ((s.clearCounts c).updHost fun h => { h with rings := mapSet h.rings c r }).done w { length := c }

/-- QUEUE_RESET and QUEUE_DELETE at their stamp: the context's commands are decided; the command completes when they are quiet. -/
def State.queueReset (s : State) (w : Work) : State :=
  let ctx := w.desc.param 0x20 2
  match s.ring? ctx with
  | none => s.fails w (badField 0x20)
  | some r =>
    if r.fn ≠ w.fn then s.refuse w .notPermitted
    else ((s.resetContext ctx w.stamp).resetRing ctx).addWork { w with phase := .admin }

/-- QUEUE_DELETE: as QUEUE_RESET, then the context is freed. -/
def State.queueDelete (s : State) (w : Work) : State := s.queueReset w

/-! ## Namespaces (R44, R46, R48, R96) -/

/-- Range checks of the NAMESPACE_SET parameters whose valid bits are set. -/
def State.nsSetFail (s : State) (w : Work) (old : Option Namespace) : Option Fail :=
  let d := w.desc
  let mask := d.param 0x20 2
  let page := d.param 0x22 2
  let owned := (s.keyPage? page).any fun p => p.owner = w.fn
  firstFail [(decide (mask < 128), badField 0x20), (bitOf mask 0 || old.isSome, badField 0x20),
    (!bitOf mask 0 || (owned && old.all fun n => n.params.page = page), badField 0x22),
    (!bitOf mask 1 || decide (d.param 0x24 4 ≤ Config.maxHorizon), badField 0x24), (!bitOf mask 2 || decide (d.param 0x2A 1 < 2), badField 0x2A),
    (!bitOf mask 4 || decide (d.param 0x2B 1 < 2), badField 0x2B), (!bitOf mask 5 || decide (d.param 0x2C 1 < 4), badField 0x2C),
    (d.param 0x2D 19 = 0, badField 0x2D)]

/-- The parameters after a NAMESPACE_SET: fields whose valid bit is clear stay. -/
def nsParamsAfter (d : Descriptor) (p : NsParams) : NsParams :=
  let mask := d.param 0x20 2
  { p with
    page := if bitOf mask 0 then d.param 0x22 2 else p.page
    horizon := if bitOf mask 1 then d.param 0x24 4 else p.horizon
    early := if bitOf mask 2 then d.param 0x2A 1 = 1 else p.early
    timeout := if bitOf mask 3 then d.param 0x28 2 else p.timeout
    cold := if bitOf mask 4 then d.param 0x2B 1 = 1 else p.cold
    secure := if bitOf mask 5 then bitOf (d.param 0x2C 1) 0 else p.secure
    expiry := if bitOf mask 5 then bitOf (d.param 0x2C 1) 1 else p.expiry
    quota := if bitOf mask 6 then d.stampArg.toNat else p.quota }

/-- NAMESPACE_SET. -/
def State.namespaceSet (s : State) (w : Work) : State :=
  let ns := w.desc.ns.toNat
  let old := s.space? ns
  if ns = 0 ∨ 1024 ≤ ns then s.fails w (badField 4)
  else if (mapGet? s.index.removing ns).isSome then
    let (s, n) := s.retryAfter 1
    s.fails w (.busyRetry, n)
  else if old.any fun n => n.params.owner != w.fn then s.refuse w .notPermitted
  else
    match s.nsSetFail w old with
    | some f => s.fails w f
    | none =>
      let p := nsParamsAfter w.desc ((old.map Namespace.params).getD { owner := w.fn })
      let floor := match old with
        | none => 0
        | some n => if n.params.horizon = p.horizon then n.floor else max n.floor (boundB n.params.horizon (grainOf w.stamp))
      let count := s.quotaCount ns
      let n : Namespace := { (old.getD { created := w.stamp }) with
        params := p, floor := floor, refused := old.any fun n => n.refused && p.quota != 0 && decide (p.quota ≤ count) }
      let s := s.updIndex fun i => { i with spaces := mapSet i.spaces ns n }
      ((s.nsRecord ns (old.map Namespace.params) (some p) w.stamp).metaWrite 0).done w { length := b2n old.isNone }

/-- NAMESPACE_DELETE at its stamp: the namespace is gone for every later command; its entries go in the background (R48). -/
def State.namespaceDelete (s : State) (w : Work) : State :=
  let ns := w.desc.ns.toNat
  match s.nsFail 0x89 ns with
  | some f => s.fails w f
  | none =>
    match s.space? ns with
    | none => s.refuse w .namespaceUnknown
    | some n =>
      if n.params.owner ≠ w.fn then s.refuse w .notPermitted
      else
        let s := s.updIndex fun i => { i with
          spaces := mapErase i.spaces ns, removing := mapSet i.removing ns (n, some w.stamp)
          holds := i.holds.map fun h => { h with ns := h.ns.filter (· != ns) } }
        (s.metaWrite 0).addWork { w with phase := .admin }

/-! ## Key pages (R284 to R289) -/

/-- KEY_PAGE_LOAD: an unknown operation completes INVALID_FIELD and still clears the staged material. -/
def State.keyPageLoad (s : State) (w : Work) : State :=
  let page := w.desc.param 0x20 2
  match w.desc.param 0x22 1 with
  | 0 => let (s, r) := s.pageLoad w.fn page w.stamp; s.done w r
  | 1 => let (s, r) := s.kekInstall w.fn w.stamp; s.done w r
  | _ => (s.updFn w.fn fun x => { x with stage := [] }).fails w (badField (if 255 < page then 0x20 else 0x22))

/-- KEY_PAGE_RETIRE. -/
def State.keyPageRetire (s : State) (w : Work) : State :=
  let (s, r) := s.pageRetire w.fn (w.desc.param 0x20 2) w.stamp
  s.done w r

/-! ## Sessions (R132 to R134) -/

/-- Range checks of a session block, lowest offset first. -/
def State.sessionBlockFail (s : State) (b : Bytes) : Option Fail :=
  let ver := field b 0 1
  let flags := field b 1 1
  let secure := bitOf flags 0
  let vlan := bitOf flags 2
  let port := field b 2 1
  let tci := field b 4 2
  let vid := tci % 4096
  let want := if vlan then some vid else none
  let own := BitVec.ofNat 128 (fieldBe b 0x18 16)
  let entry := (s.port port).config.entries.any fun e => e.version = ver && e.addr = own && e.vlan = want
  let ms := field b 0x30 2
  firstFail [(ver = 4 || ver = 6, badArea 0), (decide (flags < 8), badArea 1), (decide (port < 16) && s.portConfigured port, badArea 2),
    (decide (field b 3 1 < 64), badArea 3),
    (if vlan then !bitOf tci 12 && decide (1 ≤ vid ∧ vid ≤ 4094) else tci = 0, badArea 4), (field b 6 2 != 0, badArea 6),
    (addressGood (ver = 6) (slice b 8 16), badArea 8), (entry, badArea 0x18), (decide (field b 0x2C 2 ≤ 1024), badArea 0x2C),
    (decide (field b 0x2E 2 ≤ 1024), badArea 0x2E), (ms = 0 || decide (10 ≤ ms ∧ ms ≤ 60000), badArea 0x30), (field b 0x33 1 = 0, badArea 0x33),
    (secure || field b 0x34 4 = 0, badArea 0x34), (secure || allZero (slice b 0x38 40), badArea 0x38), (allZero (slice b 0x60 32), badArea 0x60)]

/-- The parameters that a session block gives, with its unwrapped key. -/
def sessionParams (b : Bytes) (key : BitVec 256) : SessionParams :=
  let flags := field b 1 1
  let tci := field b 4 2
  let orElse (x d : Nat) : Nat := if x = 0 then d else x
  { v6 := field b 0 1 = 6, secure := bitOf flags 0, admin := bitOf flags 1, vlan := if bitOf flags 2 then some (tci % 4096) else none
    tci := tci, port := field b 2 1, dscp := field b 3 1, srcPort := BitVec.ofNat 16 (field b 6 2)
    srcIp := BitVec.ofNat 128 (fieldBe b 8 16), dstIp := BitVec.ofNat 128 (fieldBe b 0x18 16), initial := BitVec.ofNat 32 (field b 0x28 4)
    credit := orElse (field b 0x2C 2) 64, budget := orElse (field b 0x2E 2) 128, keepalive := field b 0x30 2, hops := orElse (field b 0x32 1) 64
    salt := BitVec.ofNat 32 (fieldBe b 0x34 4), key := key }

/-- SESSION_OPEN: the session is bound; it opens once the client's address is resolved (R132, R133). -/
def State.sessionOpen (s : State) (w : Work) : State :=
  match w.block 128 with
  | .error f => s.fails w f
  | .ok b =>
    match s.sessionBlockFail b with
    | some f => s.fails w f
    | none =>
      let secure := bitOf (field b 1 1) 0
      let kek := (s.fn w.fn).kek
      let key := kek.bind fun k => Config.unwrapKey k (slice b 0x38 40)
      if secure ∧ kek.isNone then s.refuse w .conditionFailed
      else if secure ∧ key.isNone then s.fails w (badArea 0x38)
      else
        match s.freeContext with
        | none => s.fails w (.noSpace, 5)
        | some n =>
          let p := sessionParams b (key.getD 0)
          let x : Session := { state := .resolving, fn := w.fn, params := p, seg := p.segment (s.port p.port).config.maxFrame, closer := some w.stamp }
          let s := ((s.clearCounts n).updWire fun k => { k with sessions := mapSet k.sessions n x }).addWork { w with phase := .admin }
          if (s.macOf p.port p.dstIp p.srcIp).isSome then s.openSession n
          else s.neighbourRequest p.port p.dstIp (s.nextHop p.port p.dstIp p.srcIp)

/-- SESSION_CLOSE at its stamp (R134); it completes when the session is FREE. -/
def State.sessionClose (s : State) (w : Work) : State :=
  let n := w.desc.param 0x20 2
  match s.session? n with
  | none => s.fails w (badField 0x20)
  | some x =>
    if x.fn ≠ w.fn then s.refuse w .notPermitted
    else if x.state ≠ .open_ then s.fails w (badField 0x20)
    else (s.addWork { w with phase := .admin }).closeSession n 4 w.stamp (some w.stamp)

/-! ## Health pages (R157, R261) -/

/-- Spares in all, fewest on a die in use, and that die's place. -/
def State.sparesMin (s : State) : Nat × Nat × Nat :=
  let l := s.delta.dies
  let least := l.foldl (fun acc e => match acc with
    | none => some (e.2.spares, e.1)
    | some a => if e.2.spares < a.1 then some (e.2.spares, e.1) else some a) (none : Option (Nat × Nat))
  ((l.map fun e => e.2.spares).sum, (least.map Prod.fst).getD 0, (least.map fun a => a.2 / 16 + a.2 % 16 * 32).getD 0)

/-- Page 0: summary. -/
def State.healthSummary (s : State) : Bytes :=
  let d := s.delta
  let flags := b2n s.pins.writeThrough + 2 * b2n d.noSpace + 4 * b2n d.sealed + 8 * b2n d.sparesLow + 16 * b2n (d.wearHigh != 0) +
    32 * b2n (!d.lostList.isEmpty)
  let (total, few, place) := s.sparesMin
  let (avg, top) := s.wear
  leBytes 1 s.mode.code ++ leBytes 1 flags ++ leBytes 2 (twos 16 s.pins.temperature) ++ leBytes 4 total ++ leBytes 2 few ++ leBytes 2 place ++
  leBytes 2 avg ++ leBytes 2 top ++ leBytes 4 ((d.pop.map NandPopulation.rating).getD 0) ++ leBytes 4 d.free ++ leBytes 4 d.total ++
  leBytes 1 d.gcLevel ++ zeros 3 ++ leBytes 8 s.liveTotal ++ leBytes 8 d.health.hours ++ leBytes 8 d.health.notices ++ leBytes 8 d.health.unsafe_

/-- Page 1: errors by class. -/
def Health.errors (h : Health) : Bytes :=
  [h.codewords, h.softDecodes, h.retries, h.rebuilds, h.unreadable, h.lost, h.programFails, h.eraseFails, h.copyFalls, h.refreshed,
    h.patrolled, h.missed].flatMap (leBytes 8)

/-- Page 2: temperature history. -/
def Health.history (h : Health) : Bytes :=
  ((List.range 16).flatMap fun i => leBytes 4 (mapGet 0 h.minutes i)) ++ leBytes 2 (twos 16 h.highest) ++ leBytes 2 (twos 16 h.lowest)

/-- Page 3: dies. -/
def State.healthDies (s : State) : Bytes :=
  (List.range 512).flatMap fun k =>
    match mapGet? s.delta.dies k with
    | none => zeros 8
    | some d =>
      let wear := d.wear.map Prod.snd
      leBytes 2 d.spares ++ leBytes 2 (wear.foldl max 0) ++ leBytes 2 (wear.sum / max 1 s.delta.blocks) ++
      leBytes 1 (1 + 2 * b2n d.failed + 4 * b2n (d.spares = 0)) ++
      leBytes 1 (s.startLevel (k / 16) (k % 16) 1 + 16 * s.startLevel (k / 16) (k % 16) 0)

/-- Page 4: last rebuild. -/
def Delta.rebuildPage (d : Delta) : Bytes :=
  leBytes 1 d.path ++ leBytes 1 d.scanCause ++ zeros 2 ++ leBytes 4 d.headerMs ++ leBytes 4 d.loadMs ++ leBytes 4 d.replayMs ++
  leBytes 8 d.replayed ++ leBytes 8 d.mediaGrain ++ leBytes 8 d.rebuildBoot

/-- Page 5: hold points. -/
def Index.holdsPage (i : Index) : Bytes :=
  leBytes 1 i.holds.length ++ zeros 7 ++ padTo 512 (i.holds.flatMap fun h => leBytes 8 h.stamp)

/-- Page 6: session statistics (R157). -/
def Session.page (x : Session) (n : Nat) : Bytes :=
  leBytes 2 n ++ leBytes 1 (if x.state = .open_ then 1 else 2) ++ zeros 1 ++ leBytes 4 x.grant.toNat ++ leBytes 4 x.ack.toNat ++
  leBytes 4 x.highest.toNat ++ leBytes 8 x.rx ++ leBytes 8 x.tx ++ leBytes 8 x.stamped ++ leBytes 8 x.replayed ++
  ((List.range 5).flatMap fun i => leBytes 8 (mapGet 0 x.refusals (i + 1))) ++
  ((List.range 8).flatMap fun i => leBytes 8 (mapGet 0 x.discards (i + 2))) ++ leBytes 8 (if x.params.secure then x.txCounter else 0)

/-- HEALTH_GET. -/
def State.healthGet (s : State) (w : Work) : State :=
  let give (b : Bytes) : State := s.returns w b { length := b.length }
  match w.desc.param 0x20 1 with
  | 0 => give s.healthSummary
  | 1 => give s.delta.health.errors
  | 2 => give s.delta.health.history
  | 3 => give s.healthDies
  | 4 => give s.delta.rebuildPage
  | 5 => give s.index.holdsPage
  | 6 =>
    let n := w.desc.param 0x22 2
    if w.desc.valLen.toNat < 160 then s.fails w (badField 8) else
    match s.session? n with
    | none => s.refuse w .notFound
    | some x =>
      if x.state = .resolving then s.refuse w .notFound
      else if x.fn ≠ w.fn then s.refuse w .notPermitted
      else give (x.page n)
  | _ => s.fails w (badField 0x20)

/-! ## Time (R19, R29, R97, R98) -/

/-- The 64 bytes of TIME_GET. -/
def State.timeData (s : State) (st : Stamp) : Bytes :=
  let t := s.time
  leBytes 8 s.nowNs ++ leBytes 8 (grainOf st) ++ leBytes 1 t.quality.code ++ leBytes 1 (b2n t.relocked + 2 * b2n t.lockedBoot) ++
  leBytes 1 t.config.source ++ leBytes 1 t.inUse ++ leBytes 4 t.config.limit ++ leBytes 8 (twos 64 t.offset) ++ leBytes 8 t.uncertainty ++
  leBytes 8 t.masterId.toNat ++ leBytes 8 t.carried ++ leBytes 8 t.skipped

/-- TIME_GET. -/
def State.timeGet (s : State) (w : Work) : State := s.returns w (s.timeData w.stamp) { length := 64 }

/-- The configuration that CONFIGURE names; with the PPS source the PTP fields are ignored and stay. -/
def timeConfigOf (d : Descriptor) (old : TimeConfig) : TimeConfig :=
  let base := { old with source := d.param 0x21 1, limit := d.param 0x24 2, asym := d.param 0x2A 2 }
  if d.param 0x21 1 = 1 then base
  else { base with timePort := d.param 0x22 1, backup := d.param 0x23 1, profile := d.param 0x26 1, domain := d.param 0x27 1,
                   transport := d.param 0x28 1, delay := d.param 0x29 1 }

/-- Range checks of TIME_SET. -/
def State.timeSetFail (s : State) (d : Descriptor) : Option Fail :=
  let op := d.param 0x20 1
  let ptp := op = 0 && d.param 0x21 1 = 0
  let port := d.param 0x22 1
  let back := d.param 0x23 1
  firstFail [(op = 1 || d.stampArg = 0, badField 0x10), (decide (op < 3), badField 0x20),
    (op != 1 || s.time.config.source = 1, badField 0x20), (op != 0 || decide (d.param 0x21 1 < 2), badField 0x21),
    (!ptp || (decide (port < 16) && s.portConfigured port), badField 0x22),
    (!ptp || back = 255 || (decide (back < 16) && s.portConfigured back && back != port), badField 0x23),
    (op != 0 || decide (10 ≤ d.param 0x24 2 ∧ d.param 0x24 2 ≤ 1000), badField 0x24), (!ptp || decide (d.param 0x26 1 < 2), badField 0x26),
    (!ptp || (decide (d.param 0x28 1 < 3) && (d.param 0x26 1 = 0 || d.param 0x28 1 = 0)), badField 0x28),
    (!ptp || decide (d.param 0x29 1 < 2), badField 0x29), (op != 0 || decide (d.param 0x2A 2 ≤ 10000), badField 0x2A),
    (d.param 0x2C 20 = 0, badField 0x2C)]

/-- CONFIGURE at its stamp (R97). -/
def State.timeConfigure (s : State) (w : Work) : State :=
  let old := s.time.config
  let new := timeConfigOf w.desc old
  let anew := old.source != new.source || old.timePort != new.timePort || old.profile != new.profile || old.domain != new.domain ||
    old.transport != new.transport
  let s :=
    if anew then
      s.refChange w.stamp fun t => { t with config := new, mainMaster := none, backMaster := none, inUse := 255, masterId := 0,
                                            todPending := none, todApplied := false, ppsMissing := false }
    else if old.backup != new.backup then s.mastersChange w.stamp fun t => { t with config := new, backMaster := none }
    else s.updTime fun t => { t with config := new }
  (s.metaWrite 0).ok w

/-- SET_TOD: the second that the next PPS_IN edge begins (R19). -/
def State.setTod (s : State) (w : Work) : State := (s.updTime fun t => { t with todPending := some w.desc.stampArg.toNat }).ok w

/-- READMIT (R29): a record with source 16's layout. -/
def State.readmit (s : State) (w : Work) : State :=
  if s.time.quality = .lost ∧ s.time.relocked then
    let s := s.recordEvent 16 w.stamp 0x106 (s.qualityData .lost .locked)
    (s.setQuality .locked w.stamp).ok w
  else s.fails w (.timeUnlocked, s.time.quality.code)

/-- TIME_SET. -/
def State.timeSet (s : State) (w : Work) : State :=
  match s.timeSetFail w.desc with
  | some f => s.fails w f
  | none =>
    match w.desc.param 0x20 1 with
    | 0 => s.timeConfigure w
    | 1 => s.setTod w
    | _ => s.readmit w

/-! ## Calendar (R38, R99) -/

/-- Range checks of SCHEDULE_SET. -/
def scheduleFail (d : Descriptor) : Option Fail :=
  let p := d.stampArg.toNat
  let level (off : Nat) : Bool := decide (d.param off 1 < 4) || d.param off 1 = 255
  firstFail [(decide (1000 ≤ p ∧ p ≤ 2 ^ 44), badField 0x10), (decide (d.param 0x20 1 < 32), badField 0x20), (decide (d.param 0x21 1 < 2), badField 0x21),
    (level 0x22, badField 0x22), (decide (d.param 0x23 1 < 2) || d.param 0x23 1 = 255, badField 0x23), (level 0x24, badField 0x24),
    (decide (d.param 0x25 1 < 2), badField 0x25), (d.param 0x26 2 = 0, badField 0x26), (decide (d.param 0x28 8 < p), badField 0x28),
    (decide (1 ≤ d.param 0x30 8 ∧ d.param 0x30 8 ≤ p), badField 0x30), (d.param 0x38 8 = 0, badField 0x38)]

/-- SCHEDULE_SET at its stamp: edges that it makes in its own grain fire in P7 of that grain (R99). -/
def State.scheduleSet (s : State) (w : Work) : State :=
  match scheduleFail w.desc with
  | some f => s.fails w f
  | none =>
    let d := w.desc
    let n := d.param 0x20 1
    let g := grainOf w.stamp
    let old := mapGet {} s.time.windows n
    let x : Window := { enable := d.param 0x21 1 = 1, period := d.stampArg.toNat, start := d.param 0x28 8, duration := d.param 0x30 8
                        gc := d.param 0x22 1, patrol := d.param 0x23 1, floor := d.param 0x24 1, hold := d.param 0x25 1 = 1 }
    let moved := !old.enable || x.period != old.period || x.start != old.start
    let x := { x with started := if moved && x.active g && !old.active g then x.lastEdge g else g
                      ended := g, endOwed := old.active g && !x.active g }
    let s := s.updTime fun t => { t with windows := mapSet t.windows n x }
    let s := s.updCol fun c => { c with intake := c.intake ++
      (if x.endDue g then [.calEnd n] else []) ++ (if x.startDue g then [.calStart n] else []) }
    (s.metaWrite 0).ok w

/-! ## Hold points (R57) -/

/-- HOLD_SET. -/
def State.holdSet (s : State) (w : Work) : State :=
  let a := w.desc.stampArg.toNat
  let h := if a = 0 then w.stamp else a
  let own := s.index.holds.find? fun x => x.stamp = h
  let ns := if a = 0 then s.index.spaces.map Prod.fst else s.protectable h w.stamp
  if w.stamp < h then s.refuse w .futureStamp
  else
    match own with
    | some x => s.done w { length := x.ns.length, version := h }
    | none =>
      if ns.isEmpty then s.done w { status := .beyondHorizon }
      else if Config.holdPoints ≤ s.index.holds.length then s.fails w (.noSpace, 4)
      else (((s.addHold h ns).holdRecord h 0 0 ns.length w.stamp).metaWrite 0).done w { length := ns.length, version := h }

/-- HOLD_RELEASE. -/
def State.holdRelease (s : State) (w : Work) : State :=
  let h := w.desc.stampArg.toNat
  match s.index.holds.find? fun x => x.stamp = h with
  | none => s.refuse w .notFound
  | some x =>
    let s := s.updIndex fun i => { i with holds := i.holds.filter fun y => y.stamp != h }
    ((s.holdRecord h 2 0 x.ns.length w.stamp).metaWrite 0).ok w

/-! ## Recorder (R353 to R355) -/

/-- Every record held, oldest first: flushed pages, sealed slots, the open slot. -/
def Terrace.held (t : Terrace) : List Record := (t.pages.flatMap RecPage.recs) ++ (t.sealed.flatMap RecPage.recs) ++ t.open_

/-- Items that fit whole in a room, as bytes, with their number. -/
def takeWhole : Nat → List Bytes → Bytes × Nat
  | _, [] => ([], 0)
  | room, b :: rest =>
    if room < b.length then ([], 0)
    else let (x, n) := takeWhole (room - b.length) rest; (b ++ x, n + 1)

/-- Mode 0: records from a sequence onward. -/
def State.recordRecords (s : State) (w : Work) : State :=
  let l := s.terrace.held
  let a := w.desc.stampArg.toNat
  let next := BitVec.ofNat 32 s.terrace.nextSeq
  let from_ := if a = 0 then l else l.filter fun r => !seqLt (BitVec.ofNat 32 r.seqNo) (BitVec.ofNat 32 a)
  if 2 ^ 32 ≤ a ∨ (a ≠ 0 ∧ seqLt next (BitVec.ofNat 32 a)) then s.refuse w .notFound
  else
    let (b, n) := takeWhole w.desc.valLen.toNat (from_.map Record.bytes)
    s.returns w b { length := b.length, detail := n }

/-- Mode 1: whole flushed pages from a sequence onward. -/
def State.recordPages (s : State) (w : Work) : State :=
  let a := w.desc.stampArg.toNat
  if w.desc.valLen.toNat < 16384 then s.fails w (badField 8)
  else
    match (if a = 0 then s.terrace.pages else s.terrace.pages.dropWhile fun p => p.seqNo != a) with
    | [] => s.refuse w .notFound
    | l =>
      let (b, n) := takeWhole w.desc.valLen.toNat (l.map RecPage.bytes)
      s.returns w b { length := b.length, detail := n }

/-- RECORD_READ. -/
def State.recordRead (s : State) (w : Work) : State :=
  if w.fn ≠ 0 then s.refuse w .notPermitted
  else match w.desc.param 0x20 1 with
    | 0 => s.recordRecords w
    | 1 => s.recordPages w
    | _ => s.fails w (badField 0x20)

/-- The checks of a clear token, in R354's order. -/
def State.clearFail (s : State) (t : Bytes) : Option Fail :=
  let pages := s.terrace.pages
  let count := field t 0x10 4
  (firstFail [(field t 0 4 = 1, badArea 0), (decide (field t 4 1 < 2), badArea 4), (allZero (slice t 5 3), badArea 5),
    (decide (count ≤ Config.recorderPages), badArea 0x10), (allZero (slice t 0x14 4), badArea 0x14)]).orElse fun _ =>
  match s.spi.ownerKey with
  | none => some (.conditionFailed, 0)
  | some key =>
    firstFail [(decide (slice t 0x20 16 = identityBytes) && field t 0x18 8 = s.terrace.clearNonce.toNat, (.notPermitted, 0)),
      (ownerSigned key (slice t 0 0x30) (slice t 0x30 96), (.notPermitted, 0)),
      ((count = 0 || (pages.head?.map RecPage.seqNo) = some (field t 8 8)) && decide (count ≤ pages.length), (.conditionFailed, 0))]

/-- CLEAR record of the pages released (R355). -/
def clearPayload (gone : List RecPage) (token : Bytes) : Bytes :=
  let recs := gone.flatMap RecPage.recs
  let seq (r : Option Record) : Nat := (r.map Record.seqNo).getD 0
  leBytes 8 ((gone.head?.map RecPage.seqNo).getD 0) ++ leBytes 8 ((gone.getLast?.map RecPage.seqNo).getD 0) ++ leBytes 4 (seq recs.head?) ++
  leBytes 4 (seq recs.getLast?) ++ beBytes 48 ((gone.getLast?.map RecPage.hash).getD 0).toNat ++ beBytes 48 (Config.sha384 token).toNat

/-! ### Pages of the recorder area (R347, R348, R356) -/

/-- Terrace can write flash: not in FILL, BOOT or PS3 (R348). -/
def State.recorderWrites (s : State) : Bool := s.mode.running && decide (s.host.power ≠ 3)

/-- Source 208 when the pages held reach 90 % or the whole area (R356). -/
def State.recorderFill (s : State) : State :=
  let n := s.terrace.pages.length
  if n = Config.recorderWarn ∨ n = Config.recorderPages then
    s.raise 208 0 0 5 (eventData [(4, n), (1, b2n s.terrace.ring)])
  else s

/-- The oldest sealed slot becomes a page of the recorder area and its slot is free (R347); a full area holds it back under HOLD
and gives up its oldest page under RING (R356). -/
def State.flushPage (s : State) : State :=
  match s.terrace.sealed with
  | [] => s
  | p :: rest =>
    let full := decide (Config.recorderPages ≤ s.terrace.pages.length)
    if full ∧ !s.terrace.ring then s
    else
      let s := s.updTerrace fun t => { t with
        sealed := rest, pages := (if full then t.pages.drop 1 else t.pages) ++ [p]
        ringDropped := if full then inc64 t.ringDropped else t.ringDropped
        anchorValid := true, anchorSeq := p.seqNo, anchorHash := p.hash }
      if full then s else s.recorderFill

/-- Every sealed slot is flushed, as far as the area takes them (R348). -/
def State.flushSealed (s : State) : State := (List.range s.terrace.sealed.length).foldl (fun s _ => s.flushPage) s

/-- RECORD_CLEAR: every outcome of the token's checks replaces the nonce and raises source 211; sealed slots that a full area held back go
out before the CLEAR record (R355). -/
def State.recordClear (s : State) (w : Work) : State :=
  if w.carrier ≠ .admin 0 then s.refuse w .notPermitted
  else
    match w.block 144 with
    | .error f => s.fails w f
    | .ok t =>
      let r := s.clearFail t
      let count := field t 0x10 4
      let n := s.free
      let s := s.drbg.updTerrace fun x => { x with clearNonce := Config.drbg64 n }
      match r with
      | some f => (s.raise 211 0 w.stamp 5 (eventData [(2, f.1.code), (4, 0)])).fails w f
      | none =>
        let gone := s.terrace.pages.take count
        let held := decide (Config.recorderPages ≤ s.terrace.pages.length) && s.recorderWrites
        let s := s.updTerrace fun x => { x with pages := x.pages.drop count, ring := field t 4 1 = 1, notKept := 0 }
        let s := if held then s.flushSealed else s
        let s := (s.raiseOnly 211 0 w.stamp (eventData [(2, 0), (4, gone.length)])).record 3 w.stamp (clearPayload gone t)
        s.done w { length := (gone.map fun p => p.recs.length).sum }

/-! ## Ports (R159 to R164) -/

/-- Ports of a quad: four of its numbers. -/
def quadPorts (q : Nat) : List Nat := (List.range 4).map (· + 4 * q)

/-- A session that is OPEN or CLOSING, on any port or on one. -/
def State.sessionOn (s : State) (p : Nat → Bool) : Bool := s.wire.sessions.any fun e => e.2.state != .resolving && p e.2.params.port

/-- An IP address entry of a port block, and its checks. -/
def ipEntryOf (e : Bytes) : IpEntry :=
  let v := field e 0 1
  let vlan := field e 2 2
  if v = 0 then {} else
    { version := v, prefix_ := field e 1 1, vlan := if bitOf vlan 15 then some (vlan % 4096) else none
      addr := BitVec.ofNat 128 (fieldBe e 4 16), gateway := BitVec.ofNat 128 (fieldBe e 0x14 16) }
def ipEntryFail (off : Nat) (e : Bytes) : Option Fail :=
  let v := field e 0 1
  let vlan := field e 2 2
  let vid := vlan % 4096
  if v = 0 then none
  else firstFail [(v = 4 || v = 6, badArea off), (decide (1 ≤ field e 1 1 ∧ field e 1 1 ≤ if v = 4 then 32 else 128), badArea (off + 1)),
    (vlan / 4096 % 8 = 0 && (if bitOf vlan 15 then decide (1 ≤ vid ∧ vid ≤ 4094) else vid = 0), badArea (off + 2)),
    (addressGood (v = 6) (slice e 4 16), badArea (off + 4)), (addressGood (v = 6) (slice e 0x14 16), badArea (off + 0x14))]

/-- A unicast address of a port block: byte 0 first on the wire, its low bit the group bit. -/
def macAt (b : Bytes) (i : Nat) : BitVec 48 := BitVec.ofNat 48 (fieldBe b (0x10 + 6 * i) 6)

/-- Range checks of a PORT operation, lowest offset first (R162). -/
def State.portFail (s : State) (b : Bytes) : Option Fail :=
  let p := field b 1 1
  let type := field b 3 1
  let flags := field b 8 1
  let lpiBad := bitOf flags 1 && (type = 2 || decide (4 ≤ s.portRate p))
  let base := field b 0xA 2
  let group (i : Nat) : Bool := (field b (0x10 + 6 * i) 1) % 2 = 1
  (firstFail [(decide (p < 16) && s.portPresent p, badArea 1), (decide (type < 3), badArea 3),
    (decide (1518 ≤ field b 6 2 ∧ field b 6 2 ≤ 9600), badArea 6), (decide (flags < 16) && !lpiBad, badArea 8), (decide (field b 9 1 < 4), badArea 9),
    (base % 256 = 0 && decide (256 ≤ base ∧ base ≤ 9472), badArea 0xA), (allZero (slice b 0xC 4), badArea 0xC),
    (macAt b 0 != 0 && !group 0, badArea 0x10)]).orElse fun _ =>
  (((List.range 7).find? fun i => macAt b (i + 1) != 0 && group (i + 1)).map fun i => badArea (0x10 + 6 * (i + 1))).orElse fun _ =>
  (ipEntryFail 0x40 (slice b 0x40 36)).orElse fun _ => (ipEntryFail 0x64 (slice b 0x64 36)).orElse fun _ =>
  reservedAreaFail b [(0x88, 24)]

/-- The configuration that a port block gives. -/
def portConfigOf (b : Bytes) : PortConfig :=
  let flags := field b 8 1
  { type := field b 3 1, maxFrame := field b 6 2, enable := bitOf flags 0, lpi := bitOf flags 1, preempt := bitOf flags 2
    fixed := bitOf flags 3, minFrag := field b 9 1, base := field b 0xA 2, unicast := (List.range 8).map (macAt b)
    ip0 := ipEntryOf (slice b 0x40 36), ip1 := ipEntryOf (slice b 0x64 36) }

/-- An address entry in use is changed or removed. -/
def entryChanged (old new : IpEntry) : Bool := old.version != 0 && old != new

/-- Why a PORT operation is refused (R163). -/
def State.portRefused (s : State) (p : Nat) (c : PortConfig) : Bool :=
  let old := (s.port p).config
  let off := old.enable && !c.enable
  let on := s.sessionOn (· = p)
  (on && (off || decide (c.maxFrame < old.maxFrame) || entryChanged old.ip0 c.ip0 || entryChanged old.ip1 c.ip1)) ||
  (off && s.time.config.source = 0 && (p = s.time.config.timePort || p = s.time.config.backup))

/-- PORT: the configuration applies; a new type or a first ENABLE restarts the link, a cleared one ends it (R163, R165). A new underrun
base starts T anew, and a fixed T stays at its base (R176, R177). PREEMPT_EN and LPI_EN take effect on a running link (R172, R174). -/
def State.portApply (s : State) (p : Nat) (c : PortConfig) : State :=
  let old := s.port p
  let s := s.updPort p fun x => { x with
    config := c, everSet := true, threshold := if c.fixed ∨ c.base ≠ old.config.base then c.base else x.threshold
    preemptOn := x.preemptOn && c.preempt, verifying := c.preempt && (x.verifying || (x.link = .up && !old.config.preempt)) }
  let s := if c.lpi then s else (s.lpiTxEnd p).lpiRxEnd p
  if !c.enable then (if old.config.enable then s.linkLeave p .disabled 5 else s)
  else if !old.config.enable ∨ c.type ≠ old.config.type then
    let s := if old.link = .up then s.linkLeave p .down 5 else s
    s.updPort p fun x => { x with link := .down, since := s.localUs, restartAt := 0 }
  else s

/-- PORT_SET, its block read. -/
def State.portSet (s : State) (w : Work) : State :=
  match w.block 0xA0 with
  | .error f => s.fails w f
  | .ok b =>
    match field b 0 1 with
    | 0 =>
      let q := field b 1 1
      let m := field b 2 1
      match firstFail [(decide (q < 4), badArea 1), (decide (m < 5) || m = 255, badArea 2), (allZero (slice b 0xC 4), badArea 0xC), (allZero (slice b 0x88 24), badArea 0x88)] with
      | some f => s.fails w f
      | none =>
        if (quadPorts q).any fun p => (s.port p).config.enable then s.refuse w .conditionFailed
        else ((s.updPorts fun x => { x with quads := x.quads.set q m, stQuads := some (x.quads.set q m) }).metaWrite 0).ok w
    | 1 =>
      let p := field b 1 1
      match s.portFail b with
      | some f => s.fails w f
      | none =>
        let c := portConfigOf b
        if s.portRefused p c then s.refuse w .conditionFailed
        else (((s.portApply p c).updPorts fun x => { x with stPorts := mapSet x.stPorts p c }).metaWrite 0).ok w
    | 2 =>
      let u := field b 4 2
      match firstFail [(u != 0 && u != 319 && u != 320, badArea 4), (allZero (slice b 0xC 4), badArea 0xC), (allZero (slice b 0x88 24), badArea 0x88)] with
      | some f => s.fails w f
      | none =>
        if s.sessionOn fun _ => true then s.refuse w .conditionFailed
        else ((s.updPorts fun x => { x with udp := u, stUdp := u }).metaWrite 0).ok w
    | _ => s.fails w (badArea 0)

end Sys2Proof.Machine
end

