-- ==== Sys2Proof/Machine/Recorder.lean ====
section
/-! DEFINITION. Terrace's flushes (R347, R348, R351, R355, R356), the power-fail flush (R248, R249), what a loss of power or a
SYS_RESET# leaves (R246, R252, R322, R324), and the start of FILL. -/

namespace Sys2Proof.Machine

/-! ## Flushes of the recorder -/

/-- A flush of every slot, the open one first sealed, with the anchor's copy in the session's ring slot (R348, R351). -/
def State.flushRecorder (s : State) : State :=
  let s := (s.sealSlot true).flushSealed
  if s.terrace.anchorValid then
    s.updSpi fun p => { p with boots := match p.boots with
      | [] => []
      | b :: rest =>
        (if b.anchors.length < 12 then { b with anchors := b.anchors ++ [(s.terrace.anchorSeq, s.terrace.anchorHash)] } else b) :: rest }
  else s

/-- A sealed slot's program completes (R347). -/
def State.recorderFlushDone (s : State) : State := if s.recorderWrites then s.flushPage else s

/-- The steps of the internal requesters end, and the dies' operations with them: what is left of them goes back at once. -/
def State.dropSteps (s : State) : State :=
  let held := s.delta.steps
  let s := (s.updDelta fun d => { d with steps := [], running := [] }).updBasin fun b =>
    { b with pools := b.pools.map fun e => (e.1, { e.2 with waiters := e.2.waiters.filter fun w => match w.wants with | .work _ => true | _ => false }) }
  held.foldl (fun s k => match k.handle with | some h => s.presentRelease h k.step.owner 0 | none => s) s

/-! ## Programming all that is open (R249 steps 3 and 4, R363 step 5) -/

/-- An open row group of streams 0 to 3 padded to its end and programmed, its pages' write sequences from `q` on; other streams as they
stand. -/
def Segment.programmedOut (g : Segment) (k cap q : Nat) : Segment :=
  if g.stream ≤ 3 then
    let e := if g.filled = 0 then 0 else min (max g.filled cap) (rowEnd k (g.filled - 1))
    let data := if g.done < e then [(g.done, false, q)] else []
    let parity := if g.par < e then [(g.par, true, q + (e - g.done) / 64)] else []
    { g with filled := e, done := e, par := e, forced := e, seqs := g.seqs ++ data ++ parity, broken := false, handles := [], want := [], asked := false, rel := [] }
  else { g with handles := [], want := [], asked := false, rel := [] }

/-- Every open row group and the journal are programmed; the buffers of the pages go back. -/
def State.programAll (s : State) : State :=
  let s := s.dropSteps
  let held := s.delta.segments.flatMap fun e => e.2.handles.map fun h => (e.2.owner, h.2)
  let out (g : Segment) (q : Nat) : Segment := g.programmedOut (s.delta.kOf g.slc) (s.delta.capacity g.slc) q
  let pages (g : Segment) : Nat := ((out g 0).done - g.done) / 64 + ceilDiv ((out g 0).par - g.par) (64 * 31)
  let pad := (s.delta.segments.map fun e => (out e.2 0).filled - e.2.filled).sum
  let (s, q0) := s.takeSeq (s.delta.segments.map fun e => pages e.2).sum
  let (segs, _) := s.delta.segments.foldl (fun acc e => (acc.1 ++ [(e.1, out e.2 acc.2)], acc.2 + pages e.2)) (([] : NatMap Segment), q0)
  let s := s.updDelta fun d => { d with segments := segs, padUnits := d.padUnits + pad, jForced := true }
  let s := (List.range (s.delta.journal.length + 1)).foldl (fun s _ => (s.updDelta fun d => { d with jForced := true }).programJournal) s
  let s := s.updDelta fun d => { d with jForced := false }
  held.foldl (fun s (o, h) => s.presentRelease h o 0) s

/-! ## The power-fail flush (R248, R249) -/

/-- Writes whose journal entry is written become versions (R248, R250). -/
def State.indexJournaled (s : State) : State :=
  (s.works.filter fun w => isWriteOp w.op && w.ponr && (w.phase = .index || w.phase = .program)).foldl (fun s w => s.indexItems w) s

/-- Journaled writes become versions; all other work has no effect (R248). -/
def State.flushWorks (s : State) : State :=
  let s := s.indexJournaled
  (s.updWorks fun _ => []).updIndex fun i => { i with spaces := i.spaces.map fun e => (e.1, { e.2 with charged := 0 }) }

/-- The power-fail flush: in PS3 and before SERVICE only the recorder and the clean-shutdown unit (R249). Then NAND_WP# holds. -/
def State.powerFlush (s : State) : State :=
  let whole := s.mode.running && s.mode != .rebuild
  let s := if whole then s.flushWorks else s.updWorks fun _ => []
  let s := if whole then s.programAll else s
  let s := s.updDelta fun d => { d with imaging := [] }
  let s := s.flushRecorder
  let s := s.updDelta fun d => { d with clean := true, healthStored := d.health }
  let s := ({ s with stored := s.written }).limitsStore
  s.updPins fun p => { p with pwrFail := true, flushed := true, nandWp := true }

/-! ## What a loss leaves (R246, R252, R322) -/

/-- A version's location after a loss: its own when programmed, else an earlier copy that a segment still holds. -/
def State.recoveredLoc (s : State) (ns : Nat) (key : Bytes) (v : Version) (l : Loc) : Option Loc :=
  let units := recordUnits key.length v.value.length
  if s.programmed l units then some l
  else
    let st := if v.kind = .touch then v.ref else v.stamp
    s.delta.segments.findSome? fun (n, g) =>
      (g.recs.find? fun p => p.ns = ns && p.key = key && p.stamp = st && decide (p.unit + p.units ≤ g.done)).map fun p =>
        { segment := n, unit := p.unit }

/-- The versions that a loss leaves: those whose record and journal entry are on flash; a secure-delete mark stays if its entry
is there. -/
def State.recoveredVersion (s : State) (ns : Nat) (key : Bytes) (v : Version) : Option Version :=
  let v := if s.delta.journal.any (fun j => j.kind = 4 && j.ns = ns && j.stamp = v.secured) then { v with secured := 0 } else v
  let lost := s.delta.journal.any fun j => j.kind != 5 && j.ns = ns && j.stamp = v.stamp && j.wseq = v.wseq
  if lost then none
  else match v.loc with
    | none => some v
    | some l => (s.recoveredLoc ns key v l).map fun l => { v with loc := some l }

/-- Journal groups of which a loss leaves some item behind: namespace and stamp (R60). -/
def State.tornGroups (s : State) : List (Nat × Stamp) :=
  s.index.keys.flatMap fun k => k.versions.filterMap fun v =>
    if 1 < v.batch ∧ (s.recoveredVersion k.ns k.key v).isNone then some (k.ns, v.stamp) else none

/-- All that was not on flash is gone (R246, R322); a journal group is replayed whole or not at all (R60). -/
def State.dropVolatile (s : State) : State :=
  let s := s.indexJournaled
  let torn := s.tornGroups
  let back (k : KeyEntry) (v : Version) : Option Version :=
    if 1 < v.batch ∧ torn.contains (k.ns, v.stamp) then none else s.recoveredVersion k.ns k.key v
  let keys := (s.index.keys.map fun k => { k with versions := k.versions.filterMap (back k) }).filter fun k => !k.versions.isEmpty
  let s := s.updIndex fun i => { i with keys := keys }
  s.updDelta fun d => { d with
    journal := [], jForced := false, imaging := [], running := [], steps := []
    segments := d.segments.map fun e => (e.1, { e.2 with
      filled := e.2.done, par := e.2.done, handles := [], want := [], asked := false, rel := [], broken := false
      recs := e.2.recs.filter fun p => decide (p.unit + p.units ≤ e.2.done) }) }

/-! ## The start of FILL (R321, R324) -/

/-- Settings after a reset: the stored ones stay, the others return to their reset values (R393). -/
def Settings.afterReset (x : Settings) : Settings :=
  { gcCtrl := x.gcCtrl, slcCtrl := x.slcCtrl, patrol := x.patrol, refresh := x.refresh, dieRetry := x.dieRetry, remap := x.remap
    device := x.device, scrub := x.scrub, holeLog := x.holeLog }

/-- What a start of FILL keeps of the media: everything on flash; counters and levels since power-on start afresh. -/
def Delta.afterReset (d : Delta) : Delta :=
  let free := d.segments.filter fun e => e.2.freeAt != 0
  { pop := d.pop, inUse := d.inUse, chFailed := d.chFailed
    dies := d.dies.map fun e => (e.1, { e.2 with raised := false, retryAt := [], goodRun := [], trial := [] })
    segments := d.segments.map fun e => (e.1, { e.2 with freeAt := if (free.any fun f => f.1 = e.1) then 1 else 0 })
    slots := d.slots, turn := d.turn, lostList := d.lostList, lostFull := d.lostFull, images := d.images, intents := d.intents
    sealed := d.sealed, merging := d.merging, fallbacks := d.fallbacks, health := d.healthStored, healthStored := d.healthStored
    clean := d.clean, sparesLow := d.sparesLow, wearHigh := d.wearHigh }

/-- What a start of FILL keeps of a function's page: its KEK (R284). -/
def Fn.afterReset (x : Fn) : Fn := { kek := x.kek, kekVersion := x.kekVersion }

/-- What a start of FILL keeps of a pair: the stored pair itself (R317). -/
def Pair.afterReset (p : Pair) : Pair := { p with waiting := [], toSend := [], credit := 0, proposeSent := false, markSent := false }

/-- The recorder at a start of FILL: the always-on buffer and anchor survive all but a power-on (R10, R350, R351). -/
def Terrace.afterReset (t : Terrace) (cold : Bool) : Terrace :=
  if cold then
    { nextSeq := t.nextSeq, pages := t.pages, ring := t.ring, sessionLost := t.sessionLost
      lastSeq := (t.pages.getLast?.map RecPage.seqNo).getD 0, lastHash := (t.pages.getLast?.map RecPage.hash).getD 0 }
  else
    { nextSeq := t.nextSeq, open_ := t.open_, openCarried := t.openCarried || !t.open_.isEmpty, sealed := t.sealed, pages := t.pages
      lastSeq := t.lastSeq, lastHash := t.lastHash, anchorValid := t.anchorValid, anchorSeq := t.anchorSeq, anchorHash := t.anchorHash
      ring := t.ring, sessionLost := t.sessionLost }

/-- The role at a start: the stored role record governs, else ROLE_STRAP (R16, R325). -/
def startRole (stored : Option Role) (strap : BitVec 2) : Role :=
  stored.getD (if strap = 1 then .worker else if strap = 2 then .manager else .standalone)

/-- FILL begins: straps are sampled, and everything but the always-on domain, the flash, the SPI NOR and the fuses is reset
(R10, R321, R324). `cold` is a power-on, `reason` the boot reason (R333). -/
def State.startFill (s : State) (cold : Bool) (straps : Straps) (reason : Nat) : State :=
  let s := if s.pins.flushed then s else (s.dropVolatile).updDelta fun d => { d with clean := false }
  let role := startRole s.cluster.roleStored straps.role
  { s with
    mode := .fill, col := {}, works := [], events := {}, latches := [], lows := [], mgmt := {}, test := { ir := if cold then 1 else s.test.ir }
    time := { config := s.time.config, windows := s.time.windows.map fun e => (e.1, e.2.restore 0) }
    host := { fns := s.host.fns.map fun e => (e.1, e.2.afterReset), perst := s.host.perst, vfs := 0 }
    terrace := s.terrace.afterReset cold
    index := { s.index with
      spaces := s.index.spaces.map (fun e => (e.1, { e.2 with charged := 0, refused := false }))
      removing := s.index.removing.map (fun e => (e.1, (e.2.1, none))), over90 := false, reserveHit := false }
    glen := { banks := s.glen.banks, next := s.glen.next, stored := s.glen.stored, rules := s.glen.rules
              freed := s.glen.freed ++ s.wire.sessions.map Prod.fst }
    basin := { stored := s.basin.stored }
    gorge := { pages := s.gorge.pages.map fun (n, p) => (n, p.limits fun x => { x with limit := x.kept, force := x.kept }) }
    wire := {}
    ports := { stQuads := s.ports.stQuads, stPorts := s.ports.stPorts, stUdp := s.ports.stUdp }
    delta := s.delta.afterReset
    dram := { failed := s.dram.failed, remaps := s.dram.remaps }
    cluster := { role := role, strapFault := straps.role = 3 || straps.boot = 3, roleStored := s.cluster.roleStored
                 identity := s.cluster.identity, epoch := s.cluster.epoch, mapStamp := s.cluster.mapStamp, adopt := s.cluster.adopt
                 owners := s.cluster.owners, overrides := s.cluster.overrides, devices := s.cluster.devices
                 pairs := s.cluster.pairs.map Pair.afterReset, drops := s.cluster.drops }
    update := { fuse := s.update.fuse, resetCause := reason }
    pins := { straps := straps, strapFault := straps.role = 3 || straps.boot = 3, temperature := s.pins.temperature
              warning := s.pins.warning, alert := s.pins.warning }
    written := s.stored.afterReset, inForce := s.stored.afterReset, stored := s.stored.afterReset }

/-! ## The rows of power and temperature -/

/-- POWER_ON: a reset release after a ramp of VDD_AON (R321). -/
def State.powerOn (s : State) (straps : Straps) : State := s.startFill true straps 1

/-- SYS_RESET#: any other release (R321); after PWR_GOOD was lost the reason is 6 (R322). -/
def State.sysReset (s : State) (straps : Straps) : State := s.startFill false straps (if s.pins.pwrGood then 2 else 6)

/-- PWR_GOOD falls without PWR_FAIL#: everything but the always-on domain resets at once (R322). -/
def State.pwrGoodLoss (s : State) : State :=
  if s.pins.pwrFail then s else (s.startFill false s.pins.straps 6).updPins fun p => { p with pwrGood := false }

/-- The notice and the flush, with the record that goes before the recorder's flush (R248, R249, R276, R323). -/
def State.failFlush (s : State) (before : State → State) : State :=
  if s.pins.pwrFail then s else (before (s.updPins fun p => { p with pwrFail := true })).powerFlush

/-- The POWER_FAIL record (R346). -/
def State.powerRecord (s : State) (st : Stamp) : State :=
  s.record 0xC st (leBytes 1 (b2n s.pins.holdupStable) ++ leBytes 1 s.mode.code ++ zeros 6)

/-- The power-fail notice at its stamp. -/
def State.powerFailApply (s : State) (st : Stamp) : State :=
  s.failFlush fun s => (s.updDelta fun d => { d with health := { d.health with notices := d.health.notices + 1 } }).powerRecord st

/-- PWR_FAIL# has stayed deasserted for 10 ms after a flush: as on SYS_RESET# (R249). -/
def State.pwrFailRelease (s : State) : State := if s.pins.pwrFail ∧ !s.pins.thermtrip then s.startFill false s.pins.straps 5 else s

/-- The junction reaches 120 °C: the THERMTRIP record, the flush, then THERMTRIP# (R323, R409). -/
def State.thermtrip (s : State) (c : Int) : State :=
  let s := if s.mode.running then s.failFlush fun s => s.record 0xB 0 (leBytes 2 (twos 16 c) ++ zeros 6) else s
  s.updPins fun p => { p with thermtrip := true, temperature := c, pwrFail := true }

/-- The 125 °C backstop: THERMTRIP# at once, without a flush; every NAND operation stops (R409). -/
def State.thermalBackstop (s : State) : State :=
  let s := if s.pins.flushed then s else s.updWorks fun _ => []
  s.updPins fun p => { p with thermtrip := true, backstop := true, nandWp := true, pwrFail := true }

/-- A core consumes poison: as a power-fail notice with the supplies present, then a restart as on SYS_RESET# (R276). -/
def State.fatalFault (s : State) (core addr : Nat) : State :=
  if s.mode.running then
    let d := eventData [(1, core), (8, addr)]
    let s := s.failFlush fun s => (s.raiseOnly 152 0 0 d).record 0xD 0 (eventPayload 152 0 true d)
    s.startFill false s.pins.straps 4
  else s

end Sys2Proof.Machine
end

