-- ==== Sys2Proof/Machine/Dies.lean ====
section
/-! DEFINITION. The internal requesters' steps (R32, R187, R190, R194) and the die queues (R239): what waits for a die, which operation a
free die takes, and what a step does once its die has read for it. -/

namespace Sys2Proof.Machine

/-! ## Steps of the internal requesters -/

/-- A step under way, and a step changed. -/
def State.step? (s : State) (id : Nat) : Option StepRun := s.delta.steps.find? fun k => k.id = id
def State.updStep (s : State) (id : Nat) (f : StepRun → StepRun) : State :=
  s.updDelta fun d => { d with steps := d.steps.map fun k => if k.id = id then f k else k }

/-- The live record that a copying step takes next, with its segment. -/
def State.stepTarget (s : State) (k : Step) : Option (Nat × Placed) :=
  let next (n : Nat) : Option (Nat × Placed) := (s.nextLive n).map fun p => (n, p)
  match k with
  | .gc _ => s.gcVictim.bind fun e => next e.1
  | .fold _ => s.foldVictim.bind fun e => next e.1
  | .refresh _ => s.refreshVictim.bind fun e => next e.1
  | .secure id => (s.intent? id).bind fun i => i.todo.head?.bind next
  | _ => none

/-- The record of a version, where it lies on flash. -/
def versionAt (k : KeyEntry) (v : Version) : Option (Nat × Nat × Nat) :=
  v.loc.map fun l => (l.segment, l.unit, recordUnits k.key.length v.value.length)

/-- What a step reads: segment, first unit, units; none where it reads no record. -/
def State.stepReads (s : State) (k : Step) : Option (Nat × Nat × Nat) :=
  match k with
  | .rekey page _ => (s.keyPage? page).bind fun p => p.previous.bind fun g => (s.sweepTarget page g.number).bind fun (k, v) => versionAt k v
  | .copy pair => (s.pair? pair).bind fun p => (s.copyNext p).bind fun (k, v) => versionAt k v
  | k => (s.stepTarget k).map fun (n, p) => (n, p.unit, p.units)

/-- Bytes of the buffer that a step asks for (R190). DESIGN CHOICE (log entry 121): the record that it copies, through one buffer of at most
64 KiB, or a page of 16 KiB for patrol, checkpoints and recorder pages. -/
def State.stepBytes (s : State) (k : Step) : Nat :=
  match k with
  | .checkpoint _ _ _ | .patrol _ _ _ _ | .patrolAgain _ _ _ | .recorder => 16384
  | k => max 1 (min 65536 (256 * ((s.stepReads k).elim 1 fun r => r.2.2)))

/-- The die on which a step's read waits (R219, R239): that of the page, or of the first codeword of the record. None where it reads no
flash: the record is held in Basin, or the step only writes. -/
def State.stepDie (s : State) (k : Step) : Option Nat :=
  match k with
  | .patrol seg channel _ _ | .patrolAgain seg channel _ => (s.segment? seg).map fun g => dieKey (channel % 32) (s.delta.dieIndex g.group)
  | k => (s.stepReads k).bind fun (n, u, units) =>
    if s.inBasin { segment := n, unit := u } units then none
    else (s.segment? n).map fun g => dieKey (codewordChannel n (s.delta.kOf g.slc) (codewordOf u)) (s.delta.dieIndex g.group)

/-- The internal requesters have stopped: in the quiesce of an activation (R363), and in a LINK_TEST (R383). -/
def State.requestersStop (s : State) : Bool := s.update.quiesce != 0 || s.test.run.isSome

/-- A step's request for its buffer at its stamp (R32, R190, R191); a DELETE_SECURE has written its intent by then (R257). -/
def State.stepRequest (s : State) (k : Step) (reads : List CodewordOutcome) (st : Stamp) : State :=
  if s.requestersStop then s
  else
  let s := match k with | .secure id => s.withIntent id | _ => s
  let id := s.delta.stepNext
  let s := s.updDelta fun d => { d with stepNext := id + 1, steps := d.steps ++ [{ id := id, step := k, reads := reads }] }
  match s.request (poolFor (s.stepBytes k)) k.owner st (.step id) with
  | (s, some h) => s.updStep id fun x => { x with handle := some h }
  | (s, none) => s

/-- What a step does once it has read (R229, R230, R233, R240, R256, R257, R290, R313, R347). -/
def State.stepRun (s : State) (k : Step) : State :=
  match k with
  | .checkpoint slice w lines => s.checkpointWrite slice w lines
  | .gc lost => s.gcStep lost
  | .fold lost => s.foldStep lost
  | .refresh lost => s.refreshStep lost
  | .patrol seg channel page reads => s.patrolRead seg channel page reads
  | .patrolAgain seg channel reads => s.patrolReread seg channel reads
  | .copy pair => s.bulkCopy pair
  | .rekey page tagFails => s.rekeyStep page tagFails
  | .secure id => s.secureRelocate id
  | .recorder => s.recorderFlushDone

/-- A record that was dropped or moved while it was being copied: its copy takes room in the stream and is dead at once (R230). -/
def State.deadCopy (s : State) (stream units : Nat) : State :=
  match s.placeStream stream units fun _ => none with
  | none => s
  | some (s, _) => s.updDelta fun d => { d with deadCopies := inc64 d.deadCopies }

/-- A step's record cannot be rebuilt (R255). -/
def Step.lost : Step → Bool
  | .gc lost | .fold lost | .refresh lost => lost
  | _ => false

/-- A step's read of a record from flash counts its codewords (R236, R255). -/
def State.stepRead (s : State) (k : StepRun) : State :=
  match (match k.target with | some (n, p) => some (n, p.unit, p.units) | none => s.stepReads k.step) with
  | none => s
  | some (n, u, units) =>
    if s.inBasin { segment := n, unit := u } units then s else s.sourceRead { segment := n, unit := u } k.reads k.step.lost

/-- A step ends at its stamp (P1): its die is free, it has its effect, and its buffer goes back (R32, R187). -/
def State.stepDoneApply (s : State) (id : Nat) : State :=
  match s.step? id with
  | none => s
  | some k =>
    let s := s.updDelta fun d => { d with
      running := d.running.filter fun e => e.2 != .step id, steps := d.steps.filter fun x => x.id != id }
    let s := s.stepRead k
    let s := if k.handle.any s.handlePoisoned then s.poisonUsed ((k.handle.map handleWord).getD 0) 7 0 else match k.target with
      | some (n, p) =>
        if s.live p n then s.stepRun k.step
        else s.deadCopy (match k.step with | .fold _ => 1 | .refresh _ => if (s.segment? n).any Segment.slc then 1 else 3 | _ => 3) p.units
      | none => s.stepRun k.step
    match k.handle with
    | none => s
    | some h => s.presentRelease h k.step.owner 0

/-- Grants to the first waiter of a pool whose limit the pool meets (R192): what it waits for goes on with the buffer. -/
def State.serveWaiter (s : State) (p : Nat) : State :=
  match (s.pool p).waiters with
  | [] => s
  | w :: rest =>
    if s.grantable p w.owner then
      let (s, h) := (s.updPool p fun pl => { pl with waiters := rest }).takeBuffer p w.owner
      match w.wants with
      | .work id => (match s.work? id with | none => s.presentRelease h w.owner 0 | some x => s.bufferGranted x h)
      | .page seg => s.addPage seg h
      | .step id => s.updStep id fun x => { x with handle := some h }
    else s

/-! ## The die queues (R239) -/

/-- Reads that a command waits for: the next codeword of its record, or the other pages of a row (R236, R238). -/
def State.readOps (s : State) : List MediaOp :=
  (s.works.filter fun w => w.phase = .media && isReadOp w.op).flatMap fun w =>
    match w.loc with
    | none => []
    | some l =>
      let (_, ch, d, _) := s.readAt w l
      let chs := if w.left = 0 then [ch] else w.row.map Prod.fst
      chs.map fun c => { die := dieKey c d, queue := if w.desc.urgent then 1 else 2, order := [w.stamp], op := .read w.stamp }

/-- Programs that segments wait for: forced ones and those of streams 0 to 2 in fill order, those of streams 3 and 5 as their requester's
(R227, R239); a segment has one under way at a time. -/
def State.programOps (s : State) : List MediaOp :=
  (s.delta.segments.filter fun e => e.2.stream != 4 && e.2.ready (s.delta.kOf e.2.slc) &&
      !(s.delta.running.any fun r => r.2 = .program e.1)).map fun (n, g) =>
    let forced := progEnd (s.delta.kOf g.slc) g.done ≤ g.forced
    { die := s.programDie n g, op := .program n
      queue := if forced then 3 else if g.stream ≤ 2 then 4 else 5
      order := if forced then [g.forcedSeq, n] else if g.stream ≤ 2 then [g.openSeq, g.done] else [if g.stream = 5 then 0 else 1, g.openSeq] }

/-- The journal page that waits, in queue FORCED at the write sequence of its last entry. -/
def State.journalOps (s : State) : List MediaOp :=
  if s.journalNext = [] ∨ (s.delta.running.any fun r => r.2 = .journal) then []
  else match s.journalDie with
    | none => []
    | some d => [{ die := d, queue := 3, order := [(s.journalNext.getLast?.map JEntry.wseq).getD 0, 0], op := .journal }]

/-- Background erases of released blocks, the one released first on each die (R224), behind the internal requesters. -/
def State.eraseOps (s : State) : List MediaOp :=
  s.delta.dies.filterMap fun e => e.2.released.getLast?.map fun b => { die := e.1, queue := 5, order := [7, b], op := .erase b }

/-- Steps that have their buffer and wait for a die. -/
def State.stepOps (s : State) : List MediaOp :=
  s.delta.steps.filterMap fun k =>
    if k.handle.isNone ∨ k.taken then none
    else (s.stepDie k.step).map fun d =>
      { die := d, queue := match k.step with | .patrol _ _ _ _ | .patrolAgain _ _ _ => 6 | _ => 5, order := [k.step.rank, k.id], op := .step k.id }

/-- Everything that waits for a die. -/
def State.mediaOps (s : State) : List MediaOp := s.readOps ++ s.programOps ++ s.journalOps ++ s.eraseOps ++ s.stepOps

/-- Place of a queue at a die, with the three exceptions of R239. A secure deletion's relocation takes level 3's share (R257). DESIGN CHOICE
(log entry 116): PROGRAM under buffer pressure stands between URGENT and READ, patrol behind schedule before GC's share. -/
def State.queuePlace (s : State) (die queue : Nat) : Nat :=
  let level := if s.delta.steps.any fun k => match k.step with | .secure _ => true | _ => false then max 3 s.delta.gcLevel else s.delta.gcLevel
  match queue with
  | 6 => if s.patrolBehind && Config.patrolShareLeft s.grain die then 14 else 60
  | 5 => if level ≠ 0 ∧ Config.gcShareLeft s.grain die then 15 else 50
  | 4 => if (s.pool 6).free ≤ s.lowWater 6 then 18 else 40
  | q => 10 * q

/-- The operation that a free die takes first. -/
def State.firstOp (s : State) (ops : List MediaOp) (die : Nat) : Option MediaOp :=
  let key (o : MediaOp) : List Nat := s.queuePlace die o.queue :: o.order
  (ops.filter fun o => o.die = die).foldl (fun acc o => match acc with
    | none => some o
    | some a => if rankLe (key a) (key o) then some a else some o) none

/-- A step's read begins: the record that it takes is fixed, and its end follows of itself. -/
def State.takeStep (s : State) (id : Nat) : State :=
  (s.updStep id fun k => { k with taken := true, target := s.stepTarget k.step }).arrive (.stepDone id)

/-- A free die takes its first operation, and runs it until it ends; the read of a step ends of itself. -/
def State.dieTake (s : State) (ops : List MediaOp) (die : Nat) : State :=
  if (mapGet? s.delta.running die).isSome then s
  else match s.firstOp ops die with
    | none => s
    | some o =>
      let s := s.updDelta fun d => { d with running := mapSet d.running die o.op }
      match o.op with
      | .step id => s.takeStep id
      | _ => s

/-- Every free die takes an operation; a step that has its buffer and reads no flash goes on at once. -/
def State.diesTake (s : State) : State :=
  let ops := s.mediaOps
  let s := ops.foldl (fun s o => s.dieTake ops o.die) s
  (s.delta.steps.filter fun k => k.handle.isSome && !k.taken && (s.stepDie k.step).isNone).foldl
    (fun s k => s.takeStep k.id) s

/-- A metadata block is merged on a die that is free (R234, R239). -/
def State.mergeTurn (s : State) (logical unit channel die : Nat) (inOrder copyFails : Bool) : State :=
  if (mapGet? s.delta.running (dieKey channel die)).isSome then s else s.metadataMerge logical unit channel die inOrder copyFails

end Sys2Proof.Machine
end

