-- ==== Sys2Proof/Machine/FrameBytes.lean ====
section
/-! DEFINITION. The octets of the frames that Ranegal sends (R126, R127, R129, R136, R167, R168, R181): link header with the optional
802.1Q tag, IP and UDP headers with their checksums, Lerfold header, padding, FCS. -/

namespace Sys2Proof.Machine

/-- Sum of the 16-bit big-endian words of a byte string, a last odd byte padded with zero. -/
def wordSum : Bytes → Nat
  | [] => 0
  | [a] => a.toNat * 256
  | a :: b :: rest => a.toNat * 256 + b.toNat + wordSum rest

/-- The Internet checksum: the complement of the ones' complement sum. -/
def inetSum (b : Bytes) : Nat :=
  let n := wordSum b
  let n := n % 65536 + n / 65536
  65535 - (n % 65536 + n / 65536)

/-- The IPv4 header of 20 bytes: no options, Don't Fragment, Not-ECT, its checksum (R126, R127). -/
def IpOut.header4 (i : IpOut) (len : Nat) : Bytes :=
  let h (sum : Nat) : Bytes := beBytes 1 0x45 ++ beBytes 1 (i.dscp * 4) ++ beBytes 2 (20 + len) ++ beBytes 2 0 ++ beBytes 2 0x4000 ++
    beBytes 1 i.hops ++ beBytes 1 i.proto ++ beBytes 2 sum ++ beBytes 4 (i.src.toNat / 2 ^ 96) ++ beBytes 4 (i.dst.toNat / 2 ^ 96)
  h (inetSum (h 0))

/-- The fixed IPv6 header. -/
def IpOut.header6 (i : IpOut) (len : Nat) : Bytes :=
  beBytes 4 (0x60000000 + i.dscp * 4 * 2 ^ 20) ++ beBytes 2 len ++ beBytes 1 i.proto ++ beBytes 1 i.hops ++ beBytes 16 i.src.toNat ++
    beBytes 16 i.dst.toNat

/-- The pseudo header that a transport checksum covers. -/
def IpOut.pseudo (i : IpOut) (len : Nat) : Bytes :=
  if i.v6 then beBytes 16 i.src.toNat ++ beBytes 16 i.dst.toNat ++ beBytes 4 len ++ zeros 3 ++ beBytes 1 i.proto
  else beBytes 4 (i.src.toNat / 2 ^ 96) ++ beBytes 4 (i.dst.toNat / 2 ^ 96) ++ zeros 1 ++ beBytes 1 i.proto ++ beBytes 2 len

/-- A UDP datagram with its checksum, which is never 0 (R126, R181). -/
def IpOut.udp (i : IpOut) (b : Bytes) : Bytes :=
  let len := 8 + b.length
  let d (sum : Nat) : Bytes := beBytes 2 i.srcPort ++ beBytes 2 i.dstPort ++ beBytes 2 len ++ beBytes 2 sum ++ b
  let sum := inetSum (i.pseudo len ++ d 0)
  d (if sum = 0 then 65535 else sum)

/-- An ICMP message, or an ICMPv6 message, with its checksum at offset 2. -/
def IpOut.icmp (i : IpOut) (b : Bytes) : Bytes :=
  patch b 2 (beBytes 2 (inetSum (if i.v6 then i.pseudo b.length ++ b else b)))

/-- An IP packet. -/
def IpOut.packet (i : IpOut) (b : Bytes) : Bytes :=
  let body := if i.proto = 17 then i.udp b else i.icmp b
  (if i.v6 then i.header6 body.length else i.header4 body.length) ++ body

/-- What a frame carries above its link header: on a Lerfold frame the header, and on a SECURE session counter and tag (R129, R136). -/
def TxFrame.body (f : TxFrame) : Bytes :=
  match f.header with
  | none => f.payload
  | some h =>
    if h.flags.getLsbD 0 then h.bytes ++ beBytes 8 f.counter ++ f.payload ++ beBytes 16 f.tag.toNat else h.bytes ++ f.payload

/-- The octets of a frame before its FCS, padded to 60. -/
def TxFrame.octets (f : TxFrame) : Bytes :=
  let b := beBytes 6 f.dst.toNat ++ beBytes 6 f.src.toNat ++
    (match f.tci with | none => [] | some t => beBytes 2 0x8100 ++ beBytes 2 t) ++ beBytes 2 f.etherType ++
    (match f.ip with | none => f.body | some i => i.packet f.body)
  b ++ zeros (60 - b.length)

/-- The frame check sequence, its octets in the order sent (R167); a frame that ended early has it inverted (R176). -/
def TxFrame.fcs (f : TxFrame) : Bytes :=
  let c := crc32 f.octets
  leBytes 4 (if f.aborted then ~~~c else c).toNat

/-- The frame as it leaves. One that ended early leaves a beginning of its octets only, whose length the spec does not give. -/
def TxFrame.bytes (f : TxFrame) : Bytes := f.octets ++ f.fcs

end Sys2Proof.Machine
end

