-- ==== Sys2Proof/Machine/Layout.lean ====
section
/-! DEFINITION. What the media and the index hold as bytes: records (R70, R292), index entries (R68, R69), journal pages (R232, R250),
segment headers (R222), page headers (R221), pages and their codewords (R220). -/

namespace Sys2Proof.Machine

/-! ## Records (R70, R291, R292) -/

/-- A header followed by its CRC-32C. -/
def withCrc (b : Bytes) : Bytes := b ++ leBytes 4 (crc32c b).toNat

/-- The 64-byte record header (R70). -/
def Placed.header (p : Placed) : Bytes :=
  let b := p.body
  withCrc (leBytes 8 p.fp.toNat ++ leBytes 8 p.stamp ++ leBytes 8 p.wseq ++ leBytes 8 b.expiry ++ leBytes 8 b.ref ++
    leBytes 4 b.value.length ++ leBytes 2 p.key.length ++ leBytes 2 p.ns ++ leBytes 1 b.kind.code ++ leBytes 1 b.gen ++
    leBytes 1 b.batch ++ leBytes 1 b.index ++ leBytes 8 b.counter)

/-- The nonce of an at-rest encryption: the generation's salt, then the counter, big-endian (R291). -/
def recordNonce (g : Generation) (counter : Nat) : BitVec 96 := g.salt ++ BitVec.ofNat 64 counter

/-- Ciphertext and tag under a generation. -/
def sealUnder (g : Generation) (counter : Nat) (aad text : Bytes) : Bytes :=
  let (c, t) := Config.gcmSeal g.key (recordNonce g counter) aad text
  c ++ beBytes 16 t.toNat

/-- A record's bytes under its generation (R292): header, key block, chunks, each with its tag; then zeros up to a whole unit. -/
def Placed.bytesUnder (p : Placed) (g : Generation) : Bytes :=
  let b := p.body
  let chunk (i : Nat) : Bytes :=
    sealUnder g (b.counter + 1 + i) (p.header ++ leBytes 4 i) ((b.value.drop (65536 * i)).take 65536)
  padUp 256 (p.header ++ sealUnder g b.counter p.header (padUp 16 p.key) ++ (List.range (ceilDiv b.value.length 65536)).flatMap chunk)

/-- The generation of a record, while its key page holds it. -/
def State.generationOf (s : State) (b : RecordBody) : Option Generation :=
  (s.keyPage? b.page).bind fun p =>
    if p.current.number = b.gen then some p.current else p.previous.bind fun g => if g.number = b.gen then some g else none

/-- A placed record's bytes; of one whose generation is gone the plaintext header remains, and what follows cannot be formed again. -/
def State.recordBytes (s : State) (p : Placed) : Bytes :=
  match s.generationOf p.body with
  | some g => p.bytesUnder g
  | none => padTo (256 * p.units) p.header

/-! ## Index entries (R68, R69) -/

/-- The location field of an entry: the flash location word, or, while the record is held in Basin, the handle of the buffer that holds its
first unit (R69, R227). -/
def State.entryLocation (s : State) (l : Loc) (units : Nat) : Nat :=
  if s.inBasin l units then
    (((s.segment? l.segment).bind fun g => (g.handles.find? fun h => h.1 = l.unit / 64).map fun h => handleWord h.2).getD 0)
  else s.locationWord l

/-- Units of a version's record. -/
def Version.units (v : Version) (keyLen : Nat) : Nat := recordUnits keyLen (if v.kind = .tombstone then 0 else v.value.length)

/-- Entry flags (R69). -/
def State.entryFlags (s : State) (v : Version) (keyLen : Nat) : Nat :=
  b2n (v.kind = .tombstone) + 2 * b2n (v.expiry != 0) + 4 * b2n (v.loc.any fun l => s.inBasin l (v.units keyLen)) +
  8 * b2n (v.kind = .touch) + 16 * b2n (v.secured != 0)

/-- Length and link of an entry: the value length, and the number of the next chain entry, 0 at the end. -/
def linkField (length next : Nat) : Bytes := leBytes 8 (length % 2 ^ 27 + next % 2 ^ 34 * 2 ^ 27)

/-- The primary entry of a key, given the number of the first chain entry (R69). -/
def State.primaryEntry (s : State) (k : KeyEntry) (first : Nat) : Bytes :=
  match k.versions with
  | [] => zeros 32
  | v :: _ =>
    leBytes 8 k.fp.toNat ++ leBytes 8 v.stamp ++ leBytes 5 ((v.loc.map fun l => s.entryLocation l (v.units k.key.length)).getD 0) ++
    leBytes 1 (s.entryFlags v k.key.length) ++ leBytes 2 (k.ns % 1024) ++ linkField v.value.length first

/-- A version entry (R69). -/
def State.versionEntry (s : State) (v : Version) (keyLen next : Nat) : Bytes :=
  leBytes 8 v.stamp ++ leBytes 5 ((v.loc.map fun l => s.entryLocation l (v.units keyLen)).getD 0) ++
  leBytes 1 (s.entryFlags v keyLen) ++ zeros 2 ++ linkField v.value.length next

/-- An expiry entry (R69). -/
def expiryEntry (expiry next : Nat) : Bytes :=
  leBytes 8 (expiry % 2 ^ 52) ++ zeros 5 ++ [32] ++ zeros 2 ++ linkField 0 next

/-- A key's chain in order (R69): each older version's entry, and each expiry entry directly after the version that owns it. The numbers under
which Vale keeps them are its own (log entry 123). -/
def State.chainEntries (s : State) (k : KeyEntry) : List Bytes :=
  let parts (newest : Bool) (v : Version) : List (Nat → Bytes) :=
    (if newest then [] else [fun next => s.versionEntry v k.key.length next]) ++ (if v.expiry = 0 then [] else [fun next => expiryEntry v.expiry next])
  let l := match k.versions with
    | [] => []
    | v :: rest => parts true v ++ rest.flatMap (parts false)
  l.zipIdx.map fun (f, i) => f (if i + 1 < l.length then Config.chainNumber k.fp (i + 1) else 0)

/-! ## Journal (R232, R250) -/

/-- A 32-byte journal entry (R250). -/
def State.journalEntry (s : State) (j : JEntry) : Bytes :=
  leBytes 8 j.fp.toNat ++ leBytes 8 j.stamp ++ leBytes 5 (s.locationWord j.loc) ++ leBytes 1 j.kind ++ leBytes 2 (j.ns % 1024) ++
  leBytes 4 (j.length % 2 ^ 27) ++ leBytes 1 j.count ++ leBytes 1 j.index ++ zeros 2

/-- A 16 KiB journal page. -/
def State.journalPage (s : State) (l : List JEntry) : Bytes := padTo 16384 (l.flatMap s.journalEntry)

/-! ## Segments and pages (R219 to R222) -/

/-- Erase count of a segment's block on a channel. -/
def State.blockWear (s : State) (g : Segment) (channel : Nat) : Nat :=
  mapGet 0 (mapGet {} s.delta.dies (dieKey channel (s.delta.dieIndex g.group))).wear (g.blocks.getD channel 0)

/-- The segment header of a channel's block (R222). -/
def State.segmentHeader (s : State) (n : Nat) (g : Segment) (channel : Nat) : Bytes :=
  withCrc (leBytes 4 0x48444753 ++ leBytes 2 1 ++ leBytes 2 n ++ leBytes 8 g.openSeq ++ leBytes 8 g.openStamp ++ leBytes 1 g.group ++
    leBytes 1 channel ++ leBytes 1 (b2n g.slc) ++ leBytes 1 g.stream ++ leBytes 4 (s.blockWear g channel) ++
    padTo 128 (g.blocks.flatMap fun b => leBytes 4 b) ++ zeros 92)

/-- The kind byte of a page (R221): by use, and for data by stream. -/
def pageKind (use : PageUse) (stream : Nat) : Nat :=
  match use with
  | .header => 7
  | .parity _ => 4
  | .data _ => if stream = 0 then 3 else if stream = 1 then 1 else if stream ≤ 3 then 2 else if stream = 4 then 5 else 6

/-- Records that start in a data page, and those that reach into it from before. -/
def Segment.startIn (g : Segment) (q : Nat) : List Placed := g.recs.filter fun p => p.unit / 64 = q
def Segment.reachIn (g : Segment) (q : Nat) : List Placed := g.recs.filter fun p => decide (p.unit < 64 * q ∧ 64 * q < p.unit + p.units)

/-- The 16,384 data bytes of a data page. Slice images of stream 5 are Vale's own bytes, which the model holds as the index (log entry 123). -/
def State.dataPage (s : State) (g : Segment) (q : Nat) : Bytes :=
  if g.stream = 4 then s.journalPage (g.jpages.getD q [])
  else (g.reachIn q ++ g.startIn q).foldl (fun page p =>
    let b := s.recordBytes p
    if p.unit < 64 * q then patch page 0 ((b.drop (256 * (64 * q - p.unit))).take 16384)
    else patch page (256 * (p.unit - 64 * q)) (b.take (256 * (64 * (q + 1) - p.unit)))) (zeros 16384)

/-- Bytewise exclusive or. -/
def xorBytes (a b : Bytes) : Bytes := (a.zip b).map fun (x, y) => x ^^^ y

/-- The 16,384 data bytes of a page (R221, R222): a parity page holds the XOR of the 31 data pages of its row. -/
def State.pageData (s : State) (n : Nat) (g : Segment) (channel page : Nat) : Bytes :=
  let k := s.delta.kOf g.slc
  match pageUse n k channel page with
  | .header => padTo 16384 (s.segmentHeader n g channel)
  | .data q => s.dataPage g q
  | .parity _ => (List.range 32).foldl (fun acc c => match pageUse n k c page with
      | .data q => xorBytes acc (s.dataPage g q)
      | _ => acc) (zeros 16384)

/-- The write sequence in a page's header: that of its program's first page, and one more for each page behind it. -/
def State.pageSeq (s : State) (g : Segment) (page : Nat) (use : PageUse) : Nat :=
  let k := s.delta.kOf g.slc
  match use with
  | .header => g.openSeq
  | .data q =>
    match (g.seqs.filter fun e => !e.2.1 && decide (e.1 ≤ 64 * q)).getLast? with
    | some e => e.2.2 + (q - e.1 / 64)
    | none => 0
  | .parity w =>
    match g.seqs.find? fun e => e.2.1 && decide ((pagePlace k (e.1 / 64)).1 = w) with
    | some e => e.2.2 + (if w = 0 then page % k - 1 else page % k)
    | none => 0

/-- The 64-byte page header (R221). -/
def State.pageHeader (s : State) (n : Nat) (g : Segment) (channel page : Nat) : Bytes :=
  let k := s.delta.kOf g.slc
  let use := pageUse n k channel page
  let starts := match use with | .data q => g.startIn q | _ => []
  let continued := match use with | .data q => !(g.reachIn q).isEmpty | _ => false
  let padded := match use with | .data q => g.forced != 0 && decide ((g.recs.map fun p => p.unit + p.units).foldl max 0 < 64 * (q + 1)) | _ => false
  let first := match use with | .data q => ((starts.map fun p => p.unit - 64 * q).foldl min 255) | _ => 255
  withCrc (leBytes 2 n ++ leBytes 2 page ++ leBytes 1 (pageKind use g.stream) ++
    leBytes 1 (b2n continued + 2 * b2n padded + 8 * b2n g.slc) ++ leBytes 1 channel ++ leBytes 1 g.group ++
    leBytes 8 (s.pageSeq g page use) ++ leBytes 8 (if starts.isEmpty then 0 else (starts.map Placed.stamp).foldl min (2 ^ 64)) ++
    leBytes 8 ((starts.map Placed.stamp).foldl max 0) ++ leBytes 1 first ++ leBytes 1 ((page / k + n) % 32) ++ zeros 2 ++
    leBytes 4 (s.blockWear g channel) ++ zeros 20)

/-- One of a page's four codewords (R220): 4,096 data bytes, a copy of the page header, and the LDPC parity, 4,608 bytes in all. -/
def State.codeword (s : State) (n : Nat) (g : Segment) (channel page i : Nat) : Bytes :=
  let b := ((s.pageData n g channel page).drop (4096 * i)).take 4096 ++ s.pageHeader n g channel page
  b ++ padTo 448 (Config.ldpcParity b)

/-- A programmed page as the die holds it: four codewords; an erased one reads 0xFF throughout. -/
def State.storedPage (s : State) (n : Nat) (g : Segment) (channel page : Nat) : Bytes :=
  if g.pageWritten n (s.delta.kOf g.slc) channel page then (List.range 4).flatMap (s.codeword n g channel page) else List.replicate 18432 0xFF

end Sys2Proof.Machine
end

