-- ==== Sys2Proof/Machine/Boot.lean ====
section
/-! DEFINITION. The boot ROM (R325, R326, R328, R358, R359, R367), the boot record and its ring (R333, R336), entry into REBUILD
(R164, R186, R212, R245, R337, R343, R352), media recovery (R216, R251 to R253) and entry into SERVICE (R15, R24, R365, R368). -/

namespace Sys2Proof.Machine

/-! ## Images (R358, R359) -/

/-- A part entry of a manifest. -/
structure Part where
  type   : Nat
  offset : Nat
  length : Nat
  hash   : Nat
  deriving DecidableEq, Repr

/-- The base of a slot's range (R334). -/
def slotBase (slot : Nat) : Nat := if slot = 0 then Config.slotABase else Config.slotBBase

/-- The 1,264 bytes of the manifest at a base. -/
def State.manifestAt (s : State) (base : Nat) : Bytes := spiRead s.spi.mem base 1264

/-- A manifest can be read: its magic and format stand. -/
def manifestReadable (m : Bytes) : Bool := field m 0 4 = 0x4C464D31 && field m 4 2 = 1

/-- The parts of a manifest, in manifest order. -/
def manifestParts (m : Bytes) : List Part :=
  (List.range (min 16 (field m 6 1))).map fun i =>
    let e := slice m (0x30 + 64 * i) 64
    { type := field e 0 1, offset := field e 4 4, length := field e 8 4, hash := fieldBe e 0x10 48 }

/-- Lengths and counts of a manifest are in range. -/
def manifestFormat (m : Bytes) : Bool :=
  manifestReadable m && decide (7 ≤ field m 6 1 ∧ field m 6 1 ≤ 16) && decide (field m 8 4 ≤ 128) &&
  decide (4096 ≤ field m 0xC 4 ∧ field m 0xC 4 ≤ Config.stagingSize)

/-- R359, with the ranges of *Part entry*. -/
def partLayout (parts : List Part) (length : Nat) : Bool :=
  let count (t : Nat) : Nat := (parts.filter fun p => p.type = t).length
  ([1, 2, 3, 4, 6, 7].all fun t => count t = 1) && decide (1 ≤ count 5) && (parts.all fun p => decide (1 ≤ p.type ∧ p.type ≤ 7)) &&
  (parts.all fun p => p.offset % 4096 = 0 && decide (4096 ≤ p.offset ∧ 1 ≤ p.length ∧ p.offset + p.length ≤ length)) &&
  (parts.zipIdx.all fun (p, i) => parts.zipIdx.all fun (q, j) =>
    i = j || decide (p.offset + p.length ≤ q.offset ∨ q.offset + q.length ≤ p.offset))

/-- The checks of an image, in R367's order: 0 passes, else the outcome code of the first failure. -/
def State.imageCheck (s : State) (base : Nat) : Nat :=
  let m := s.manifestAt base
  if !manifestFormat m then 3
  else
    let key := slice m 0x430 96
    if !(decide (field m 7 1 ≤ 3) && Config.romKeyHash (field m 7 1) = Config.sha384 key) then 4
    else if !Config.ecdsaVerify (BitVec.ofNat 768 (beNat key)) (slice m 0 0x490) (BitVec.ofNat 768 (fieldBe m 0x490 96)) then 5
    else if !partLayout (manifestParts m) (field m 0xC 4) then 6
    else if !(manifestParts m).all (fun p =>
        (Config.sha384 (spiRead s.spi.mem (base + p.offset) p.length)).toNat = p.hash) then 7
    else if field m 8 4 < s.update.fuse then 8
    else 0

/-- A slot's range made equal to staging, up to a length in whole 4 KiB pages (R362, R367). -/
def State.applyImage (s : State) (slot length : Nat) : State :=
  s.updSpi fun p => { p with mem := spiCopy p.mem (slotBase slot) Config.stagingBase (ceilDiv length 4096 * 4096) }

/-! ## Update state (R367, R372) -/

/-- A record of the control area, closed by the CRC over the bytes before it. -/
def sealedBytes (b : Bytes) : Bytes := b ++ leBytes 4 (crc32c b).toNat

/-- The `n`th record of a range of the control area goes into the range's slots in turn; each 4 KiB sector is erased before its first slot. -/
def controlWrite (mem : List Host.Cell) (base size slots n : Nat) (record : Bytes) : List Host.Cell :=
  let at_ := base + size * (n % slots)
  spiWrite (if size * n % 4096 = 0 then spiErase mem at_ 4096 else mem) at_ record

/-- The 64 bytes of an update state record, and the 128 bytes of a slot pointer record. -/
def UpRecord.bytes (r : UpRecord) : Bytes :=
  sealedBytes (leBytes 4 0x4C555053 ++ leBytes 2 1 ++ leBytes 1 r.state.code ++ leBytes 1 r.boots ++ leBytes 8 r.seqNo ++ leBytes 8 r.deadline ++
    leBytes 4 r.window ++ leBytes 1 r.previous ++ leBytes 1 r.outcome ++ zeros 2 ++ leBytes 4 r.target ++ zeros 24)
def pointerRecord (slot seq : Nat) (hash : BitVec 384) : Bytes :=
  sealedBytes (leBytes 4 0x4C535054 ++ leBytes 2 1 ++ leBytes 1 slot ++ zeros 1 ++ leBytes 8 seq ++ beBytes 48 hash.toNat ++ zeros 60)

/-- A new update state record, which governs from then on. -/
def Spi.upWrite (p : Spi) (r : UpRecord) : Spi :=
  let r := { r with seqNo := p.up.seqNo + 1 }
  { p with up := r, mem := controlWrite p.mem 0x10000 64 1024 p.up.seqNo r.bytes }
def State.writeUp (s : State) (f : UpRecord → UpRecord) : State := s.updSpi fun p => p.upWrite (f p.up)

/-- A new slot pointer record, with the hash of the manifest of the slot named. -/
def Spi.pointerWrite (p : Spi) (slot : Nat) (hash : BitVec 384) : Spi :=
  { p with pointer := slot, ptrSeq := p.ptrSeq + 1, ptrHash := hash
           mem := controlWrite p.mem 0 128 512 p.ptrSeq (pointerRecord slot (p.ptrSeq + 1) hash) }
def State.writePointer (s : State) (slot : Nat) : State :=
  let h := Config.sha384 (s.manifestAt (slotBase slot))
  s.updSpi fun p => p.pointerWrite slot h

/-- Source 209 for an activation that ends, and 215 for a revert, once REBUILD has begun (R374). -/
def State.outcomeLater (s : State) (source type outcome slot : Nat) : State :=
  (s.updUpdate fun u => { u with outcome := outcome }).later source type (eventData [(1, outcome), (1, slot)])

/-- The ROM goes back to the previous slot. -/
def State.romRevert (s : State) (outcome : Nat) : State :=
  let prev := s.spi.up.previous
  ((s.writePointer prev).writeUp fun u => { u with state := .idle, boots := 0, deadline := 0, outcome := outcome }).outcomeLater
    215 0xC03 outcome prev

/-- Step 4 of R328: the update state decides (R367). Answers whether a staged image was applied, and whether the ROM reverted. -/
def State.romUpdate (s : State) (copyFails : Bool) : State × Bool × Bool :=
  match s.spi.up.state with
  | .applyPending =>
    let code := s.imageCheck Config.stagingBase
    let old := s.spi.pointer
    let fail (code : Nat) : State × Bool × Bool :=
      ((s.writeUp fun u => { u with state := .idle, boots := 0, deadline := 0, outcome := code }).outcomeLater 209 0xC00 code old, false, false)
    if code ≠ 0 then fail code
    else if copyFails then fail 9
    else
      let new := 1 - old
      let s := (s.applyImage new (field (s.manifestAt Config.stagingBase) 0xC 4)).writePointer new
      let s := s.writeUp fun u => { u with state := .trial, boots := 1, previous := old, deadline := 0, outcome := 1 }
      (s.outcomeLater 209 0xC00 1 new, true, false)
  | .revertRequested => (s.romRevert 10, false, true)
  | .trial =>
    if 2 ≤ s.spi.up.boots then (s.romRevert 11, false, true)
    else (s.writeUp fun u => { u with boots := 2 }, false, false)
  | _ => (s, false, false)

/-- The running slot is in TRIAL. -/
def State.inTrial (s : State) : Bool := s.spi.up.state = .trial && s.update.running = s.spi.pointer

/-- The slot that verifies, the pointer's first (R328 step 5), with source 3 for a pointer slot that does not. -/
def State.romVerify (s : State) : State × Option Nat × Bool :=
  let p := s.spi.pointer
  let code := s.imageCheck (slotBase p)
  if code = 0 then (s, some p, false)
  else if s.imageCheck (slotBase (1 - p)) = 0 then (s.later 3 7 (eventData [(1, p), (1, code)]), some (1 - p), true)
  else (s, none, false)

/-- Fuse bits still missing up to the target of a CONFIRMED state are blown (R369). -/
def State.fuseAdvance (s : State) (ok : Bool) : State :=
  if s.spi.up.state = .confirmed ∧ s.update.fuse < s.spi.up.target then
    let t := s.spi.up.target
    s.updUpdate fun u => { u with fuse := if ok then t else u.fuse, fuseShort := !ok }
  else s

/-- The fuse advance at a boot, with source 217 once REBUILD has begun (R369). -/
def State.romFuse (s : State) (ok : Bool) : State :=
  if s.spi.up.state = .confirmed ∧ s.update.fuse < s.spi.up.target then
    let s := s.fuseAdvance ok
    s.later 217 0xC05 (eventData [(4, s.update.fuse), (4, s.spi.up.target)])
  else s

/-! ## The boot record (R333, R336) -/

/-- SHA-384 of the owner material range, 0 when it is erased (R333, R335). -/
def State.ownerHash (s : State) : BitVec 384 :=
  let key := (s.spi.ownerKey.map fun k => beBytes 96 k.toNat).getD (List.replicate 96 0xFF)
  let rest := spiRead s.spi.mem 0x30060 65440
  if s.spi.ownerKey.isNone ∧ rest.all (· = 0xFF) then 0 else Config.sha384 (key ++ rest)

/-- The newest valid record of the ring (R336). -/
def Spi.lastBoot (p : Spi) : Option BootSlot :=
  (p.boots.filter (·.valid)).foldl (fun acc b => match acc with
    | none => some b
    | some a => if a.count < b.count then some b else some a) none

/-- Page sequence and hash of the boot's last recorder page: the always-on anchor, else the highest anchor of the previous record's
slot (R351). -/
def State.bootAnchor (s : State) : Nat × BitVec 384 :=
  if s.terrace.anchorValid then (s.terrace.anchorSeq, s.terrace.anchorHash)
  else ((s.spi.lastBoot.map BootSlot.anchors).getD []).foldl (fun a b => if a.1 < b.1 then b else a) (0, 0)

/-- Flags of a boot record. -/
structure BootFlags where
  trial    : Bool := false
  reverted : Bool := false
  applied  : Bool := false
  retry    : Bool := false

/-- Byte 0x02D of a boot record. -/
def BootFlags.byte (f : BootFlags) (strapFault noFirmware : Bool) : Nat :=
  b2n f.trial + 2 * b2n f.reverted + 4 * b2n f.applied + 8 * b2n strapFault + 16 * b2n noFirmware + 32 * b2n f.retry

/-- The byte of the straps. -/
def Straps.byte (x : Straps) : Nat := x.role.toNat + 4 * x.boot.toNat + 16 * b2n x.test

/-- Bytes 0x000 to 0x46F of a boot record; `slot` is none with NO_FIRMWARE. -/
def State.bootBody (s : State) (slot : Option Nat) (reason fail count : Nat) (flags : BootFlags) (alias_ : Bytes) : Bytes :=
  let m := (slot.map fun n => s.manifestAt (slotBase n)).getD []
  let parts := if slot.isSome then manifestParts m else []
  let prev := s.spi.lastBoot
  leBytes 4 0x4C425231 ++ leBytes 2 1 ++ leBytes 2 1232 ++ leBytes 8 count ++ fuseIdentity ++ leBytes 2 0xA1 ++
  leBytes 1 (slot.getD 255) ++ leBytes 1 reason ++ leBytes 4 s.update.fuse ++ leBytes 4 (if slot.isSome then field m 8 4 else 0) ++
  leBytes 1 parts.length ++ leBytes 1 (flags.byte s.pins.strapFault slot.isNone) ++ leBytes 1 (Straps.byte s.pins.straps) ++
  leBytes 1 fail ++ leBytes 8 s.terrace.sessionLost ++
  leBytes 8 (if s.time.quality = .locked then s.grain else 0) ++
  beBytes 48 (if slot.isSome then (Config.sha384 m).toNat else 0) ++ beBytes 48 s.ownerHash.toNat ++ beBytes 48 s.bootAnchor.2.toNat ++
  beBytes 48 ((prev.map fun b => (Config.sha384 b.bytes).toNat).getD 0) ++
  beBytes 96 (if slot.isSome then (Config.p384Public alias_).toNat else 0) ++
  padTo 16 (parts.map fun p => BitVec.ofNat 8 p.type) ++ padTo 768 (parts.flatMap fun p => beBytes 48 p.hash)

/-- A record goes into the ring: slots that failed before it are spoilt, and each even slot's sector is erased first (R336). -/
def Spi.ringWrite (p : Spi) (count retries : Nat) (rec : Bytes) (valid : Bool) : Spi :=
  let tried := (List.range (min 4 (retries + 1))).map fun i => (count + i) % 256
  let gone := tried ++ (tried.filter fun n => n % 2 = 0).map (· + 1)
  let boots := p.boots.filter fun b => !(b.slot ∈ gone)
  if retries < 4 then { p with boots := { slot := (count + retries) % 256, count := count, bytes := rec, valid := valid } :: boots }
  else { p with boots := boots }

/-! ## Entry into REBUILD -/

/-- The stored port configuration is applied (R164). -/
def State.portsRestore (s : State) : State :=
  s.updPorts fun x =>
    let quads := x.stQuads.getD [255, 255, 255, 255]
    let made := x.stPorts.map fun (p, c) =>
      let here : Bool := quads.getD (p / 4) 255 != 255
      let port : Port := { config := c, everSet := true, threshold := c.base, since := s.grain,
                           link := if c.enable && here then .down else .disabled }
      (p, port)
    { x with quads := quads, udp := x.stUdp, ports := made }

/-- The recorder at an entry into REBUILD: a CHAIN_LINK where the boot anchor is not the last page held, then the BOOT_RECORD copy
with source 0 (R350, R352, R343). `anchor` is the one in the boot record. -/
def State.bootRecordCopy (s : State) (anchor : Nat × BitVec 384) (reason slot flags : Nat) : State :=
  let last := s.terrace.pages.getLast?
  let hash := (last.map RecPage.hash).getD 0
  let seq := (last.map RecPage.seqNo).getD 0
  let s := if hash = anchor.2 then s
    else (s.raiseOnly 212 0 0 (eventData [(8, anchor.1), (8, seq)])).record 4 0
      (beBytes 48 anchor.2.toNat ++ beBytes 48 hash.toNat ++ leBytes 8 seq)
  (s.raiseOnly 0 0 0 (eventData [(8, s.update.bootCount), (1, reason), (1, slot), (1, flags)])).record 1 0 s.update.bootRec

/-- All cores are released (R328 step 9): the mode is REBUILD, and what a start owes is done. -/
def State.enterRebuild (s : State) (warm : Bool) (rom : RomFindings) (anchor : Nat × BitVec 384) (reason slot flags prevCount : Nat) : State :=
  let s := if warm then s else s.updTime fun t => { t with running := true, counter := Config.grainUnit }
  let old := s.mode
  let s := (s.setMode .rebuild).updPins fun p =>
    { p with ready := true, writeThrough := if warm then p.writeThrough else !p.holdupStable, alert := p.warning }
  let s := s.bootRecordCopy anchor reason slot flags
  let waiting := s.update.later
  let s := s.updUpdate fun u => { u with later := [], rebuilt := false }
  let s := waiting.foldl (fun s (source, type, data) => s.raise source 0 0 type data) s
  let s := s.raise 1 0 0 6 (eventData [(1, old.code), (1, Mode.code .rebuild)])
  let s := if s.pins.strapFault && !warm then s.raiseOnly 4 0 0 (eventData [(1, Straps.byte s.pins.straps)]) else s
  let s := if reason = 6 then s.raise 7 0 0 10 (eventData [(8, prevCount)]) else s
  let s := if !warm && s.pins.holdupStable then s.raise 127 0 0 0x50E (eventData [(1, 1)]) else s
  let s := if warm then s else ((s.basinCarve rom.splitBad).portsRestore).updDelta fun d => { d with phase := 1 }
  let s := s.glenRebuild (!warm) rom.banksBad
  if s.time.quality = .locked then s.timeSeal (stampOf s.grain 0) else s

/-! ## The ROM -/

/-- BOOT holds (R15, R328): a record with NO_FIRMWARE, and the code in the mode register. -/
def State.bootHold (s : State) (code reason : Nat) (flags : BootFlags) (rom : RomFindings) : State :=
  let count := (s.spi.lastBoot.map BootSlot.count).getD 0 + 1
  let flags := { flags with retry := decide (0 < rom.ringRetries) }
  let body := s.bootBody none reason code count flags []
  let test := code = 4
  let rec_ := body ++ beBytes 96 (if test then Config.testSign body else deviceSign body).toNat
  let s := s.updSpi fun p => p.ringWrite count rom.ringRetries rec_ (!test)
  let s := s.updUpdate fun u => { u with bootHold := code, bootRec := rec_, bootCount := count, aliasKey := [], aliasCert := [], manifestHash := 0, resetCause := reason }
  let s := s.updTerrace fun t => { t with sessionLost := 0 }
  s.updPins fun p => { p with alert := p.warning || code != 0 }

/-- Steps 6 to 9 of R328 with the slot that verified. -/
def State.bootSlot (s : State) (slot reason : Nat) (flags : BootFlags) (rom : RomFindings) (warm : Bool) : State :=
  let s := s.romFuse rom.fuseOk
  let prevCount := (s.spi.lastBoot.map BootSlot.count).getD 0
  let flags := { flags with trial := s.spi.up.state = .trial, retry := decide (0 < rom.ringRetries) }
  let hash := Config.sha384 (s.manifestAt (slotBase slot))
  let alias_ := aliasOf (cdiOf hash s.ownerHash s.update.fuse)
  let count := prevCount + 1
  if 4 ≤ rom.ringRetries then s.bootHold 3 reason flags rom
  else
    let body := s.bootBody (some slot) reason 0 count flags alias_
    let anchor := s.bootAnchor
    let rec_ := body ++ beBytes 96 (deviceSign body).toNat
    let m := s.manifestAt (slotBase slot)
    let parts := (manifestParts m).map fun p => (p.type, beBytes 48 p.hash)
    let s := s.updSpi fun p => p.ringWrite count rom.ringRetries rec_ true
    let s := if rom.ringRetries = 0 then s else s.later 6 9 (eventData [(1, rom.ringRetries)])
    let s := s.updUpdate fun u => { u with
      running := slot, bootHold := 0, bootRec := rec_, bootCount := count, aliasKey := alias_
      aliasCert := aliasCertificate alias_ parts (field m 8 4) s.update.fuse, manifestHash := hash, warm := warm
      resetCause := reason, octal := rom.octal && s.pins.straps.boot != 1
      coldParts := if warm then u.coldParts else parts.filter fun p => [4, 5, 6].contains p.1 }
    let s := (s.updTerrace fun t => { t with sessionLost := 0 }).updTime fun t => { t with sealed := false }
    s.enterRebuild warm rom anchor reason slot (flags.byte s.pins.strapFault false) prevCount

/-- The ROM's steps (R328). `recover` is a run that a FW_ACTIVATE of the recovery path asked for: the recovery strap, which lets no
slot be tried, has then been served. -/
def State.runRom (s : State) (rom : RomFindings) (warm recover : Bool) : State :=
  let reason := if warm then 3 else s.update.resetCause
  let s := s.updUpdate fun u => { u with sfdpOk := rom.sfdpOk, secretLocked := true }
  let s := if s.pins.straps.test then s else s.updGorge fun g => { g with storageKey := storageKey }
  if s.pins.straps.test then s.bootHold 4 reason {} rom
  else if !rom.sfdpOk then s.bootHold 1 reason {} rom
  else if !warm && s.pins.straps.boot = 2 && !recover then s.bootHold 5 reason {} rom
  else
    let (s, applied, reverted) := s.romUpdate rom.copyFails
    let (s, slot, other) := s.romVerify
    let flags : BootFlags := { reverted := reverted || other, applied := applied }
    match slot with
    | none => s.bootHold 2 reason flags rom
    | some n => s.bootSlot n reason flags rom warm

/-- The DRBG is instantiated and the token nonces are drawn (R297, R284, R354, R371). -/
def State.drawNonces (s : State) : State :=
  let n := s.free
  let s := s.updGorge fun g => { g with drbg := 1, consecutive := 0, requests := 0 }
  let s := (List.range 66).foldl (fun s _ => s.drbg) s
  let s := (s.updTerrace fun t => { t with clearNonce := Config.drbg64 n }).updUpdate fun u => { u with nonce := Config.drbg64 (n + 1) }
  (List.range 64).foldl (fun s f => s.updFn f fun x => { x with nonce := Config.drbg64 (n + 2 + f) }) s

/-- FILL_DONE (R15, R264 to R266): training and fill end; a failed training holds FILL; else the ROM runs. -/
def State.fillDone (s : State) (t : DramTraining) (rom : RomFindings) : State :=
  if s.mode ≠ .fill ∨ s.dram.trainFail.isSome ∨ !s.pins.pwrGood ∨ s.pins.pwrFail then s
  else
    match t.fail with
    | some f =>
      (s.updDram fun d => { d with rate := t.rate, density := t.density, ranks := t.ranks, trainFail := some f }).updPins fun p =>
        { p with alert := true }
    | none =>
      let s := s.updDram fun d => { d with rate := t.rate, density := t.density, ranks := t.ranks, fillDone := true, trainDone := true }
      (s.enterMode .boot).drawNonces.runRom rom false false

/-! ## Media recovery (R216, R251 to R253) -/

/-- Blocks of a die that the factory has marked bad. -/
def dieBad (p : NandPopulation) (channel die : Nat) : List Nat :=
  ((p.bad.filter fun b => b.1 = channel && b.2.1 = die).map fun b => b.2.2).eraseDups

/-- A die that answers fails a requirement of R215: too many factory-bad blocks, or pages that do not fit. -/
def dieUnmet (p : NandPopulation) (channel die : Nat) : Bool :=
  let k := if p.cell = 0 then 3 else 4
  decide (2 * p.blocks < 100 * (dieBad p channel die).length ∨ 4096 < p.pages ∨ p.pages % k ≠ 0 ∨ p.pages / k < 512)

/-- Why discovery treats a die as absent, as a cause of source 112 (R215, R243). -/
def dieRefusal (p : NandPopulation) (channel die : Nat) : Option Nat :=
  if !p.present.contains die then none
  else match p.refused.find? fun r => r.1 = channel && r.2.1 = die with
    | some r => some r.2.2
    | none => if dieUnmet p channel die then some 4 else none

/-- A die of the population found is usable. -/
def dieUsable (p : NandPopulation) (channel die : Nat) : Bool :=
  p.present.contains die && !p.failedCh.contains channel && (dieRefusal p channel die).isNone

/-- Spares of a fresh die (R217): blocks beyond S_g and the die's share of the metadata region, less its bad blocks. -/
def Delta.initialSpares (d : Delta) (group channel bad : Nat) : Nat := d.blocks - d.perGroup - d.metaShare group channel - bad

/-- Source 112 for one die. -/
def State.dieEvent (s : State) (channel die cause : Nat) : State :=
  s.raise 112 0 0 0x500 (eventData [(1, channel), (1, die), (1, cause)])

/-- The dies of a fresh population. -/
def Delta.freshDies (d : Delta) (p : NandPopulation) : NatMap Die :=
  (List.range 32).flatMap fun c => (List.range 16).filterMap fun i =>
    if d.inUse.contains i then
      let bad := dieBad p c i
      let spares := d.initialSpares (d.inUse.idxOf i) c bad.length
      some (dieKey c i, { bad := bad, spares := spares, spares0 := spares })
    else none

/-- Discovery (R216): on blank media the die indices usable on every channel become the population; later a recorded die that is not
usable is failed, and an unrecorded one ignored (under cause 2: DESIGN CHOICE, log entry 132). -/
def State.discover (s : State) (p : NandPopulation) : State :=
  let s := s.updPins fun x => { x with nandWp := false }
  let s := p.failedCh.foldl (fun s c => s.raise 113 0 0 0x501 (eventData [(1, c), (1, 0)])) s
  let all (l : List Nat) : List (Nat × Nat) := (List.range 32).flatMap fun c => l.map fun d => (c, d)
  let s := (all (List.range 16)).foldl (fun s (c, d) => ((dieRefusal p c d).map (s.dieEvent c d)).getD s) s
  match s.delta.pop with
  | none =>
    let use := p.present.filter fun d => (List.range 32).all fun c => dieUsable p c d
    let partly := p.present.filter fun d => !use.contains d
    let s := partly.foldl (fun s d => ((List.range 32).filter fun c => dieUsable p c d).foldl (fun s c => s.dieEvent c d 2) s) s
    if use.isEmpty then s.dieEvent 0 0 5
    else
      let s := s.updDelta fun d => { d with pop := some p, inUse := use, chState := 2, chFailed := p.failedCh }
      s.updDelta fun d => { d with dies := d.freshDies p }
  | some _ =>
    let s := (all (p.present.filter fun d => !s.delta.inUse.contains d)).foldl
      (fun s (c, d) => if dieUsable p c d then s.dieEvent c d 2 else s) s
    let gone := s.delta.dies.filter fun e => !e.2.failed && !dieUsable p (e.1 / 16) (e.1 % 16)
    let s := gone.foldl (fun s e => if p.present.contains (e.1 % 16) then s else s.dieEvent (e.1 / 16) (e.1 % 16) 1) s
    s.updDelta fun d => { d with
      chState := 2, chFailed := p.failedCh
      dies := d.dies.map fun e => (e.1, { e.2 with failed := e.2.failed || !dieUsable p (e.1 / 16) (e.1 % 16) }) }

/-- Journal entries that replay reads (R251): of the pages on flash from the one that holds the lowest catalogue W on. -/
def State.replayRead (s : State) : List JEntry :=
  ((s.delta.segments.filter fun e => e.2.stream = 4).flatMap fun e => e.2.jpages).flatMap fun p =>
    if p.any fun j => decide (s.lowestW ≤ j.wseq) then p else []

/-- A replayed entry is good: its location is programmed and holds the record of its fingerprint and stamp (R252). -/
def State.replayGood (s : State) (j : JEntry) : Bool :=
  (s.segment? j.loc.segment).any fun g => g.recs.any fun p =>
    p.unit = j.loc.unit && p.fp = j.fp && p.stamp = j.stamp && decide (p.unit + p.units ≤ g.done)

/-- Entries that replay applies (R252). -/
def State.replayEntries (s : State) : List JEntry := s.replayRead.filter s.replayGood

/-- The highest media grain (R252): of the replayed entries, the open segments' page headers and the segments' open stamps. -/
def State.findMediaGrain (s : State) : Nat :=
  let heads := s.delta.segments.flatMap fun e => e.2.openStamp :: (if e.2.open_ then e.2.recs.map Placed.stamp else [])
  grainOf ((s.replayEntries.map JEntry.stamp ++ heads).foldl max 0)

/-- The index after the rebuild phases: poisoned lines and held slices are gone (R275); the sequences resume past what was reserved
(R71); a slice that replay has changed since its image, or that has none, is to be written (R233). -/
def State.indexRebuilt (s : State) : State :=
  let l := s.replayEntries
  let changed (i : Nat) : Bool := (mapGet? s.delta.images i).isNone ||
    l.any fun j => ckptSlice j.fp = i && decide (mapGet 0 s.index.ckptW i ≤ j.wseq)
  let s := s.updIndex fun i => { i with
    keys := i.keys.map fun k => { k with poisoned := false }, heldSlices := [], wseq := i.wseqEnd
    ckptDirty := (List.range 240).filter changed }
  s.updDram fun d => { d with indexPoisoned := false }

/-- Removals and secure deletes that a loss of power interrupted go on (R48, R257). -/
def State.resumeDuties (s : State) : State :=
  let s := s.updIndex fun i => { i with removing := i.removing.map fun e => (e.1, (e.2.1, none)) }
  s.updDelta fun d => { d with intents := d.intents.map fun i => { i with todo := i.segments, after := 0 } }

/-- Stored pairs after a power-on or SYS_RESET# (R317): UNCERTAIN past the cutover stamp, else failed with cause 5. -/
def State.pairsRestart (s : State) : State :=
  s.cluster.pairs.foldl (fun s p => match p.state with
    | .copying | .comparing => s.pairFail p 5 0
    | .proposed | .committed => (s.updPair p.number fun p => { p with state := .uncertain }).pairEvent p 5 5 0
    | .uncertain => s) s

/-- Source 129: a full scan starts (R253). -/
def State.scanEvent (s : State) (cause : Nat) : State :=
  if cause = 0 then s else s.raise 129 0 0 0x50F (eventData [(1, cause)])

/-- The first grain of SERVICE after an activation boot stores the trial's deadline (R368). -/
def State.trialStart (s : State) : State :=
  if s.inTrial ∧ s.spi.up.deadline = 0 then s.writeUp fun u => { u with deadline := s.grain + 1000000 * u.window } else s

/-- The first patrol cycle of a session begins with SERVICE or SEALED (R240): DESIGN CHOICE (log entry 134). -/
def State.patrolBegin (s : State) : State :=
  s.updDelta fun d => if d.patrolStart = 0 then { d with patrolStart := s.grain } else d

/-- A FW_ACTIVATE that went through the restart completes (R365). -/
def State.activateEnd (s : State) : State :=
  let s := s.updUpdate fun u => { u with quiesce := 0, revert := false, halfRaised := false, expired := false }
  match s.update.active.bind s.work? with
  | none => s.updUpdate fun u => { u with active := none }
  | some w =>
    let s := s.updUpdate fun u => { u with active := none }
    if s.inTrial then s.ok w else s.fails w (.conditionFailed, s.update.outcome)

/-- REBUILD goes to SEALED once the index is rebuilt and the sealed marker stands on the media (R15): the marker that the rebuild found,
or one that a failing block has made it write since (R260). DEDUCED (log entry 105). -/
def State.sealedEntry (s : State) : State :=
  if s.mode = .rebuild ∧ s.update.rebuilt ∧ s.delta.sealed then (s.enterMode .sealed).patrolBegin.trialStart.activateEnd else s

/-- Source 128, health page 4, and the wait for time (R251, R261, R343, R24). -/
def State.rebuildEnd (s : State) (path : Nat) (f : RebuildFindings) (replayed : Nat) : State :=
  let s := s.updDelta fun d => { d with
    phase := 0, progress := 0, path := path, scanCause := f.scanCause, headerMs := f.headerMs, loadMs := f.loadMs, replayMs := f.replayMs
    replayed := replayed, rebuildBoot := s.update.bootCount }
  let s := s.raise 128 0 0 0x50F (eventData [(1, path), (4, f.headerMs), (4, f.loadMs), (4, f.replayMs)])
  let s := s.updUpdate fun u => { u with rebuilt := true }
  if s.delta.sealed then s.sealedEntry
  else if !s.time.lockedBoot then s.raise 2 0 0 6 (eventData [(1, s.time.quality.code)])
  else if !s.update.warm && decide (s.time.lockGrain ≤ s.delta.mediaGrain) then
    s.raise 24 0 0 0x103 (eventData [(8, s.time.lockGrain), (8, s.delta.mediaGrain)])
  else s

/-- A full scan ends with a checkpoint of every slice (R253): DEDUCED (log entry 133): a step for each is asked for, and ends in the grains
that follow; on sealed media no checkpoint is written (R260). -/
def State.fullRotation (s : State) (cause : Nat) : State :=
  if cause = 0 ∨ s.delta.sealed then s
  else (List.range 240).foldl (fun s i => s.arrive (.step (.checkpoint i s.index.wseq []) [])) s

/-- The rebuild phases (R251): catalogue, images and journal, or the full scan. -/
def State.rebuildPhases (s : State) (f : RebuildFindings) (path : Nat) : State :=
  let s := s.scanEvent f.scanCause
  let n := s.replayEntries.length
  let s := s.updDelta fun d => { d with mediaGrain := s.findMediaGrain, discards := s.replayRead.length - n }
  ((s.indexRebuilt.resumeDuties).rebuildEnd (if f.scanCause ≠ 0 then 3 else path) f n).fullRotation f.scanCause

/-- Nonce counters resume past what was reserved after a warm restart; no value counts as used for it (R291). -/
def State.skipNonces (s : State) : State :=
  s.updGorge fun g => { g with pages := g.pages.map fun e => (e.1, { e.2 with counter := e.2.reserved }) }

/-- The sealed sums of the index still hold (R251). -/
def State.sumsHold (s : State) : Bool := s.delta.sumsSealed && s.dram.sinceSeal = 0 && s.index.heldSlices.isEmpty

/-- The rest of REBUILD after a power-on or SYS_RESET#: the population is there. -/
def State.rebuildCold (s : State) (f : RebuildFindings) (blank : Bool) : State :=
  let s := if blank ∧ s.cluster.role = .standalone ∧ s.index.fpKey.isNone then
      let n := s.free
      s.drbg.updIndex fun i => { i with fpKey := some (Config.drbg128 n) } else s
  let unsafe_ := !blank && !s.delta.clean
  let prev := s.update.bootCount - 1
  let s := if unsafe_ then
      (s.updDelta fun d => { d with health := { d.health with unsafe_ := d.health.unsafe_ + 1 } }).raise 126 0 0 0x50D (eventData [(8, prev)])
    else s
  let s := s.resumeNonces.pairsRestart.updDelta fun d => { d with clean := false }
  s.rebuildPhases f (if unsafe_ then 1 else 0)

/-- REBUILD_RUN (R251): after a power-on or SYS_RESET# discovery and the rebuild phases; after a warm restart the check of the sealed
sums, and the phases only if it fails. -/
def State.rebuildRun (s : State) (f : RebuildFindings) : State :=
  if s.mode ≠ .rebuild ∨ s.update.rebuilt ∨ s.pins.pwrFail then s
  else if s.update.warm then
    let s := s.skipNonces
    if s.sumsHold then
      let s := s.updIndex fun i => { i with wseq := i.wseqEnd }
      s.rebuildEnd 2 { f with scanCause := 0, headerMs := 0, loadMs := 0, replayMs := 0 } 0
    else s.rebuildPhases f 2
  else
    let blank := s.delta.pop.isNone
    let s := s.discover f.nand
    if s.delta.pop.isNone then s else s.rebuildCold f blank

/-! ## Entry into SERVICE -/

/-- Time lets SERVICE begin (R15, R24, R25). -/
def State.timeServes (s : State) : Bool :=
  s.time.lockedBoot && (s.update.warm || decide (s.delta.mediaGrain < s.time.lockGrain) ||
    (s.time.quality = .locked && decide (s.delta.mediaGrain < s.grain)))

/-- SERVICE_ENTRY: the index is rebuilt, and time lets SERVICE begin (R15); a sealed device has gone to SEALED when its rebuild
ended. -/
def State.serviceEntry (s : State) : State :=
  if s.mode = .rebuild ∧ s.update.rebuilt ∧ !s.delta.sealed ∧ s.timeServes ∧ !s.pins.pwrFail then (s.enterMode .service).patrolBegin.trialStart.activateEnd else s

end Sys2Proof.Machine
end

