-- ==== Sys2Proof/Machine/Firmware.lean ====
section
/-! DEFINITION. Firmware update: FW_DOWNLOAD (R100, R360), FW_ACTIVATE and its phases (R361 to R365), trial and confirmation (R368,
R369), FW_STATUS (R373), the update lock (R371), the ROM's service of a BOOT hold (R15, R339); IDENTIFY (R101). -/

namespace Sys2Proof.Machine

/-! ## FW_DOWNLOAD (R100, R360) -/

/-- BUSY_RETRY with Ranegal's estimate (R80). -/
def State.busy (s : State) (w : Work) (floor : Nat) : State :=
  let (s, r) := s.retryAfter floor
  s.fails w (.busyRetry, r)

/-- The staging range takes bytes at an offset: each 4 KiB sector is erased first. -/
def State.stage (s : State) (off : Nat) (b : Bytes) : State :=
  let base := Config.stagingBase + off
  s.updSpi fun p => { p with mem := spiWrite (spiErase p.mem base (ceilDiv b.length 4096 * 4096)) base b }

/-- Range checks of a FW_DOWNLOAD. -/
def downloadFail (d : Descriptor) : Option Fail :=
  let n := d.valLen.toNat
  let off := d.stampArg.toNat
  firstFail [(decide (1 ≤ n ∧ n ≤ 1048576), badField 8), (off % 4096 = 0 && decide (off + n ≤ Config.stagingSize), badField 0x10)]

/-- FW_DOWNLOAD. -/
def State.fwDownload (s : State) (w : Work) : State :=
  if s.update.active.isSome ∨ s.update.quiesce ≠ 0 then s.busy w 1
  else
    match downloadFail w.desc with
    | some f => s.fails w f
    | none =>
      match w.block w.desc.valLen.toNat with
      | .error f => s.fails w f
      | .ok b => (s.stage w.desc.stampArg.toNat b).done w { length := b.length }

/-! ## FW_ACTIVATE: checks and preparation (R361, R362) -/

/-- Why an activation is refused: reason of UPDATE_REFUSED, in R361's order. -/
def State.activateRefusal (s : State) : Option Nat :=
  if s.spi.lock then some 2
  else if s.test.run.isSome then some 4
  else if !s.cluster.pairs.isEmpty then some 3
  else if !s.pins.holdupStable then some 1
  else none

/-- A refused activation (R361, R374). -/
def State.activateRefused (s : State) (w : Work) (reason : Nat) : State :=
  let s := s.raise 209 0 w.stamp 0xC00 (eventData [(1, reason), (1, s.update.running)])
  s.fails w (.updateRefused, reason)

/-- FW_ACTIVATE at its stamp: refused, or preparation begins. DEDUCED (log entry 106): in SEALED it is served as R14 says, prepared as in
SERVICE, and its acceptance enters MAINTENANCE, for which R15 lists no row. -/
def State.fwActivate (s : State) (w : Work) : State :=
  if s.update.active.isSome ∨ s.update.quiesce ≠ 0 ∨ s.inTrial then s.refuse w .conditionFailed
  else match s.activateRefusal with
    | some r => s.activateRefused w r
    | none =>
      (s.updUpdate fun u => { u with active := some w.stamp, preparing := true, progress := 0 }).addWork { w with phase := .admin }

/-- The slot that the pointer does not name takes staging: up to the image length, or all of it where the manifest cannot be read
(R362). -/
def State.prepareSlot (s : State) : State :=
  let m := s.manifestAt Config.stagingBase
  let n := field m 0xC 4
  let len := if manifestReadable m ∧ 4096 ≤ n ∧ n ≤ Config.stagingSize then n else Config.stagingSize
  let slot := 1 - s.spi.pointer
  (s.updSpi fun p => { p with mem := spiErase p.mem (slotBase slot) Config.stagingSize }).applyImage slot len

/-- No DELETE_SECURE and no NAMESPACE_DELETE is in progress. -/
def State.prepareQuiet (s : State) : Bool :=
  !(s.works.any fun w => w.op = 0x13 && (w.phase = .erase || !w.posted)) && s.index.removing.isEmpty

/-- Preparation ends: the slot is written; the internal completion goes to Col. -/
def State.prepareDone (s : State) : State :=
  if s.update.preparing ∧ s.prepareQuiet ∧ !s.pins.pwrFail ∧ s.update.progress < 100 then
    (s.prepareSlot.updUpdate fun u => { u with progress := 100 }).updCol fun c => { c with intake := c.intake ++ [.prepared] }
  else s

/-! ## Quiesce (R363) -/

/-- The mode becomes MAINTENANCE and the quiesce begins: from SERVICE (R15), from SEALED, and at a trial's expiry from PAIRED too (R368),
for which R15 lists no row (log entry 106). -/
def State.beginQuiesce (s : State) : State :=
  let s := s.updUpdate fun u => { u with quiesce := 1, quiesceAt := s.localUs, preparing := false }
  if s.mode = .maintenance then s else s.enterMode .maintenance

/-- The second check at the stamp of the internal completion (R362): refused, or accepted with the trial window of that moment. -/
def State.preparedApply (s : State) : State :=
  match s.update.active.bind s.work? with
  | none => s.updUpdate fun u => { u with preparing := false }
  | some w =>
    match s.activateRefusal with
    | some r => (s.updUpdate fun u => { u with active := none, preparing := false, progress := 0 }).activateRefused w r
    | none => (s.updUpdate fun u => { u with window := s.inForce.window }).beginQuiesce

/-- A command that the 300 ms bound catches: still waiting, before its point of no return (R363, R383). -/
def State.quiesceCaught (s : State) (w : Work) : Bool := w.catchable && (s.waits w || w.phase = .ordered)

/-- Commands that still wait 300 ms after a moment complete BUSY_RETRY without effect. -/
def State.catchWaiting (s : State) : State :=
  (s.works.filter s.quiesceCaught).foldl (fun s w =>
    let (s, r) := s.retryAfter 1000
    s.failWork w (.busyRetry, r)) s

/-- QUIESCE_TIMEOUT. -/
def State.quiesceTimeout (s : State) : State :=
  if s.update.quiesce = 1 ∧ s.update.quiesceAt + 300000 ≤ s.localUs then s.catchWaiting else s

/-- Everything stamped before has run to its end, but for the FW_ACTIVATE itself. -/
def State.quiesced (s : State) : Bool := (s.works.all fun w => s.update.active = some w.stamp) && !s.answering fun _ _ => true

/-- Steps 1 to 4 of R363 are done: nothing runs or waits for a stamp, and the internal requesters' steps have ended. The restart is requested
then, and its device reset stamped in P0 (R31). -/
def State.restartDue (s : State) : Bool :=
  s.update.quiesce = 1 && s.quiesced && s.quiet && (s.delta.steps.all fun k => k.handle.isNone) && !s.pins.pwrFail

/-- Steps 5 and 6 of R363, and the warm restart (R324): everything is programmed, the recorder is flushed, the sums are sealed, the
update state is written, and the ROM runs. -/
def State.warmRestart (s : State) (rom : RomFindings) : State :=
  if s.update.quiesce = 1 ∧ s.quiesced ∧ !s.pins.pwrFail then
    let s := s.programAll.flushRecorder
    let s := (s.updDelta fun d => { d with sumsSealed := true, imaging := [] }).updDram fun d => { d with sinceSeal := 0 }
    let s := s.writeUp fun u =>
      if s.update.revert then { u with state := .revertRequested }
      else { u with state := .applyPending, boots := 0, deadline := 0, window := s.update.window }
    let s := s.updUpdate fun u => { u with quiesce := 2, rebuilt := false, warm := true }
    let s := s.updLatches fun _ => []
    (s.enterMode .boot).runRom rom true false
  else s

/-! ## Trial and confirmation (R368, R369) -/

/-- Source 213: half the window has passed. -/
def State.trialHalf (s : State) : State :=
  let u := s.spi.up
  if s.inTrial ∧ u.deadline ≠ 0 ∧ !s.update.halfRaised ∧ u.deadline ≤ s.grain + 500000 * u.window ∧ s.mode.running then
    (s.updUpdate fun x => { x with halfRaised := true }).raise 213 0 0 0xC01 (eventData [(8, u.deadline), (1, s.update.running)])
  else s

/-- The expiry is due: its grain has come, and a start has reached SERVICE. -/
def State.trialDue (s : State) : Bool :=
  s.inTrial && !s.update.expired && decide (s.spi.up.deadline ≠ 0 ∧ s.spi.up.deadline ≤ s.grain) && (s.mode.serves || s.mode = .maintenance)

/-- The expiry at its stamp: REVERT_REQUESTED and a quiesce without checks. -/
def State.trialApply (s : State) : State :=
  if s.trialDue then
    let s := s.writeUp fun u => { u with state := .revertRequested }
    (s.updUpdate fun u => { u with expired := true, revert := true }).beginQuiesce
  else s

/-- FW_CONFIRM. -/
def State.fwConfirm (s : State) (w : Work) : State :=
  if !s.inTrial ∨ s.update.expired then s.refuse w .conditionFailed
  else
    let target := field (s.manifestAt (slotBase s.update.running)) 8 4
    let s := s.writeUp fun u => { u with state := .confirmed, outcome := 2, target := target, deadline := 0 }
    let s := (s.updUpdate fun u => { u with outcome := 2 }).fuseAdvance true
    (s.raise 214 0 w.stamp 0xC02 (eventData [(1, s.update.running), (4, target)])).ok w

/-! ## FW_STATUS (R373) -/

/-- A slot's version text and security version. -/
def State.slotVersion (s : State) (slot : Nat) : Bytes × Nat :=
  let m := s.manifestAt (slotBase slot)
  if manifestReadable m then (slice m 0x10 16, field m 8 4) else (zeros 16, 0xFFFFFFFF)

/-- The 64 bytes of FW_STATUS. -/
def State.fwStatusData (s : State) : Bytes :=
  let u := s.spi.up
  leBytes 1 s.update.running ++ leBytes 1 u.state.code ++ leBytes 1 u.boots ++ leBytes 1 s.update.outcome ++ leBytes 4 s.update.fuse ++
  leBytes 8 u.deadline ++ (s.slotVersion 0).1 ++ (s.slotVersion 1).1 ++ leBytes 4 (s.slotVersion 0).2 ++ leBytes 4 (s.slotVersion 1).2 ++
  leBytes 1 (b2n s.spi.lock + 2 * b2n s.update.preparing + 4 * b2n s.update.fuseShort) ++ zeros 7

/-- FW_STATUS. -/
def State.fwStatus (s : State) (w : Work) : State := s.returns w s.fwStatusData { length := 64 }

/-! ## The update lock (R371) -/

/-- The 144 bytes of the token as written. -/
def State.lockToken (s : State) : Bytes := (List.range 36).flatMap fun i => leBytes 4 (mapGet 0 s.update.token i).toNat

/-- The first failing step of R371, 0 for none. -/
def State.lockCheck (s : State) (t : Bytes) : Nat :=
  if !(field t 0 4 = 1 && decide (field t 4 1 ≤ 1) && allZero (slice t 5 11) && allZero (slice t 0x18 8)) then 1
  else match s.spi.ownerKey with
    | none => 2
    | some key =>
      if !(decide (slice t 0x20 16 = identityBytes) && field t 0x10 8 = s.update.nonce.toNat) then 3
      else if !ownerSigned key (slice t 0 0x30) (slice t 0x30 96) then 4
      else 0

/-- A lock record (R372), with its CRC. -/
def lockRecord (lock seq : Nat) : Bytes := sealedBytes (leBytes 4 0x4C554C4B ++ leBytes 1 lock ++ zeros 3 ++ leBytes 8 seq ++ zeros 12)

/-- A lock record is appended to the owner material, in the slots from 0x0003_8000 (R371, R372). -/
def Spi.lockWrite (p : Spi) (lock : Bool) : Spi :=
  { p with lock := lock, lockSeq := p.lockSeq + 1
           mem := controlWrite p.mem 0x38000 32 1024 p.lockSeq (lockRecord (b2n lock) (p.lockSeq + 1)) }

/-- A token is submitted (LOCK_CTRL.SUBMIT): BUSY until its stamp; a submission while BUSY is discarded and reported with code 5. -/
def State.lockSubmit (s : State) : State :=
  if !s.mode.running then s
  else if s.update.lockBusy then s.updUpdate fun u => { u with busyWrite := true }
  else (s.updUpdate fun u => { u with lockBusy := true }).updCol fun c => { c with intake := c.intake ++ [.lockSubmit] }

/-- The token is checked and applied at the stamp of its request (R371). -/
def State.lockApply (s : State) (st : Stamp) : State :=
  let t := s.lockToken
  let code := s.lockCheck t
  let lock := field t 4 1
  let s := if code = 0 then s.updSpi fun p => p.lockWrite (lock = 1) else s
  let n := s.free
  let s := s.drbg.updUpdate fun u => { u with
    nonce := Config.drbg64 n, lockBusy := false, busyWrite := false, lockCode := if u.busyWrite then 5 else code, lockError := code != 0 }
  s.raise 216 0 st 0xC04 (eventData [(1, code), (1, lock)])

/-! ## IDENTIFY (R101) -/

/-- The device page. -/
def State.devicePage (s : State) : Bytes :=
  let text : Bytes := ascii 16 ([76, 75, 86, 45, 55, 52, 49, 54, 45] ++ [if Config.extendedRange then 69 else 67])
  let d := s.delta
  let pop := d.pop.getD { cell := 0, ces := 0, luns := 0, blocks := 0, pages := 0, rate := 0, iface := 0, rating := 0, present := [],
                          failedCh := [], refused := [] }
  let dieBytes := pop.blocks * pop.pages * 16384
  let dies := 32 * d.groups
  let ps3 := s.inForce.power.getLsbD 0
  let status := b2n s.pins.strapFault + 2 * b2n s.pins.holdupOk + 4 * b2n s.inTrial + 8 * b2n s.spi.lock + 16 * b2n ps3
  let power := (List.range 4).flatMap fun p =>
    leBytes 4 (Config.typicalPower p) ++ leBytes 4 (Config.idleTimer p) ++ leBytes 4 (Config.exitLatency p) ++
    leBytes 1 (b2n (p != 3 || ps3)) ++ zeros 3
  padTo 4096 (text ++ leBytes 2 0xA1 ++ leBytes 1 s.mode.code ++ leBytes 1 s.cluster.role.code ++ leBytes 1 status ++
    leBytes 1 (1 + s.host.vfs) ++ zeros 2 ++ fuseIdentity ++ leBytes 8 s.update.bootCount ++ (s.slotVersion s.update.running).1 ++
    leBytes 1 s.update.running ++ zeros 3 ++ leBytes 4 s.update.fuse ++ leBytes 2 512 ++ leBytes 1 32 ++ leBytes 1 64 ++
    leBytes 4 67108864 ++ leBytes 2 1023 ++ leBytes 2 4096 ++ leBytes 1 4 ++ leBytes 1 16 ++ leBytes 1 64 ++ leBytes 1 32 ++
    leBytes 2 4096 ++ leBytes 2 65535 ++ leBytes 4 34560000 ++ leBytes 8 (dies * dieBytes) ++ leBytes 2 dies ++
    leBytes 2 (dieBytes * 8 / 1000000000) ++ zeros 4 ++ leBytes 8 s.dataDramSize ++ leBytes 8 s.indexArea ++
    leBytes 2 (if s.cluster.role = .standalone then 0 else s.deviceNumber) ++ zeros 2 ++
    leBytes 4 (if s.cluster.role = .standalone then 0 else s.cluster.epoch) ++ s.ports.quads.flatMap (leBytes 1) ++ leBytes 4 78000 ++ power)

/-- IDENTIFY. -/
def State.identify (s : State) (w : Work) : State :=
  match w.desc.param 0x20 1 with
  | 0 => s.returns w s.devicePage { length := 4096 }
  | 1 =>
    let ns := w.desc.ns.toNat
    match s.spaceAt ns w.stamp with
      | none => s.refuse w .namespaceUnknown
      | some n => s.returns w (s.nsPage ns n) { length := 4096 }
  | _ => s.fails w (badField (if w.desc.valLen.toNat < 4096 then 8 else 0x20))

/-! ## The ROM's service of a BOOT hold (R15, R339) -/

/-- BOOT holds and its ROM serves the management path; TEST_MODE leaves only the test facilities (R326). -/
def State.romServes (s : State) : Bool := s.mode = .boot && s.update.bootHold != 0 && !s.pins.straps.test

/-- A completion of the ROM carries commit stamp 0; it is counted as its answer is sent (R397). -/
def State.romAnswer (s : State) (w : Work) (r : Result) (data : Bytes) : State :=
  (s.updHost fun h => { h with total := bump h.total r.status.index }).emit (.mgmtCompletion { tag := w.desc.tag, head := 0, phase := false, result := { r with commit := 0 } } data)

/-- Data that the ROM returns. -/
def State.romReturns (s : State) (w : Work) (data : Bytes) : State :=
  if w.desc.valLen.toNat < data.length then s.romAnswer w { status := .invalidField, detail := 8 } []
  else s.romAnswer w { length := data.length } data

/-- What the ROM checks of a request that it knows, in R43's order. DEDUCED (log entry 113): REBUILD has loaded no namespace yet (R251), so
every one that IDENTIFY may name is unknown to the ROM. -/
def State.romFail (s : State) (c : Submission) : Option Fail :=
  let spaces := s.updIndex fun i => { i with spaces := [] }
  spaces.adminFail c

/-- A management-path request in a BOOT hold: FW_DOWNLOAD, FW_STATUS and IDENTIFY are answered; FW_ACTIVATE makes the ROM apply
staging and boot (WARM_RESTART), and is answered when that has ended; until then no other activation is taken. -/
def State.romCommand (s : State) (w : Work) : State :=
  let known := [0xB0, 0xB1, 0xB2, 0xC1].contains w.op
  match (if !known then some (badField 0) else s.romFail w.sub) with
  | some f => s.romAnswer w { status := f.1, detail := f.2 } []
  | none =>
  match w.op with
    | 0xB0 =>
      match downloadFail w.desc with
      | some f => s.romAnswer w { status := f.1, detail := f.2 } []
      | none =>
        match w.block w.desc.valLen.toNat with
        | .error f => s.romAnswer w { status := f.1, detail := f.2 } []
        | .ok b => (s.stage w.desc.stampArg.toNat b).romAnswer w { length := b.length } []
    | 0xB1 =>
      if s.update.activeBy.isSome then s.romAnswer w { status := .conditionFailed } [] else
      let s := s.writeUp fun u => { u with state := .applyPending, boots := 0, deadline := 0, window := if u.window = 0 then 600 else u.window }
      s.updUpdate fun u => { u with activeBy := some w.sub }
    | 0xB2 => s.romReturns w s.fwStatusData
    | _ =>
      if w.desc.param 0x20 1 = 0 then s.romReturns w s.devicePage
      else s.romAnswer w { status := .invalidField, detail := if w.desc.valLen.toNat < 4096 then 8 else 0x20 } []

/-- The ROM runs again for the FW_ACTIVATE that it took in a BOOT hold, and answers it (R15, R365). -/
def State.romRerun (s : State) (rom : RomFindings) : State :=
  match s.update.activeBy with
  | none => s
  | some c =>
    let s := (s.updUpdate fun u => { u with activeBy := none }).runRom rom s.update.warm true
    let r : Result := if s.inTrial ∧ s.mode ≠ .boot then {} else { status := .conditionFailed, detail := s.update.outcome }
    s.romAnswer (c.work 0 0 .admin) r []

end Sys2Proof.Machine
end

