-- ==== Sys2Proof/Machine/LinkTest.lean ====
section
/-! DEFINITION. LINK_TEST (R382, R383, R386), the checkers (R384, R385), the TEST block (R387) and the TAP (R388). -/

namespace Sys2Proof.Machine

/-! ## The test block -/

/-- Ports whose lanes include a lane, given the quad's mode (R159). -/
def portLanes (quadMode p : Nat) : List Nat :=
  let n := if quadMode = 3 then 2 else if quadMode = 4 then 4 else 1
  (List.range n).map (· + p)

/-- Lanes of a port that is present. -/
def State.lanesOf (s : State) (p : Nat) : List Nat :=
  if p < 16 ∧ s.portPresent p then portLanes (s.ports.quads.getD (p / 4) 255) p else []

/-- Bits set in a 32-bit field. -/
def bitList (n width : Nat) : List Nat := (List.range width).filter (bitOf n)

/-- Targets of a test, ascending: lanes or subchannels, or dies as 16 × channel + die index (R386). -/
def testTargets (b : Bytes) (inUse : List Nat) : List Nat :=
  let kind := field b 0 1
  let bits := bitList (field b 8 4) 32
  if kind = 2 then
    let mask := field b 0xC 2
    let dies := if mask = 0 then (List.range 16).filter inUse.contains else bitList mask 16
    bits.flatMap fun c => dies.map fun d => 16 * c + d
  else bits.filter (· < 16)

/-- Range checks of a test block; `direct` is a test of the TEST block under TEST_MODE. -/
def blockRange (b : Bytes) (direct : Bool) : List (Bool × Nat) :=
  let kind := field b 0 1
  let inject := field b 3 1
  let targets := field b 8 4
  let width := if kind = 2 then 32 else if kind = 3 then 8 else 16
  let whole := if direct ∧ kind = 3 then targets % 2147483648 else targets
  [(decide (1 ≤ kind ∧ kind ≤ (if direct then 4 else 3)), 0), (decide (field b 1 1 ≤ 5), 1),
   (decide (field b 2 1 ≤ (if kind = 1 then 3 else if kind = 4 then 2 else 0)), 2), (inject = 0 || decide (10 ≤ inject ∧ inject ≤ 40), 3),
   (decide (1 ≤ field b 4 4 ∧ field b 4 4 ≤ 3600000), 4), (decide (whole < 2 ^ width), 8)]

/-- Targets are present: no lane of a disabled quad, no channel that failed training, no die that is not in use (R382). -/
def State.targetsPresent (s : State) (b : Bytes) : List (Bool × Nat) :=
  let kind := field b 0 1
  let bits := bitList (field b 8 4) 32
  let lanes := bits.all fun l => s.ports.quads.getD (l / 4) 255 != 255
  let chans := bits.all fun c => !s.delta.chFailed.contains c
  let dies := (bitList (field b 0xC 2) 16).all fun d => s.delta.inUse.contains d
  [(if kind = 1 then lanes else if kind = 2 then chans else true, 8), (kind != 2 || dies, 0xC)]

/-- Offset of the first failing field of a test block. -/
def State.blockFail (s : State) (b : Bytes) (direct : Bool) : Option Nat :=
  let l := blockRange b direct ++ (if direct then [] else s.targetsPresent b) ++
    [(allZero (slice b 0xE 2), 0xE), (allZero (slice b 0x14 12), 0x14)]
  (l.find? fun x => !x.1).map Prod.snd

/-! ## LINK_TEST -/

/-- Lanes of both the time port and the backup port are selected, or lanes of the port that carries the submitting session. -/
def State.testConflict (s : State) (w : Work) (b : Bytes) : Bool :=
  let lanes := if field b 0 1 = 1 then bitList (field b 8 4) 16 else []
  let hit (p : Nat) : Bool := (s.lanesOf p).any lanes.contains
  let t := s.time.config
  let own := match w.carrier with
    | .wire n _ => (s.session? n).any fun x => hit x.params.port
    | _ => false
  (t.source = 0 && hit t.timePort && hit t.backup) || own

/-- LINK_TEST at its stamp (R382): refused, or MAINTENANCE is entered. -/
def State.linkTest (s : State) (w : Work) : State :=
  if s.mode ≠ .service then s.refuse w .conditionFailed
  else match w.block 32 with
    | .error f => s.fails w f
    | .ok b =>
      match s.blockFail b false with
      | some off => s.fails w (badArea off)
      | none =>
        let targets := testTargets b s.delta.inUse
        if w.desc.valLen.toNat < 16 + 32 * targets.length then s.fails w (badField 8)
        else if s.testConflict w b then s.refuse w .conditionFailed
        else
          let run : TestRun := { block := b, stamp := some w.stamp, accepted := s.localUs, kind := field b 0 1, duration := field b 4 4,
                                 targets := targets }
          let s := ((s.updTest fun t => { t with run := some run }).addWork { w with phase := .admin }).enterMode .maintenance
          s.beginExit

/-- No die of a NAND test's channels has an operation in progress (R385). -/
def State.testDiesIdle (s : State) (r : TestRun) : Bool :=
  r.kind != 2 || r.targets.all fun t => s.delta.running.all fun e => e.1 / 16 != t / 16

/-- The patterns start once every earlier command and every step of an internal requester has ended (R383, R385). -/
def State.testStarts (s : State) : State :=
  match s.test.run with
  | none => s
  | some r =>
    if !r.quiesced && (s.works.all fun w => some w.stamp = r.stamp || decide (r.stamp.getD 0 < w.stamp)) &&
        !(s.answering fun _ x => decide (x.stamp < r.stamp.getD 0)) && (s.delta.steps.all fun k => k.handle.isNone) && s.testDiesIdle r then
      s.updTest fun t => { t with run := some { r with quiesced := true, started := s.grain, startUs := s.localUs
                                                       locked := if r.kind = 1 then [] else r.targets } }
    else s

/-- Commands still waiting 300 ms after the acceptance (R383). -/
def State.testQuiesceTimeout (s : State) : State :=
  match s.test.run with
  | none => s
  | some r => if !r.quiesced && decide (r.accepted + 300000 ≤ s.localUs) then s.catchWaiting else s

/-- A 32-byte result entry (R386). -/
def TestRun.entry (r : TestRun) (l : List TestResult) (target : Nat) : Bytes :=
  let x := (l.find? fun x => x.target = target).getD { target := target, compared := 0, errors := 0, injected := 0 }
  let losses := mapGet 0 r.losses target
  let locked := r.locked.contains target
  leBytes 2 target ++ leBytes 1 (b2n locked + 2 * b2n (!locked && losses = 0)) ++ zeros 1 ++ leBytes 4 losses ++ leBytes 8 x.compared ++
  leBytes 8 (min (2 ^ 48 - 1) x.errors) ++ leBytes 8 (x.injected % 2 ^ 48)

/-- The results (R386). -/
def TestRun.results (r : TestRun) (ms : Nat) (l : List TestResult) : Bytes :=
  leBytes 2 r.targets.length ++ leBytes 1 r.kind ++ zeros 1 ++ leBytes 4 ms ++ leBytes 8 r.started ++ r.targets.flatMap (r.entry l)

/-- Each enabled port whose lanes were tested restarts (R383, R165). -/
def State.restartPorts (s : State) (lanes : List Nat) : State :=
  (List.range 16).foldl (fun s p =>
    if (s.port p).config.enable && (s.lanesOf p).any lanes.contains then s.linkLeave p .down 5 else s) s

/-- LINK_TEST_END: ports restart, the mode returns, LINK_TEST completes, source 224 (R383). DEDUCED (log entry 105): a device that sealed
during the test returns to SEALED, not to SERVICE. -/
def State.linkTestEnd (s : State) (l : List TestResult) : State :=
  match s.test.run with
  | none => s
  | some r =>
    if r.quiesced ∧ r.startUs + 1000 * r.duration ≤ s.localUs ∧ !s.pins.pwrFail then
      let bytes := r.results r.duration l
      let s := s.updTest fun t => { t with run := none, result := bytes, done := true }
      let s := if r.kind = 1 then s.restartPorts r.targets else s
      let s := s.enterMode (if s.delta.sealed then .sealed else .service)
      let bad := (r.targets.filter fun t => l.any fun x => x.target = t && x.errors != 0).length
      let s := s.raiseOnly 224 0 0 (eventData [(1, r.kind), (2, r.targets.length), (2, bad)])
      match r.stamp.bind s.work? with
      | none => s
      | some w => s.returns w bytes { length := bytes.length }
    else s

/-! ## Checkers (R384) -/

/-- The run that the checkers serve, and its update: a TEST block's, else a LINK_TEST's. -/
def State.checkerRun (s : State) : Option TestRun := s.test.direct.orElse fun _ => s.test.run
def State.updRun (s : State) (f : TestRun → TestRun) : State :=
  s.updTest fun t => if t.direct.isSome then { t with direct := t.direct.map f } else { t with run := t.run.map f }

/-- CHECKER_LOCK. -/
def State.checkerLock (s : State) (target : Nat) : State :=
  match s.checkerRun with
  | none => s
  | some r =>
    if r.quiesced ∧ r.targets.contains target ∧ !r.locked.contains target then s.updRun fun r => { r with locked := target :: r.locked }
    else s

/-- CHECKER_LOCK_LOSS: a loss counts; source 225 once per target and test where firmware runs (R381). -/
def State.checkerLoss (s : State) (target : Nat) : State :=
  match s.checkerRun with
  | none => s
  | some r =>
    if r.locked.contains target then
      let n := satAdd max32 (mapGet 0 r.losses target) 1
      let s := s.updRun fun r => { r with locked := r.locked.filter (· != target), losses := mapSet r.losses target n }
      if n = 1 ∧ s.mode.running then s.raiseOnly 225 0 0 (eventData [(1, r.kind), (2, target), (4, n)]) else s
    else s

/-! ## The TEST block (R387) -/

/-- The block in TEST_PARAM. -/
def State.testParam (s : State) : Bytes := (List.range 8).flatMap fun i => leBytes 4 (mapGet 0 s.written.testParam i).toNat

/-- TEST_CTRL.START. -/
def State.testStart (s : State) : State :=
  if !s.pins.straps.test ∨ s.test.direct.isSome then s
  else
    let b := s.testParam
    match s.blockFail b true with
    | some off => s.updTest fun t => { t with error := true, code := off }
    | none =>
      let targets := testTargets b []
      let run : TestRun := { block := b, started := s.grain, startUs := s.localUs, quiesced := true, kind := field b 0 1, duration := field b 4 4, targets := targets,
                             locked := if field b 0 1 = 1 ∨ field b 0 1 = 4 then [] else targets }
      s.updTest fun t => { t with direct := some run, error := false, code := 0, done := false }

/-- A test of the TEST block ends after some ms. -/
def State.directEnd (s : State) (ms : Nat) (l : List TestResult) : State :=
  match s.test.direct with
  | none => s
  | some r => s.updTest fun t => { t with direct := none, done := true, result := r.results ms l }

/-- TEST_CTRL.STOP: results cover the time run. -/
def State.testStop (s : State) (ms : Nat) (l : List TestResult) : State :=
  if s.pins.straps.test then s.directEnd (min ms ((s.test.direct.map TestRun.duration).getD 0)) l else s

/-- A write of TEST_CTRL.STOP (R387): the test ends now, after the time run; what its checkers have counted are free values, and so is that
time before the local clock of the model runs (log entry 61). -/
def State.testStopWritten (s : State) : State :=
  match s.test.direct with
  | none => s
  | some r =>
    let n := s.free
    let l := r.targets.map fun t => ({ target := t, compared := Config.testCount n t 0, errors := Config.testCount n t 1,
                                       injected := Config.testCount n t 2 } : TestResult)
    s.draw.testStop (if s.time.running then (s.localUs - r.startUs) / 1000 else Config.testCount n 0 3) l

/-- TEST_DURATION_END. -/
def State.durationEnd (s : State) (l : List TestResult) : State := s.directEnd ((s.test.direct.map TestRun.duration).getD 0) l

/-! ## The TAP (R388) -/

/-- Instruction codes that are not BYPASS. -/
def tapCodes : List (BitVec 8) := [0x01, 0x02, 0x00, 0x03, 0x04, 0x05, 0x06, 0x10]

/-- A TAP instruction is loaded: with TEST_MODE low anything but IDCODE acts as BYPASS and raises source 227. -/
def State.tapLoad (s : State) (code : BitVec 8) : State :=
  let test := s.pins.straps.test
  let acts : BitVec 8 := if code = 0x01 ∨ (test ∧ tapCodes.contains code) then code else 0xFF
  let s := s.updTest fun t => { t with ir := acts }
  if !test && code != 0x01 && code != 0xFF && s.mode.running then s.raiseOnly 227 0 0 (eventData [(1, code.toNat)]) else s

/-- The 32 bits of IDCODE: version, part number, manufacturer, and the standard's low bit. -/
def idcode : BitVec 32 := 0x1#4 ++ 0x7416#16 ++ Config.jep106 ++ 1#1

end Sys2Proof.Machine
end

