-- ==== Sys2Proof/Machine/Mgmt.lean ====
section
/-! DEFINITION. The management path: MCTP control (R338), SPDM (R340), PLDM (R341), SMB_ALERT# (R401). A response is emitted as its
message type, its command code and the content that the spec states. -/

namespace Sys2Proof.Machine

/-- MCTP control is served from BOOT onward: by the ROM that holds, or by firmware (R338). -/
def State.mctpServes (s : State) : Bool := (s.mode.running || s.romServes) && !s.pins.pwrFail

/-- PLDM and SPDM are served by firmware (R338). -/
def State.firmwareServes (s : State) : Bool := s.mode.running && !s.pins.pwrFail

/-- A response leaves the device. -/
def State.respond (s : State) (type code : Nat) (body : Bytes) : State := s.emit (.mgmt (leBytes 1 type ++ leBytes 1 code ++ body))

/-! ## MCTP control -/

/-- Set Endpoint ID: the null and the broadcast ID are refused with invalid data. -/
def State.setEid (s : State) (eid : BitVec 8) : State :=
  if !s.mctpServes then s
  else if eid = 0 ∨ eid = 0xFF then s.respond 0 1 [2]
  else (s.updMgmt fun m => { m with eid := eid }).respond 0 1 [0, 0, eid, 0]

/-- Get Endpoint ID. -/
def State.getEid (s : State) : State := if s.mctpServes then s.respond 0 2 [0, s.mgmt.eid, 0, 0] else s

/-- Message types supported (R338). -/
def mctpTypes : Bytes := [0x00, 0x01, 0x05, 0x7E]

/-- Get MCTP Version Support. -/
def State.mctpVersions (s : State) (type : BitVec 8) : State :=
  if !s.mctpServes then s
  else if type = 0xFF ∨ mctpTypes.contains type then s.respond 0 4 ([0, 1] ++ leBytes 4 (Config.mctpVersion type).toNat)
  else s.respond 0 4 [0x80]

/-- Get Message Type Support. -/
def State.mctpTypesGet (s : State) : State := if s.mctpServes then s.respond 0 5 ([0, 4] ++ mctpTypes) else s

/-! ## SPDM (R340) -/

/-- An SPDM response, kept in the transcript. -/
def State.spdm (s : State) (code : Nat) (body : Bytes) : State :=
  (s.updMgmt fun m => { m with transcript := m.transcript ++ leBytes 1 code ++ body }).respond 5 code body

/-- ERROR with a code: 1 InvalidRequest, 4 UnexpectedRequest. -/
def State.spdmError (s : State) (e : Nat) : State := s.respond 5 0x7F (leBytes 1 e)

/-- A request that must come after `n` of the three opening ones. -/
def State.spdmAfter (s : State) (n : Nat) (f : State → State) : State :=
  if !s.firmwareServes then s else if s.mgmt.spdm < n then s.spdmError 4 else f s

/-- GET_VERSION: 1.2 only; a new exchange begins. -/
def State.spdmVersion (s : State) : State :=
  s.spdmAfter 0 fun s => (s.updMgmt fun m => { m with spdm := 1, transcript := [] }).spdm 0x04 [1, 0x00, 0x12]

/-- GET_CAPABILITIES: certificates, challenge, signed measurements; nothing else. -/
def State.spdmCapabilities (s : State) : State :=
  s.spdmAfter 1 fun s => (s.updMgmt fun m => { m with spdm := 2 }).spdm 0x61 ([Config.spdmExponent] ++ leBytes 4 0x16 ++ leBytes 4 4224 ++ leBytes 4 4224)

/-- NEGOTIATE_ALGORITHMS: ECDSA P-384, SHA-384 and the DMTF measurement specification. -/
def State.spdmAlgorithms (s : State) (p384 sha384 : Bool) : State :=
  s.spdmAfter 2 fun s =>
    if p384 && sha384 then (s.updMgmt fun m => { m with spdm := 3 }).spdm 0x63 ([1] ++ leBytes 4 4 ++ leBytes 4 0x80 ++ leBytes 4 2)
    else s.spdmError 1

/-- The chain of slot 0 (R332). -/
def State.chainBytes (s : State) : Bytes := chainOf s.update.aliasCert

/-- GET_DIGESTS: slot 0 only. -/
def State.spdmDigests (s : State) : State := s.spdmAfter 3 fun s => s.spdm 0x01 ([1] ++ beBytes 48 (Config.sha384 s.chainBytes).toNat)

/-- GET_CERTIFICATE. -/
def State.spdmCertificate (s : State) (slot off n : Nat) : State :=
  s.spdmAfter 3 fun s =>
    let c := s.chainBytes
    if slot ≠ 0 ∨ c.length ≤ off then s.spdmError 1
    else
      let part := slice c off (min n (c.length - off))
      s.spdm 0x02 (leBytes 1 slot ++ leBytes 2 part.length ++ leBytes 2 (c.length - off - part.length) ++ part)

/-- A fresh nonce of 32 bytes from the DRBG. -/
def State.spdmNonce (s : State) : State × Bytes :=
  let n := s.free
  (s.drbg.drbg, leBytes 16 (Config.drbg128 n).toNat ++ leBytes 16 (Config.drbg128 (n + 1)).toNat)

/-- A response signed by the alias key over the exchange so far, the requester's nonce and the body. -/
def State.spdmSigned (s : State) (code : Nat) (nonce : BitVec 256) (body : Bytes) : State :=
  let (s, own) := s.spdmNonce
  let body := body ++ own
  let signed := s.mgmt.transcript ++ leBytes 32 nonce.toNat ++ body
  s.spdm code (body ++ beBytes 96 (Config.p384Sign s.update.aliasKey signed).toNat)

/-- CHALLENGE of slot 0. -/
def State.spdmChallenge (s : State) (slot : Nat) (nonce : BitVec 256) : State :=
  s.spdmAfter 3 fun s =>
    if slot ≠ 0 then s.spdmError 1
    else s.spdmSigned 0x03 nonce ([0, 1] ++ beBytes 48 (Config.sha384 s.chainBytes).toNat)

/-- The measurement at an index, none where it is not present. -/
def State.measurement (s : State) (i : Nat) : Option Bytes :=
  let parts := field s.update.bootRec 0x2C 1
  if 1 ≤ i ∧ i ≤ parts then some (slice s.update.bootRec (0x170 + 48 * (i - 1)) 48)
  else if i = 17 then some (slice s.update.bootRec 0x40 48)
  else if i = 18 then some (slice s.update.bootRec 0x70 48)
  else if i = 19 then some (slice s.update.bootRec 0x24 8)
  else if i = 20 then some (beBytes 48 (Config.sha384 s.update.bootRec).toNat)
  else none

/-- One measurement block: index and value. -/
def measurementBlock (i : Nat) (b : Bytes) : Bytes := leBytes 1 i ++ leBytes 2 b.length ++ b

/-- GET_MEASUREMENTS by index, or all of them. -/
def State.spdmMeasurements (s : State) (i : Nat) (nonce : BitVec 256) : State :=
  s.spdmAfter 3 fun s =>
    let l := (if i = 0xFF then (List.range 21) else [i]).filterMap fun k => (s.measurement k).map (measurementBlock k)
    if l.isEmpty then s.spdmError 1 else s.spdmSigned 0x60 nonce (leBytes 1 l.length ++ l.flatten)

/-! ## PLDM (R341) -/

/-- A PLDM response: completion code and content. -/
def State.pldm (s : State) (code : Nat) (body : Bytes) : State := if s.firmwareServes then s.respond 1 code body else s

/-- GetTID, GetPLDMVersion, GetPLDMTypes, GetPLDMCommands. -/
def State.pldmTid (s : State) : State := s.pldm 2 [0, Config.tid]
def State.pldmVersionGet (s : State) (type : Nat) : State :=
  s.pldm 3 (if type = 0 ∨ type = 2 then [0] ++ leBytes 4 (Config.pldmVersion type).toNat else [0x83])
def State.pldmTypes (s : State) : State := s.pldm 4 ([0] ++ leBytes 8 5)
def State.pldmCommands (s : State) (type : Nat) : State :=
  s.pldm 5 (if type = 0 then [0] ++ leBytes 32 0x3C
    else if type = 2 then [0] ++ leBytes 32 (2 ^ 0x11 + 2 ^ 0x21 + 2 ^ 0x50 + 2 ^ 0x51) else [0x83])

/-- Fewest spares on any die in % of its initial spares. -/
def State.sparePercent (s : State) : Nat :=
  (s.delta.dies.map fun e => e.2.spares * 100 / max 1 e.2.spares0).foldl min 100

/-- Highest wear in % of the rating. -/
def State.wearPercent (s : State) : Nat := s.wear.2 * 100 / max 1 ((s.delta.pop.map NandPopulation.rating).getD 0)

/-- Threshold state of sensor 1: 0 normal, 1 warning, 2 critical, 3 fatal. -/
def thermalState (c : Int) : Nat := if 120 ≤ c then 3 else if 105 ≤ c then 2 else if 100 ≤ c then 1 else 0

/-- GetSensorReading of a numeric sensor: threshold state and reading. -/
def State.sensorReading (s : State) (id : Nat) : State :=
  match id with
  | 1 => s.pldm 0x11 ([0] ++ leBytes 1 (thermalState s.pins.temperature) ++ leBytes 2 (twos 16 s.pins.temperature))
  | 2 => let n := s.free; s.draw.pldm 0x11 ([0, 0] ++ leBytes 2 (Config.powerEstimate n))
  | 6 => s.pldm 0x11 ([0, 0] ++ leBytes 2 s.sparePercent)
  | 7 => s.pldm 0x11 ([0, 0] ++ leBytes 2 s.wearPercent)
  | _ => s.pldm 0x11 [0x80]

/-- GetStateSensorReadings of a state sensor. -/
def State.stateReading (s : State) (id : Nat) : State :=
  match id with
  | 3 => s.pldm 0x21 ([0] ++ leBytes 1 s.mode.code)
  | 4 => s.pldm 0x21 ([0] ++ leBytes 1 s.time.quality.code)
  | 5 => s.pldm 0x21 ([0] ++ leBytes 1 (b2n s.pins.holdupStable))
  | _ => s.pldm 0x21 [0x80]

/-- GetPDRRepositoryInfo, GetPDR. -/
def State.pdrInfo (s : State) : State := s.pldm 0x50 ([0] ++ leBytes 4 Config.pdrCount)
def State.pdrGet (s : State) (record : Nat) : State := s.pldm 0x51 ([0] ++ Config.pdr record)

/-! ## SMB_ALERT# (R401) -/

/-- The controller reads the Alert Response Address: Ranegal answers with 0x32 and lets SMB_ALERT# go. -/
def State.alertResponse (s : State) : State :=
  if s.mgmt.alert then (s.updMgmt fun m => { m with alert := false }).emit (.mgmt [0x32]) else s

end Sys2Proof.Machine
end

