-- ==== Sys2Proof/Machine/Pcie.lean ====
section
/-! DEFINITION. The PCIe side's resets and link (R103, R119 to R122, R387), MSI-X unmasking (R115), power states (R123 to
R125), hold-up and the thermal warning (R244, R245, R343, R401). -/

namespace Sys2Proof.Machine

/-! ## Resets of functions -/

/-- A function that exists: the physical one and the enabled virtual ones. -/
def State.fnPresent (s : State) (f : Nat) : Bool := decide (f ≤ s.host.vfs)

/-- An access by a virtual function shows it enabled (log entry 15). -/
def State.fnSeen (s : State) (f : Nat) : State := 
  s.updHost fun h => let n := max h.vfs (min f 63); { h with vfs := n, sriov := { h.sriov with ari := h.sriov.ari || decide (7 < n) } }

/-- One function's reset at its stamp, with source 100 and its record (R119, R122). -/
def State.flrApply (s : State) (f : Nat) (st : Stamp) : State :=
  let (s, caught, kept) := s.flrOne f
  let s := if f = 0 then s.updLatches fun _ => [] else s
  s.raise 100 f st 0x303 (eventData [(1, f), (4, caught), (4, kept)])

/-- Cause code of source 101. -/
def FlrCause.code : FlrCause → Nat
  | .perst => 1
  | .hotReset => 2
  | .linkDown => 3
  | .function => 0
  | .vfClear => 0

/-- Configuration space at its reset values, VF Enable clear (R120). -/
def State.configReset (s : State) : State :=
  s.updHost fun h => { h with vfs := 0, sriov := {}, fns := h.fns.map fun e => (e.1, { e.2 with pci := {} }) }

/-- Causes that reset every function (R120). -/
def FlrCause.all : FlrCause → Bool
  | .perst => true
  | .hotReset => true
  | .linkDown => true
  | .function => false
  | .vfClear => false

/-- One function's reset within a reset of every function, at its stamp; the last one ends it, with the one source 101 over the totals
(R120). -/
def State.flrOfAll (s : State) (f : Nat) (cause : FlrCause) (last : Bool) (st : Stamp) : State :=
  let (s, caught, kept) := s.flrOne f
  let s := s.updHost fun h => { h with flrCaught := h.flrCaught + caught, flrKept := h.flrKept + kept }
  if last then
    let d := eventData [(1, cause.code), (4, s.host.flrCaught), (4, s.host.flrKept)]
    let s := ((s.configReset).updHost fun h => { h with flrCaught := 0, flrKept := 0 }).updLatches fun _ => []
    s.raiseDevice 101 0x303 st d
  else s

/-- The resets of a reset of every function: the physical function and the enabled virtual ones, in function-number order. -/
def State.allFlr (s : State) : List (Nat × Bool) := (List.range (s.host.vfs + 1)).map fun f => (f, decide (f = s.host.vfs))

/-- They reach Col's intake, each with a stamp of its own; or before the time counter runs they follow at once. -/
def State.allFlrArrive (s : State) (cause : FlrCause) : State :=
  s.allFlr.foldl (fun s e => s.arrive (.flr e.1 cause e.2)) s
def State.allFlrNow (s : State) (cause : FlrCause) : State := s.allFlr.foldl (fun s e => s.flrOfAll e.1 cause e.2 0) s

/-! ## The link -/

/-- The link trains or changes speed or width (R122); a Loopback state passed since the link was last up is reported (R381). -/
def State.linkChange (s : State) (speed width : Nat) : State :=
  let h := s.host
  let s := s.updHost fun h => { h with linkSpeed := speed, linkWidth := width, loopPending := [] }
  let below := decide (speed < 5 ∨ width < 16)
  let changed := decide (h.linkSpeed ≠ 0 ∧ (h.linkSpeed ≠ speed ∨ h.linkWidth ≠ width))
  let s := if below || changed then s.raiseDevice 102 0x304 0 (eventData [(1, speed), (1, width)]) else s
  h.loopPending.foldl (fun s x => s.raiseOnly 226 0 0 (eventData [(1, x)])) s

/-- A vector is unmasked: its pending message is sent (R115). -/
def State.unmask (s : State) (f v : Nat) : State :=
  let x := s.fn f
  let s := s.updFn f fun x =>
    let e := mapGet (0, 0, 1#32) x.msix v
    { x with pci := { x.pci with msixEnable := true }, msix := mapSet x.msix v (e.1, e.2.1, e.2.2 &&& 0xFFFFFFFE#32) }
  if v ∈ x.pendingMsi ∧ !x.d3hot ∧ !x.pci.msixMask then
    (s.updFn f fun x => { x with pendingMsi := x.pendingMsi.filter (· != v) }).emit (.msix f v)
  else s

/-- D3hot (R121). -/
def State.d3hot (s : State) (f : Nat) : State := s.updFn f fun x => { x with d3hot := true }

/-- Return to D0: what was held is posted in the order it would have taken (R121). -/
def State.d0 (s : State) (f : Nat) : State :=
  let x := s.fn f
  let s := s.updFn f fun x => { x with d3hot := false, heldBack := [] }
  x.heldBack.foldl (fun s p => match p with
    | .post c tag r => s.postEntry (match c with | some c => .data c | none => .admin f) tag r
    | .event r => s.enterEvent r) s

/-! ## Power states (R123 to R125) -/

/-- The deepest state that HOST_POWER_CTRL and the calendar allow. -/
def State.powerLimit (s : State) : Nat :=
  let r := s.inForce.power
  let ps3 := if r.getLsbD 0 then 3 else 2
  min (min ps3 s.calendarFloor) (if r.getLsbD 4 then r.toNat / 256 % 4 else 3)

/-- The idle timer of a state has expired; with FIXED set the timers are ignored, and the deepest state allowed is the one entered. -/
def State.idleLong (s : State) (p : Nat) : Bool :=
  if s.inForce.power.getLsbD 4 then p == s.powerLimit else decide (s.host.idleSince + Config.idleTimer p ≤ s.grain)

/-- An idle timer's expiry at its stamp. -/
def State.idleApply (s : State) (p : Nat) (st : Stamp) : State :=
  let old := s.host.power
  if s.mode.running ∧ !s.outstanding ∧ s.host.exiting.isNone ∧ old < p ∧ p ≤ s.powerLimit ∧ s.idleLong p then
    let s := if p = 3 then s.programAll else s
    let s := s.updHost fun h => { h with power := p }
    let s := if p = 3 then s.raise 103 0 st 0x305 (eventData [(1, old), (1, p)]) else s
    if 2 ≤ p then s.creditAll else s
  else s

/-- The exit latency has passed: PS0 (R124), from PS3 with a flush of every sealed slot (R348). With no exit under way PS3 is left for PS2
where all 16 slots are sealed (R348; log entry 100). -/
def State.exitDone (s : State) : State :=
  match s.host.exiting with
  | none =>
    if s.host.power = 3 ∧ Config.recorderSlots ≤ s.terrace.sealed.length then
      (((s.updHost fun h => { h with power := 2 }).raise 103 0 0 0x305 (eventData [(1, 3), (1, 2)])).flushSealed).creditAll
    else s
  | some p =>
    let s := s.updHost fun h => { h with power := 0, exiting := none }
    let s := s.updWorks fun ws => ws.map fun w => { w with exit := false }
    let s := if p = 3 then (s.raise 103 0 0 0x305 (eventData [(1, 3), (1, 0)])).flushSealed else s
    if 2 ≤ p then s.creditAll else s

/-! ## Hold-up (R244, R245) -/

/-- HOLDUP_OK deasserts. Before REBUILD nothing is open and WRITE_THROUGH is set on entry (R245). -/
def State.holdupLost (s : State) : State :=
  let s := s.updPins fun p => { p with holdupOk := false, holdupStable := false }
  if !s.mode.running then s
  else ((s.updPins fun p => { p with writeThrough := true }).forceAll).raise 127 0 0 0x50E (eventData [(1, 0)])

/-- HOLDUP_OK has been asserted for 100 ms. -/
def State.holdupStable (s : State) : State :=
  if s.pins.holdupStable then s
  else
    let s := s.updPins fun p => { p with holdupOk := true, holdupStable := true }
    if !s.mode.running then s
    else (s.updPins fun p => { p with writeThrough := false }).raise 127 0 0 0x50E (eventData [(1, 1)])

/-! ## The thermal warning (R343, R401) -/

/-- ALERT# by its four causes (R401). -/
def State.alertNow (s : State) : Bool :=
  s.pins.warning || (s.mode = .boot && s.update.bootHold != 0) || s.dram.trainFail.isSome || s.mode = .sealed

/-- The junction passes 100 °C: source 5 (R343), ALERT# and SMB_ALERT# (R401). -/
def State.thermalWarning (s : State) (c : Int) : State :=
  if c < 100 then s
  else
    let s := s.updPins fun p => { p with temperature := c }
    if s.pins.warning then s
    else
      let s := (s.updPins fun p => { p with warning := true, alert := true }).updMgmt fun m => { m with alert := true }
      let d := eventData [(2, twos 16 c)]
      if s.mode.running then s.raiseLimited 5 0 0 0 (some 8) fun _ => d else s.later 5 8 d

/-- The junction falls below 100 °C (R401). -/
def State.thermalClear (s : State) (c : Int) : State :=
  if 100 ≤ c then s
  else
    let s := s.updPins fun p => { p with temperature := c, warning := false }
    s.updPins fun p => { p with alert := s.alertNow }

/-- The GPIO balls that firmware drives (R401), and their level as a word. -/
def State.gpio (s : State) : Nat :=
  if s.pins.ready then
    b2n (s.mode = .service || s.mode = .paired) + 2 * b2n (s.time.quality = .locked) + 4 * b2n s.pins.writeThrough +
      8 * b2n (s.ports.ports.any fun e => e.2.link = .up)
  else 0

end Sys2Proof.Machine
end

