-- ==== Sys2Proof/Machine/Registers.lean ====
section
/-! DEFINITION. The register map (R4 to R6, R104 to R106, R183, R241, R242, R262, R277, R284, R299, R342, R357, R374, R380,
R387, R389 to R398): what each register reads, and the read latches. -/

namespace Sys2Proof.Machine

/-- What a register holds at the moment of a read: its value, whether it is 64 bits wide, and whether it is an RO register, which
has a read latch (R391). -/
structure Reg where
  value : Nat
  wide  : Bool
  ro    : Bool

/-- Registers of 32 and 64 bits, RO and RW. -/
def r32 (v : Nat) : Reg := { value := v % 4294967296, wide := false, ro := true }
def r64 (v : Nat) : Reg := { value := v % 18446744073709551616, wide := true, ro := true }
def w64 (v : Nat) : Reg := { value := v % 18446744073709551616, wide := true, ro := false }

/-- Index of an array's instance at an offset. -/
def arrayAt (off base stride count : Nat) : Option Nat :=
  if base ≤ off ∧ off < base + stride * count ∧ (off - base) % stride = 0 then some ((off - base) / stride) else none

/-- Bits placed at a position. -/
def at_ (v sh : Nat) : Nat := v * 2 ^ sh
def bit_ (b : Bool) (sh : Nat) : Nat := b2n b * 2 ^ sh

/-! ## GLOBAL and TIME -/

/-- A stored setting has been written and is not stored yet (R393). -/
def State.settingsPending (s : State) : Bool := s.written.afterReset != s.stored.afterReset || s.limitsPending

/-- *GLOBAL registers* (R342) and SETTINGS_STATE (R393). -/
def State.regGlobal (s : State) (off : Nat) : Option Reg :=
  let x := s.pins.straps
  [(0x00, r32 (at_ s.update.bootHold 24 + at_ s.update.resetCause 16 + at_ s.cluster.role.code 8 + s.mode.code)),
   (0x04, r32 (bit_ s.pins.strapFault 5 + bit_ x.test 4 + at_ x.boot.toNat 2 + x.role.toNat)),
   (0x08, r64 Config.lot.toNat),
   (0x10, r32 (at_ Config.fabSite.toNat 24 + at_ Config.dieY.toNat 16 + at_ Config.dieX.toNat 8 + Config.wafer.toNat)),
   (0x14, r32 Config.testDate.toNat), (0x18, r64 (if s.mode.running then s.update.bootCount else 0)),
   (0x20, r32 s.update.fuse), (0x24, r32 0xA1), (0x28, r32 (b2n s.settingsPending))].lookup off

/-- Windows as a bit mask. -/
def State.windowMask (s : State) (p : Window → Bool) : Nat := maskOf ((s.time.windows.filter fun e => p e.2).map Prod.fst)

/-- *TIME registers* (R394). -/
def State.regTime (s : State) (off : Nat) : Option Reg :=
  let t := s.time
  [(0x00, r64 s.nowNs), (0x08, r64 s.grain),
   (0x10, r32 (at_ t.config.backup 24 + at_ t.config.timePort 16 + at_ t.inUse 8 + at_ t.config.source 6 + bit_ t.lockedBoot 5 +
     bit_ t.relocked 4 + t.quality.code)),
   (0x14, r32 (at_ t.config.asym 16 + at_ t.config.domain 8 + at_ t.config.delay 5 + at_ t.config.transport 2 + t.config.profile)),
   (0x18, r32 t.config.limit), (0x1C, r32 (twos 16 t.ppm)), (0x20, r64 (twos 64 t.offset)), (0x28, r64 t.uncertainty),
   (0x30, r64 t.masterId.toNat), (0x38, r64 t.carried), (0x40, r64 t.skipped), (0x48, r64 t.increment), (0x50, r64 t.ppsLast),
   (0x58, r32 (s.windowMask fun w => t.isSet && w.active s.grain)), (0x5C, r32 (s.windowMask Window.enable)),
   (0x60, r32 s.index.holds.length)].lookup off

/-! ## HOST -/

/-- *Function page*. -/
def State.regFn (s : State) (f off : Nat) : Option Reg :=
  let x := s.fn f
  [(0x00, r32 x.ctrl.toNat),
   (0x04, r32 (at_ x.cfgCode 8 + bit_ x.admFault 3 + bit_ x.cfgError 2 + bit_ x.evtReady 1 + b2n x.admReady)),
   (0x08, w64 x.sqBase.toNat), (0x10, w64 x.cqBase.toNat), (0x18, r32 x.admCfg.toNat), (0x20, w64 x.evtBase.toNat),
   (0x28, r32 x.evtCfg.toNat), (0x30, r32 x.hostErr), (0x34, r32 x.doorErr)].lookup off

/-- An MSI-X table entry: reset masked. -/
def Fn.msixEntry (x : Fn) (v : Nat) : BitVec 64 × BitVec 32 × BitVec 32 := mapGet (0, 0, 1#32) x.msix v

/-- Words of the MSI-X table and the pending-bit array. -/
def State.regMsix (s : State) (f vectors off : Nat) : Option Reg :=
  if off < 16 * vectors ∧ off % 4 = 0 then
    let e := (s.fn f).msixEntry (off / 16)
    some (r32 (match off % 16 with
      | 0 => e.1.toNat
      | 4 => e.1.toNat / 4294967296
      | 8 => e.2.1.toNat
      | _ => e.2.2.toNat))
  else none
def State.regPba (s : State) (f vectors off : Nat) : Option Reg :=
  if off < ceilDiv vectors 64 * 8 ∧ off % 4 = 0 then
    some (r32 (maskOf (((s.fn f).pendingMsi.filter fun v => v / 32 = off / 4).map (· % 32))))
  else none

/-- A context is bound, or it is an admin ring (R397). -/
def State.countsHold (s : State) (ctx : Nat) : Bool := decide (4096 ≤ ctx) || (s.ring? ctx).isSome || (s.session? ctx).isSome

/-- HOST outside the function pages (R125, R397), from 0x0003_0000. -/
def State.regHost (s : State) (off : Nat) : Option Reg :=
  if off < 0x8000 then s.regMsix 0 2048 off
  else if off < 0x8100 then s.regPba 0 2048 (off - 0x8000)
  else if off = 0x9000 then some (r32 (at_ s.host.power 16 + s.written.power.toNat))
  else if off = 0x9004 then some (r32 (at_ s.host.linkWidth 8 + s.host.linkSpeed))
  else if off = 0x9100 then some (r32 s.written.ctxSelect)
  else match arrayAt off 0xA000 8 24, arrayAt off 0xA100 8 24 with
    | some i, _ => some (r64 (mapGet 0 s.host.total i))
    | _, some i =>
      let c := s.written.ctxSelect
      some (r64 (if s.countsHold c then mapGet 0 s.host.ctxCount (c * 32 + i) else 0))
    | _, _ => none

/-! ## ETH_QUAD and MAC -/

/-- The present port that a lane serves (R159). -/
def State.lanePort (s : State) (lane : Nat) : Option Nat := (List.range 16).find? fun p => (s.lanesOf p).contains lane

/-- A lane's receiver is locked: its port is UP, or a test's checker is locked on it. -/
def State.laneLocked (s : State) (lane : Nat) : Bool :=
  (s.lanePort lane).any fun p => (s.port p).link = .up || (s.checkerRun.any fun r => r.kind = 1 && r.locked.contains lane)

/-- *ETH_QUAD[q] registers* (R395). -/
def State.regQuad (s : State) (q off : Nat) : Option Reg :=
  let mode := s.ports.quads.getD q 255
  let lane (l : Nat) : Nat := 4 * q + l
  if off = 0 then
    some (r32 (at_ mode 8 + bit_ (Config.refclkOk q) 4 + maskOf ((List.range 4).filter fun l => s.laneLocked (lane l))))
  else if off = 4 then some (r32 ((s.update.coldParts.find? fun p => p.1 = 4).elim 0 fun p => (Config.serdesVersion p.2).toNat))
  else match arrayAt off 0x10 0x10 4, arrayAt off 0x14 0x10 4, arrayAt off 0x18 0x10 4 with
    | some l, _, _ => some (r32 (match s.lanePort (lane l) with
        | none => 0
        | some p =>
          at_ p 8 + bit_ (Config.polarity (lane l)) 6 + bit_ (s.port p).trained 5 + bit_ (s.laneLocked (lane l)) 4 +
            bit_ (s.laneLocked (lane l)) 3 + (if mode = 0 then 1 else if mode = 1 then 2 else 3)))
    | _, some l, _ => some (r32 (((s.lanePort (lane l)).map fun p => (s.port p).taps.toNat).getD 0))
    | _, _, some l => some (r32 (if s.laneLocked (lane l) then Config.laneSnr (lane l) % 65536 else 0))
    | _, _, _ => none

/-- Octets of a MAC address with the first on the wire in the lowest byte. -/
def wireOrder (m : BitVec 48) : Nat := leNat (beBytes 6 m.toNat)

/-- A word of GROUP_HASH (R168). -/
def State.groupWord (s : State) (p i : Nat) : Nat :=
  if s.portPresent p && (s.port p).config.enable then
    maskOf (((s.groupsOf p).map groupBin).filterMap fun b => if b / 32 = i then some (b % 32) else none)
  else 0

/-- Wake time in use for transmit LPI (R175), 0 while it is off. -/
def State.twUsed (s : State) (p : Nat) : Nat :=
  let x := s.port p
  if x.config.lpi && x.config.type != 2 && decide (s.portRate p ≤ 3) then
    match x.partnerTw with
    | some t => if t ≤ 100 then max t (s.ownTw p) else 0
    | none => 0
  else 0

/-- *PORT_STATUS* (R183), *MAC[p] configuration images* (R396), *Port counters* (R182). -/
def State.regMac (s : State) (p off : Nat) : Option Reg :=
  let x := s.port p
  let c := x.config
  if off = 0 then
    some (r32 (at_ x.threshold 16 + at_ (if x.link = .up then s.portRate p else 0) 9 + bit_ (x.threshold = c.maxFrame) 8 +
      bit_ x.localFault 7 + bit_ x.remoteFault 6 + bit_ x.preemptOn 5 + bit_ x.lpiRx 4 + bit_ x.lpiTx 3 + x.link.code))
  else if off = 4 then
    some (r32 (at_ (c.base / 256) 24 + bit_ c.fixed 23 + bit_ c.preempt 22 + bit_ c.lpi 21 + bit_ c.enable 20 + at_ c.minFrag 18 +
      at_ c.type 16 + c.maxFrame))
  else if off = 8 then some (r32 (at_ (s.twUsed p) 16 + x.partnerTw.getD 0xFFFF))
  else match arrayAt off 0x10 8 8, arrayAt off 0x400 4 128, arrayAt off 0x1000 8 96 with
    | some i, _, _ => some (r64 (wireOrder (c.unicast.getD i 0)))
    | _, some i, _ => some (r32 (s.groupWord p i))
    | _, _, some i => some (r64 (mapGet 0 x.cnt i))
    | _, _, _ => none

/-! ## BASIN and GLEN -/

/-- *Basin control and error registers*, *BASIN_POOL[p]*. -/
def State.regBasin (s : State) (off : Nat) : Option Reg :=
  let b := s.basin
  if off < 0x40 then
    [(0x00, r32 0), (0x04, r32 (at_ b.saveCode 8 + bit_ b.defaulted 2 + bit_ b.saveError 1 + b2n b.saveDone)),
     (0x08, r32 s.written.rxReserve), (0x0C, r32 s.written.fetchReserve), (0x10, r64 b.doubleFree), (0x18, r64 b.nonOwner),
     (0x20, r64 b.badRange), (0x28, r64 b.badAlign), (0x30, r64 b.badGen), (0x38, r64 b.fetchHeld)].lookup off
  else if 0x100 ≤ off ∧ off < 0x300 then
    let n := (off - 0x100) / 0x40
    let p := s.pool n
    [(0x00, r32 (at_ p.mib 24 + p.count)), (0x04, r32 p.free), (0x08, r32 (mapGet (p.count / 16) s.written.poolLow n)),
     (0x0C, r32 (at_ p.peak 16 + p.waiters.length)), (0x10, r64 p.allocs), (0x18, r64 p.releases), (0x20, r64 p.waits),
     (0x28, r64 p.fails), (0x30, r32 p.next)].lookup ((off - 0x100) % 0x40)
  else none

/-- *Glen registers*. -/
def State.regGlen (s : State) (off : Nat) : Option Reg :=
  let g := s.glen
  match arrayAt off 0 4 32, arrayAt off 0x90 8 4, arrayAt off 0x120 4 8 with
  | some b, _, _ =>
    let n := g.nextBank b
    let c := g.bank b
    some (r32 (at_ n.1 12 + at_ n.2 10 + at_ c.1 4 + c.2))
  | _, some t, _ => some (r64 (mapGet 0 g.multi t))
  | _, _, some i => some (r32 (mapGet 0 g.port.prefix_ i).toNat)
  | _, _, _ =>
    [(0x80, r32 0), (0x84, r32 (at_ g.saveCode 8 + bit_ g.defaulted 2 + bit_ g.saveError 1 + b2n g.saveDone)),
     (0x88, r32 s.written.holeLog), (0x8C, r32 (at_ (min 65535 g.peak) 16 + min 65535 g.inflight.length)), (0xB0, r64 g.waits),
     (0xB8, r64 g.backWaits), (0xC0, r64 g.stalls), (0x100, r32 0),
     (0x104, r32 (at_ g.ruleId 16 + at_ g.ruleCode 8 + bit_ g.ruleError 1 + b2n g.busy)), (0x108, r64 g.ruleStamp),
     (0x110, r32 g.port.target.toNat), (0x114, r32 g.port.match_.toNat), (0x118, r32 g.port.priority.toNat),
     (0x11C, r32 g.port.result.toNat)].lookup off

/-! ## DELTA, NFC_CH, DRAM -/

/-- *DELTA registers* (R241), *DELTA fault registers* (R262). -/
def State.regDelta (s : State) (off : Nat) : Option Reg :=
  let d := s.delta
  let pop := d.pop
  let (_, spares, place) := s.sparesMin
  [(0x00, r32 (match pop with
      | none => 0
      | some p => at_ p.cell 24 + at_ d.groups 16 + at_ p.luns 8 + p.ces)),
   (0x04, r32 (match pop with | none => 0 | some p => at_ p.blocks 16 + p.pages)), (0x08, r32 d.total), (0x0C, r32 d.free),
   (0x10, r32 s.slcBudget), (0x14, r32 d.slcInUse), (0x18, r32 (at_ d.gcLevel 4 + s.written.gcCtrl.toNat)),
   (0x1C, r32 s.written.slcCtrl.toNat), (0x20, r32 s.written.patrol), (0x40, r64 d.forcedCount), (0x48, r64 d.padUnits),
   (0x50, r64 d.gcCopied), (0x58, r64 d.foldCopied), (0x60, r64 d.deadCopies), (0x68, r64 d.erases), (0x70, r64 d.ckptBytes),
   (0x78, r64 d.copyMerges),
   (0x80, r32 (at_ d.progress 16 + at_ d.phase 8 + bit_ d.lostFull 5 + bit_ (!d.lostList.isEmpty) 4 + bit_ d.sparesLow 3 +
     bit_ d.sealed 2 + bit_ d.noSpace 1 + b2n s.pins.writeThrough)),
   (0x84, r32 s.written.refresh), (0x88, r32 (at_ spares 16 + place)), (0x90, r64 d.programFails), (0x98, r64 d.eraseFails),
   (0xA0, r64 d.lostCount), (0xA8, r64 d.refreshes), (0xB0, r64 d.discards)].lookup off

/-- *NFC_CH[c] registers* (R242). -/
def State.regChannel (s : State) (c off : Nat) : Option Reg :=
  let d := s.delta
  let n := mapGet {} d.channels c
  match arrayAt off 0x10 4 16 with
  | some i =>
    let x := s.die c i
    some (r32 ((mapGet 0 s.written.dieRetry (dieKey c i)).toNat + at_ x.levelSlc 4 + x.levelNat))
  | none =>
    [(0x00, r32 (match d.pop with
        | none => 0
        | some p => at_ (maskOf d.inUse) 16 + at_ (p.rate / 100) 8 + at_ p.iface 4 + (if d.chFailed.contains c then 3 else d.chState))),
     (0x04, r32 (maskOf ((List.range 16).filter fun i => (s.die c i).failed))), (0x100, r64 n.codewords), (0x108, r64 n.soft),
     (0x110, r64 n.retries), (0x118, r64 n.rebuilds), (0x120, r64 n.unreadable)].lookup off

/-- *DRAM registers* (R277). -/
def State.regDram (s : State) (off : Nat) : Option Reg :=
  let d := s.dram
  let mark (c r : Nat) : Nat := match mapGet? d.failed (c * 2 + r) with
    | none => 0
    | some dev => 128 + dev
  match arrayAt off 0x18 4 4, arrayAt off 0x100 8 16 with
  | some c, _ => some (r32 (at_ (mark c 1) 8 + mark c 0))
  | _, some i => some (r64 (match d.remaps[i]? with
      | none => 0
      | some a => 2 ^ 63 + a / 128 % 2 ^ 31 * 128 + i))
  | _, _ =>
    [(0x00, r32 (at_ (d.rate / 100) 16 + at_ d.density 8 + d.ranks)),
     (0x04, r32 (at_ ((d.trainFail.map Prod.snd).getD 0) 12 + at_ ((d.trainFail.map Prod.fst).getD 0) 8 + bit_ d.indexPoisoned 4 +
       bit_ d.remapFull 3 + bit_ d.trainFail.isSome 2 + bit_ d.fillDone 1 + b2n d.trainDone)),
     (0x08, r32 s.written.remap), (0x0C, r32 s.written.device), (0x10, r32 s.written.scrub), (0x40, r64 d.corrected),
     (0x48, r64 d.uncorrectable), (0x50, r64 d.poisonReads), (0x58, r64 d.consumed), (0x60, r64 d.mergeRmw), (0x68, r64 d.mergeFull),
     (0x70, r64 d.refused), (0x78, r64 d.sramCorrected), (0x80, r64 d.sramBad), (0x88, r64 d.glenFixes)].lookup off

/-! ## GORGE, TERRACE, UPDATE -/

/-- *GORGE registers*. -/
def State.regGorge (s : State) (off : Nat) : Option Reg :=
  let g := s.gorge
  match arrayAt off 0x40 4 16 with
  | some p => some (r32 (bit_ (g.fenced.contains p) 31 + min 65535 (mapGet 0 g.pairCount p)))
  | none =>
    [(0x00, r32 (at_ (maskOf g.fenced) 16 + at_ s.pairs.length 8 + g.drbg)), (0x08, r64 g.encrypted), (0x10, r64 g.decrypted),
     (0x18, r64 g.secureFrames), (0x20, r64 g.tagFails), (0x28, r64 g.mismatches), (0x30, r64 g.reseeds),
     (0x38, r64 g.entropyFails)].lookup off

/-- *GORGE_PAGE[n]* (R299): 0 while the page is free. -/
def State.regPage (s : State) (n off : Nat) : Option Reg :=
  let p := s.keyPage? n
  let v (f : KeyPage → Nat) : Nat := (p.map f).getD 0
  [(0x00, r32 (v fun p => at_ p.owner 8 + bit_ p.sweep 2 + (if p.previous.isSome then 2 else 1))),
   (0x04, r32 (v fun p => at_ ((p.previous.map Generation.number).getD 0) 8 + p.current.number)), (0x08, r32 (v fun p => p.current.limit)),
   (0x0C, r32 (v fun _ => s.pageNamespaces n)), (0x10, r64 (v KeyPage.counter)), (0x18, r64 (v fun p => p.current.uses)),
   (0x20, r64 (v fun p => (p.previous.map Generation.uses).getD 0)), (0x28, r64 (v fun _ => s.sweepLeft n))].lookup off

/-- *TERRACE registers* (R357). -/
def State.regTerrace (s : State) (off : Nat) : Option Reg :=
  let t := s.terrace
  let n := t.pages.length
  match arrayAt off 0x30 4 12 with
  | some i => some (r32 (field (beBytes 48 t.anchorHash.toNat) (4 * i) 4))
  | none =>
    [(0x00, r32 (bit_ t.ring 16 + at_ t.sealed.length 8 + bit_ t.anchorValid 2 + bit_ (decide (Config.recorderPages ≤ n)) 1 +
       b2n (decide (Config.recorderWarn ≤ n)))),
     (0x04, r32 t.nextSeq), (0x08, r64 ((t.pages.head?.map RecPage.seqNo).getD 0)), (0x10, r64 t.anchorSeq), (0x18, r64 t.notKept),
     (0x20, r64 t.ringDropped), (0x28, r64 t.clearNonce.toNat)].lookup off

/-- *UPDATE registers* (R374). -/
def State.regUpdate (s : State) (off : Nat) : Option Reg :=
  let u := s.update
  match arrayAt off 0x100 4 36 with
  | some _ => some (r32 0)
  | none =>
    [(0x00, r32 (at_ u.outcome 24 + at_ u.progress 16 + bit_ s.spi.lock 4 + bit_ s.inTrial 3 +
       (if u.revert then 3 else if u.quiesce = 1 then 2 else if u.preparing then 1 else 0))),
     (0x04, r32 s.written.window), (0x08, r64 s.spi.up.deadline), (0x10, r64 u.nonce.toNat), (0x18, r32 0),
     (0x1C, r32 (at_ u.lockCode 8 + bit_ u.lockError 1 + b2n u.lockBusy))].lookup off

/-! ## CLUSTER, EVENTS, TEST -/

/-- Owner and override bit of a slice (R398). -/
def State.sliceEntry (s : State) (n : Nat) : Nat :=
  (s.sliceOwner n).getD s.deviceNumber % 1024 +
    bit_ (s.cluster.role != .standalone && (mapGet? s.cluster.overrides n).isSome) 15

/-- Side of a pair. -/
def pairSide (p : Pair) : Nat := b2n p.target

/-- One pair slot. -/
def regPair (p : Option Pair) (off : Nat) : Option Reg :=
  let v (f : Pair → Nat) : Nat := (p.map f).getD 0
  [(0x00, r32 (v fun p => at_ p.number 16 + at_ p.state.code 13 + at_ (pairSide p) 12 + at_ p.kind 10 + p.peer)),
   (0x04, r32 (v fun p => p.slices.length)), (0x08, r64 (v Pair.cutover)), (0x10, r64 (v Pair.applied)),
   (0x18, r32 (v fun p => (p.waiting.filter fun m => m.kind = 1).length)), (0x20, r64 (v Pair.copied)), (0x28, r64 (v Pair.mismatches)),
   (0x30, r32 (v Pair.refusals))].lookup off

/-- *CLUSTER registers* (R398). -/
def State.regCluster (s : State) (off : Nat) : Option Reg :=
  let c := s.cluster
  if 0x8000 ≤ off ∧ off < 0x10000 ∧ off % 4 = 0 then
    let i := (off - 0x8000) / 4
    some (r32 (at_ (s.sliceEntry (2 * i + 1)) 16 + s.sliceEntry (2 * i)))
  else if 0x100 ≤ off ∧ off < 0x200 then
    regPair (c.pairs.find? fun p => p.slot = (off - 0x100) / 0x40) ((off - 0x100) % 0x40)
  else match arrayAt off 0x40 8 5 with
    | some j => some (r64 (mapGet 0 c.discards (j + 1)))
    | none =>
      [(0x00, r32 (at_ ((c.identity.map Identity.manager).getD 0) 22 + at_ s.deviceNumber 12 + at_ c.role.code 8 + c.pairs.length)),
       (0x04, r32 c.epoch), (0x08, r64 c.mapStamp), (0x10, r64 c.adopt), (0x18, r32 c.gatherEpoch), (0x1C, r32 c.gathered.length),
       (0x68, r64 c.published), (0x70, r64 c.answered), (0x78, r64 c.dropped), (0x80, r64 c.adoptions), (0x88, r64 c.moved)].lookup off

/-- *EVENTS registers* (R380). -/
def State.regEvents (s : State) (off : Nat) : Option Reg :=
  match arrayAt off 0x400 4 256 with
  | some n => some (r32 (mapGet 0 s.events.raised n))
  | none =>
    if 0x1000 ≤ off ∧ off < 0x2000 ∧ off % 4 = 0 then
      let e := mapGet {} s.written.evt ((off - 0x1000) / 0x40)
      let i := (off - 0x1000) % 0x40 / 4
      if i < 8 then some (r32 (e.mask.toNat / 2 ^ (32 * i)))
      else
        let g := 2 * (i - 8)
        some (r32 (at_ (mapGet 0 e.route (g + 1)).toNat 16 + (mapGet 0 e.route g).toNat))
    else none

/-- A test runs: a production test, or a LINK_TEST past its quiesce. -/
def State.testRunning (s : State) : Bool := s.test.direct.isSome || s.test.run.any TestRun.quiesced

/-- *TEST registers* (R387). -/
def State.regTest (s : State) (off : Nat) : Option Reg :=
  let t := s.test
  match arrayAt off 0x10 4 8, arrayAt off 0x1000 4 4100 with
  | some i, _ => some (r32 (mapGet 0 s.written.testParam i).toNat)
  | _, some i => some (r32 (field t.result (4 * i) 4))
  | _, _ =>
    [(0x00, r32 0), (0x04, r32 (at_ t.code 16 + bit_ t.done 2 + bit_ t.error 1 + b2n s.testRunning))].lookup off

/-! ## The map -/

/-- The physical function's BAR0 (R389). -/
def State.regBar0 (s : State) (a : Nat) : Option Reg :=
  if a < 0x10000 then s.regGlobal a
  else if a < 0x20000 then s.regTime (a - 0x10000)
  else if a < 0x30000 then s.regFn ((a - 0x20000) / 0x400) ((a - 0x20000) % 0x400)
  else if a < 0x40000 then s.regHost (a - 0x30000)
  else if a < 0x80000 then s.regQuad ((a - 0x40000) / 0x10000) ((a - 0x40000) % 0x10000)
  else if a < 0x100000 then s.regMac ((a - 0x80000) / 0x8000) ((a - 0x80000) % 0x8000)
  else if a < 0x120000 then s.regBasin (a - 0x100000)
  else if a < 0x140000 then s.regGlen (a - 0x120000)
  else if a < 0x150000 then s.regDelta (a - 0x140000)
  else if a < 0x170000 then s.regChannel ((a - 0x150000) / 0x1000) ((a - 0x150000) % 0x1000)
  else if a < 0x180000 then none
  else if a < 0x1A0000 then s.regDram (a - 0x180000)
  else if a < 0x1B0000 then s.regGorge (a - 0x1A0000)
  else if a < 0x1C0000 then s.regPage ((a - 0x1B0000) / 0x100) ((a - 0x1B0000) % 0x100)
  else if a < 0x1D0000 then s.regTerrace (a - 0x1C0000)
  else if a < 0x1E0000 then s.regUpdate (a - 0x1D0000)
  else if a < 0x1F0000 then s.regCluster (a - 0x1E0000)
  else if a < 0x200000 then s.regEvents (a - 0x1F0000)
  else if a < 0x210000 then s.regTest (a - 0x200000)
  else none

/-- A virtual function's BAR0 (R104). -/
def State.regVirtual (s : State) (f a : Nat) : Option Reg :=
  if a < 0x400 then s.regFn f a
  else if 0x8000 ≤ a ∧ a < 0xC000 then s.regMsix f 32 (a - 0x8000)
  else if 0xC000 ≤ a then s.regPba f 32 (a - 0xC000)
  else none

/-- A doorbell page (BAR2): only of a context bound to the accessing function (R105). -/
def State.regDoorbell (s : State) (f a : Nat) : Option Reg :=
  match s.ring? (a / 0x1000) with
  | none => none
  | some r =>
    if r.fn ≠ f then none
    else [(0x00, r32 0), (0x04, r32 0), (0x08, r32 (bit_ r.held 17 + bit_ r.faulted 16 + r.fetch)),
          (0x0C, r32 (bit_ r.phase 16 + r.cqTail)), (0x10, r32 (at_ r.resume 16 + r.discard))].lookup (a % 0x1000)

/-- The admin and event doorbells and the key-page window (BAR4; R105, R284). -/
def State.regBar4 (s : State) (f a : Nat) : Option Reg :=
  let x := s.fn f
  if a < 0x20000 then
    [(0x00, r32 0), (0x04, r32 0), (0x08, r32 0), (0x10, r32 x.admin.fetch), (0x14, r32 (bit_ x.admin.phase 16 + x.admin.cqTail)),
     (0x18, r32 (bit_ x.events.phase 16 + x.events.tail)), (0x1C, r32 x.events.lost)].lookup a
  else if a < 0x30000 then
    if 0x21000 ≤ a ∧ a < 0x22000 ∧ a % 4 = 0 then some (r32 0)
    else [(0x20000, r32 (b2n x.kek.isSome)), (0x20004, r32 x.kekVersion), (0x20008, r64 x.nonce.toNat)].lookup a
  else if a < 0x40000 then
    let n := (a - 0x30000) / 0x100
    if (s.keyPage? n).any fun p => p.owner = f then s.regPage n ((a - 0x30000) % 0x100) else none
  else none

/-- A base address register: a 64-bit, non-prefetchable memory BAR (R104). -/
structure Bar where
  size     : Nat
  is64     : Bool := true
  prefetch : Bool := false

/-- *BARs per function*: BAR0, BAR2 and BAR4. -/
def barOf (f : Nat) : Nat → Option Bar
  | 0 => some { size := if f = 0 then 0x4000000 else 0x10000 }
  | 2 => some { size := 0x1000000 }
  | 4 => some { size := 0x40000 }
  | _ => none

/-- The register at an address of a BAR, if any. -/
def State.regAt (s : State) (f bar a : Nat) : Option Reg :=
  if (barOf f bar).all fun b => decide (b.size ≤ a) then none else
  match bar with
  | 0 => if f = 0 then s.regBar0 a else s.regVirtual f a
  | 2 => s.regDoorbell f a
  | 4 => s.regBar4 f a
  | _ => none

/-- The register that a word belongs to, with its own address: the upper word of a 64-bit register included. -/
def State.regWord (s : State) (f bar a : Nat) : Option (Nat × Reg) :=
  match s.regAt f bar a with
  | some r => some (a, r)
  | none =>
    if 4 ≤ a then
      match s.regAt f bar (a - 4) with
      | some r => if r.wide then some (a - 4, r) else none
      | none => none
    else none

/-- The key under which a register's latch and its waiting low half are held. -/
def regKey (f bar a : Nat) : Nat := (f * 8 + bar) * 4294967296 + a

/-! ## Accesses -/

/-- The block at an address responds in this mode (R390): GLOBAL always, TEST while TEST_MODE is high, the others from REBUILD. -/
def State.responds (s : State) (f bar a : Nat) : Bool :=
  s.mode.running || (bar = 0 && f = 0 && (decide (a < 0x10000) || (s.pins.straps.test && decide (0x200000 ≤ a ∧ a < 0x210000))))

/-- The access is aligned and of a width that its BAR takes (R5, R105, R284). -/
def accessGood (bar a width : Nat) : Bool :=
  decide (a % (max 1 width) = 0) && (if bar = 0 || (bar = 4 && decide (0x20000 ≤ a ∧ a < 0x40000)) then width = 4 || width = 8 else width = 4)

/-- Context of a bad access, for source 97. -/
def accessContext (bar a : Nat) : Nat := if bar = 2 then a / 0x1000 else 0xFFFF

/-- An access that R5 or R105 discards: counted, source 97, HOST_ERROR; before REBUILD nothing is counted (R390). -/
def State.accessBad (s : State) (f bar a value : Nat) : State :=
  if s.mode.running then s.badAccess f (accessContext bar a) (value % 4294967296) else s

/-- A 32-bit read, with the read latch of a 64-bit RO register (R391). -/
def State.readWord (s : State) (f bar a : Nat) : State × Nat :=
  match s.regWord f bar a with
  | none => (s.accessBad f bar a 0, 0)
  | some (base, r) =>
    let lo := r.value % 4294967296
    let hi := r.value / 4294967296
    if !r.wide then (s, lo)
    else if a = base then
      (if r.ro then s.updLatches fun l => mapSet l (regKey f bar base) (BitVec.ofNat 32 hi) else s, lo)
    else if r.ro then
      match mapGet? s.latches (regKey f bar base) with
      | some v => (s.updLatches fun l => mapErase l (regKey f bar base), v.toNat)
      | none => (s, hi)
    else (s, hi)

/-- A read of a register: what the host gets. -/
def State.readAccess (s : State) (f bar a width : Nat) : State × Nat :=
  if !s.responds f bar a then (s, 0)
  else if !accessGood bar a width then (s.accessBad f bar a 0, 0)
  else if width = 4 then s.readWord f bar a
  else
    match s.regAt f bar a with
    | some r =>
      if r.wide then (s, r.value)
      else
        let (s, lo) := s.readWord f bar a
        let (s, hi) := s.readWord f bar (a + 4)
        (s, lo + hi * 4294967296)
    | none =>
      if (s.regWord f bar a).isNone then (s.accessBad f bar a 0, 0)
      else
        let (s, lo) := s.readWord f bar a
        let (s, hi) := s.readWord f bar (a + 4)
        (s, lo + hi * 4294967296)

/-- LATCHING_READ: the value goes to the host. -/
def State.read (s : State) (f bar a width : Nat) : State :=
  let (s, v) := (s.fnSeen f).readAccess f bar a width
  s.emit (.read (BitVec.ofNat 64 v))

end Sys2Proof.Machine
end

