-- ==== Sys2Proof/Machine/Writes.lean ====
section
/-! DEFINITION. Register writes (R4 to R6, R106, R109, R112, R195, R205, R241, R262, R277, R284, R299, R371, R374, R379, R387,
R392, R397), doorbells among them. -/

namespace Sys2Proof.Machine

/-- A register value with only the named bits. -/
def bits32 (v mask : Nat) : BitVec 32 := BitVec.ofNat 32 (v &&& mask)

/-! ## Doorbells (R105, R109, R112) -/

/-- A data ring's submission tail. -/
def State.sqTail (s : State) (f ctx v : Nat) : State :=
  match s.ring? ctx with
  | some r => if r.fn = f then s.tailDoorbell (.data ctx) f ctx v true r.sqSize else s.badAccess f ctx v
  | none => s.badAccess f ctx v

/-- A data ring's completion head. -/
def State.cqHead (s : State) (f ctx v : Nat) : State :=
  match s.ring? ctx with
  | some r => if r.fn = f then s.headDoorbell (.data ctx) f ctx v true r else s.badAccess f ctx v
  | none => s.badAccess f ctx v

/-- The admin doorbells of a function; the ring is live while ADM_EN is 1. -/
def State.adminTail (s : State) (f v : Nat) : State :=
  let x := s.fn f
  s.tailDoorbell (.admin f) f 0xFFFF v (x.ctrl.getLsbD 0) x.admin.sqSize
def State.adminHead (s : State) (f v : Nat) : State :=
  let x := s.fn f
  s.headDoorbell (.admin f) f 0xFFFF v (x.ctrl.getLsbD 0) x.admin

/-! ## Function pages (R106, R107) -/

/-- FN_CTRL. -/
def State.fnCtrl (s : State) (f v : Nat) : State :=
  let adm := (s.fn f).ctrl.getLsbD 0
  let s := if bitOf v 0 && !adm then s.admEnable f else if !bitOf v 0 && adm then s.admDisable f else s
  let evt := (s.fn f).ctrl.getLsbD 1
  if bitOf v 1 && !evt then s.evtEnable f else if !bitOf v 1 && evt then s.evtDisable f else s

/-- A base or CFG write is accepted while the enable bit that covers it is 0, else discarded with CFG_CODE 5. -/
def State.fnSetup (s : State) (f bit : Nat) (g : Fn → Fn) : State :=
  if (s.fn f).ctrl.getLsbD bit then s.updFn f fun x => { x with cfgCode := 5 } else s.updFn f g

/-- The 32-bit registers of a function page. -/
def State.fnWord (s : State) (f off v : Nat) : State :=
  if off = 0 then s.fnCtrl f v
  else if off = 0x18 then s.fnSetup f 0 fun x => { x with admCfg := bits32 v 0x07FF0F0F }
  else if off = 0x28 then s.fnSetup f 1 fun x => { x with evtCfg := bits32 v 0x07FF000F }
  else s

/-- The 64-bit registers of a function page. -/
def State.fnWide (s : State) (f off v : Nat) : State :=
  let b : BitVec 64 := BitVec.ofNat 64 (v / 4096 * 4096)
  if off = 0x08 then s.fnSetup f 0 fun x => { x with sqBase := b }
  else if off = 0x10 then s.fnSetup f 0 fun x => { x with cqBase := b }
  else if off = 0x20 then s.fnSetup f 1 fun x => { x with evtBase := b }
  else s

/-- A word of the MSI-X table (R115). -/
def State.msixWord (s : State) (f off v : Nat) : State :=
  let n := off / 16
  let e := (s.fn f).msixEntry n
  let put (e : BitVec 64 × BitVec 32 × BitVec 32) : State := 
    s.updFn f fun x => { x with pci := { x.pci with msixEnable := true }, msix := mapSet x.msix n e }
  let old := e.1.toNat
  match off % 16 with
  | 0 => put (BitVec.ofNat 64 (old / 4294967296 * 4294967296 + v), e.2.1, e.2.2)
  | 4 => put (BitVec.ofNat 64 (v * 4294967296 + old % 4294967296), e.2.1, e.2.2)
  | 8 => put (e.1, BitVec.ofNat 32 v, e.2.2)
  | _ => if bitOf v 0 then put (e.1, e.2.1, e.2.2 ||| 1#32) else s.unmask f n

/-! ## The blocks -/

/-- HOST beyond the function pages. -/
def State.hostWord (s : State) (a v : Nat) : State :=
  if a < 0x8000 then s.msixWord 0 a v
  else if a = 0x9000 then s.updWritten fun w => { w with power := bits32 v 0x311 }
  else if a = 0x9100 then
    if v % 8192 ≤ 4159 then s.updWritten fun w => { w with ctxSelect := v % 8192 } else s.accessBad 0 0 a v
  else s

/-- BASIN (R186, R195). -/
def State.basinWord (s : State) (a v : Nat) : State :=
  let n := v % 2097152
  if a = 0 then (if bitOf v 0 then s.basinSave else s)
  else if a = 8 then s.updWritten fun w => { w with rxReserve := min n (s.pool 3).count }
  else if a = 0xC then s.updWritten fun w => { w with fetchReserve := min n (s.pool 0).count }
  else if 0x100 ≤ a then
    let p := (a - 0x100) / 0x40
    let off := (a - 0x100) % 0x40
    if off = 8 then s.updWritten fun w => { w with poolLow := mapSet w.poolLow p (min n (s.pool p).count) }
    else if off = 0x30 then s.updPool p fun x => { x with next := v % 128 }
    else s
  else s

/-- RULE_OP starts an operation: a management-path request of class P6 (R205). -/
def State.ruleStart (s : State) (op : Nat) : State :=
  if op = 0 then s
  else (s.updGlen fun g => { g with busy := true, port := { g.port with op := BitVec.ofNat 2 op } }).updCol fun c =>
    { c with intake := c.intake ++ [.ruleOp op] }

/-- A write to a rule-port register while BUSY: discarded, counted, reported with CODE 6 (R205). -/
def State.ruleBusy (s : State) (a v : Nat) : State := (s.updGlen fun g => { g with busyWrite := true }).accessBad 0 0 a v

/-- The rule port. -/
def State.rulePort (s : State) (a v : Nat) : State :=
  if s.glen.busy then s.ruleBusy a v
  else
    let put (f : RulePort → RulePort) : State := s.updGlen fun g => { g with port := f g.port }
    match a with
    | 0x100 => s.ruleStart (v % 4)
    | 0x110 => put fun p => { p with target := bits32 v 0xFFFF0001 }
    | 0x114 => put fun p => { p with match_ := bits32 v 0xFFFCFFFF }
    | 0x118 => put fun p => { p with priority := BitVec.ofNat 16 v }
    | 0x11C => put fun p => { p with result := BitVec.ofNat 32 v }
    | _ => if 0x120 ≤ a then put fun p => { p with prefix_ := mapSet p.prefix_ ((a - 0x120) / 4) (BitVec.ofNat 32 v) } else s

/-- GLEN (R198, R205, R207). -/
def State.glenWord (s : State) (a v : Nat) : State :=
  if a < 0x80 then
    s.updGlen fun g => { g with next := ((List.range 32).map g.nextBank).set (a / 4) (v / 4096 % 4, v / 1024 % 4) }
  else if a = 0x80 then (if bitOf v 0 then s.glenSave else s)
  else if a = 0x88 then s.updWritten fun w => { w with holeLog := v % 16 }
  else if 0x100 ≤ a then s.rulePort a v
  else s

/-- DELTA (R241, R262). -/
def State.deltaWord (s : State) (a v : Nat) : State :=
  match a with
  | 0x18 => s.updWritten fun w => { w with gcCtrl := bits32 v 0xB }
  | 0x1C => s.updWritten fun w => { w with slcCtrl := bits32 v 0x8001FFFF }
  | 0x20 => if 1 ≤ v % 64 ∧ v % 64 ≤ 60 then s.updWritten fun w => { w with patrol := v % 64 } else s
  | 0x84 => if 16 ≤ v % 256 ∧ v % 256 ≤ 200 then s.updWritten fun w => { w with refresh := v % 256 } else s
  | _ => s

/-- NFC_CH[c] (R237, R242). -/
def State.channelWord (s : State) (c a v : Nat) : State :=
  match arrayAt a 0x10 4 16 with
  | some d => s.updWritten fun w => { w with dieRetry := mapSet w.dieRetry (dieKey c d) (bits32 v 0xF000) }
  | none => s

/-- DRAM (R277). -/
def State.dramWord (s : State) (a v : Nat) : State :=
  match a with
  | 0x08 => if v % 256 = 0 then s else s.updWritten fun w => { w with remap := v % 256 }
  | 0x0C => if 2 ≤ v % 128 ∧ v % 128 ≤ 64 then s.updWritten fun w => { w with device := v % 128 } else s
  | 0x10 => if v % 256 ≤ 168 then s.updWritten fun w => { w with scrub := v % 256 } else s
  | _ => s

/-- UPDATE (R371, R374). -/
def State.updateWord (s : State) (a v : Nat) : State :=
  if a = 4 then
    if 60 ≤ v % 131072 ∧ v % 131072 ≤ 86400 then s.updWritten fun w => { w with window := v % 131072 } else s
  else if a = 0x18 then (if bitOf v 0 then s.lockSubmit else s)
  else match arrayAt a 0x100 4 36 with
    | some i =>
      if s.update.lockBusy then s.updUpdate fun u => { u with busyWrite := true }
      else s.updUpdate fun u => { u with token := mapSet u.token i (BitVec.ofNat 32 v) }
    | none => s

/-- A word of a function's MASK. -/
def maskWord (m : BitVec 256) (i v : Nat) : BitVec 256 :=
  (m &&& ~~~(BitVec.ofNat 256 (4294967295 * 2 ^ (32 * i)))) ||| BitVec.ofNat 256 (v * 2 ^ (32 * i))

/-- EVENTS (R379, R380). -/
def State.eventsWord (s : State) (a v : Nat) : State :=
  if a < 0x1000 then s
  else
    let f := (a - 0x1000) / 0x40
    let i := (a - 0x1000) % 0x40 / 4
    let put (g : EventFn → EventFn) : State := s.updWritten fun w => { w with evt := mapUpd {} w.evt f g }
    if i < 8 then put fun e => { e with mask := maskWord e.mask i v }
    else if f ≠ 0 ∧ (31 < v % 2048 ∨ 31 < v / 65536 % 2048) then s.accessBad 0 0 (0x1F0000 + a) v
    else
      let g := 2 * (i - 8)
      put fun e => { e with
        route := mapSet (mapSet e.route g (BitVec.ofNat 16 (v % 65536 &&& 0x87FF))) (g + 1) (BitVec.ofNat 16 (v / 65536 &&& 0x87FF)) }

/-- TEST (R387): STOP ends the running test, then START starts one. -/
def State.testWord (s : State) (a v : Nat) : State :=
  if a = 0 then
    if !s.pins.straps.test then s
    else
      let s := if bitOf v 1 then s.testStopWritten else s
      if bitOf v 0 then s.testStart else s
  else match arrayAt a 0x10 4 8 with
    | some i => s.updWritten fun w => { w with testParam := mapSet w.testParam i (BitVec.ofNat 32 v) }
    | none => s

/-- A 32-bit register of the physical function's BAR0. -/
def State.bar0Word (s : State) (a v : Nat) : State :=
  if a < 0x20000 then s
  else if a < 0x30000 then s.fnWord 0 (a - 0x20000) v
  else if a < 0x40000 then s.hostWord (a - 0x30000) v
  else if a < 0x100000 then s
  else if a < 0x120000 then s.basinWord (a - 0x100000) v
  else if a < 0x140000 then s.glenWord (a - 0x120000) v
  else if a < 0x150000 then s.deltaWord (a - 0x140000) v
  else if a < 0x170000 then s.channelWord ((a - 0x150000) / 0x1000) ((a - 0x150000) % 0x1000) v
  else if a < 0x180000 then s
  else if a < 0x1A0000 then s.dramWord (a - 0x180000) v
  else if a < 0x1D0000 then s
  else if a < 0x1E0000 then s.updateWord (a - 0x1D0000) v
  else if a < 0x1F0000 then s
  else if a < 0x200000 then s.eventsWord (a - 0x1F0000) v
  else if a < 0x210000 then s.testWord (a - 0x200000) v
  else s

/-- BAR4 (R105, R284, R299). -/
def State.bar4Word (s : State) (f a v : Nat) : State :=
  if a = 0 then s.adminTail f v
  else if a = 4 then s.adminHead f v
  else if a = 8 then s.eventHead f v
  else if 0x21000 ≤ a ∧ a < 0x22000 then
    s.updFn f fun x => { x with stage := patch (padTo 4096 x.stage) (a - 0x21000) (leBytes 4 v) }
  else if 0x30000 ≤ a ∧ (a - 0x30000) % 0x100 = 8 then s.setLimit ((a - 0x30000) / 0x100) (v % 64)
  else s

/-- A write to an existing 32-bit register. -/
def State.writeReg (s : State) (f bar a v : Nat) : State :=
  match bar with
  | 0 => if f = 0 then s.bar0Word a v else if a < 0x400 then s.fnWord f a v else if a < 0xC000 then s.msixWord f (a - 0x8000) v else s
  | 2 => if a % 0x1000 = 0 then s.sqTail f (a / 0x1000) v else if a % 0x1000 = 4 then s.cqHead f (a / 0x1000) v else s
  | _ => s.bar4Word f a v

/-- A 64-bit RW register takes a whole value: the bases of a function page. -/
def State.writeWide (s : State) (f a v : Nat) : State := s.fnWide f (if f = 0 then a - 0x20000 else a) v

/-- The image of another function's page in the physical function's view: read-only, writes counted under R5 (R104). -/
def imageOf (f bar a : Nat) : Bool := f = 0 && bar = 0 && decide (0x20400 ≤ a ∧ a < 0x30000)

/-- A 32-bit write (R5, R6, R392). -/
def State.writeWord (s : State) (f bar a v : Nat) : State :=
  match s.regWord f bar a with
  | none => s.accessBad f bar a v
  | some (base, r) =>
    if imageOf f bar a then s.accessBad f bar a v
    else if !r.wide then s.writeReg f bar a v
    else if r.ro then s
    else if a = base then s.updLows fun l => mapSet l (regKey f bar base) (BitVec.ofNat 32 v)
    else
      let lo := ((mapGet? s.lows (regKey f bar base)).map BitVec.toNat).getD (r.value % 4294967296)
      (s.updLows fun l => mapErase l (regKey f bar base)).writeWide f base (v * 4294967296 + lo)

/-- A write of a register block's address: what the host sends, of 4 or 8 bytes. DESIGN CHOICE (log entry 114): of an 8-byte access with one
half unimplemented, R5 does not say what becomes of the other half; here a missing low half discards the whole, and a missing high half is
counted as a bad access of its own while the low half takes effect. -/
def State.writeAccess (s : State) (f bar a width v : Nat) : State :=
  if !s.responds f bar a then s
  else if !accessGood bar a width then s.accessBad f bar a v
  else if width = 4 then s.writeWord f bar a (v % 4294967296)
  else if imageOf f bar a || (s.regWord f bar a).isNone then s.accessBad f bar a v
  else
    match s.regAt f bar a with
    | some r =>
      if r.wide then
        if r.ro then s else (s.updLows fun l => mapErase l (regKey f bar a)).writeWide f a v
      else (s.writeWord f bar a (v % 4294967296)).writeWord f bar (a + 4) (v / 4294967296)
    | none => (s.writeWord f bar a (v % 4294967296)).writeWord f bar (a + 4) (v / 4294967296)

/-- REGISTER_WRITE. -/
def State.write (s : State) (f bar a width v : Nat) : State := (s.fnSeen f).writeAccess f bar a width v

end Sys2Proof.Machine
end

