-- ==== Sys2Proof/Machine/Col.lean ====
section
/-! DEFINITION. Col: the order of a grain's events (R31 to R33, R36), what each event does at its stamp, commands at their stamp
(R43, R79, R88, R94), the end of a grain (R115, R380, R392), and what every command of the outside world runs through. -/

namespace Sys2Proof.Machine

/-! ## Order within a grain (R31, R32) -/

/-- Context and position of the command that an internal completion serves (R31 class P1); internal requesters come after. -/
def State.placeRank (s : State) (id : Stamp) : List Nat :=
  match s.work? id with
  | some w => [carrierRank w.carrier, s.position w.carrier w.pos]
  | none => [5000]

/-- Class and place of the command that a request serves (R32): a write's P2, a read's or another's P3. -/
def State.requestRank (s : State) (id : Stamp) : List Nat :=
  (if (s.work? id).any fun w => isWriteOp w.op then 2 else 3) :: s.placeRank id

/-- The write that waits for a page of a segment, by its stamp, the lowest first. -/
def State.pageFor (s : State) (seg : Nat) : Option Stamp :=
  (s.works.find? fun w => w.phase = .media && isWriteOp w.op && w.items.any fun i => i.loc.any fun l => l.segment = seg).map Work.stamp

/-- Internal requester of a segment's stream that has no write waiting (R32): checkpoints' stream 5, GC's others. -/
def State.pageRank (s : State) (seg : Nat) : List Nat :=
  match s.pageFor seg with
  | some id => s.requestRank id
  | none => [2, 5000, if (s.segment? seg).any fun g => g.stream = 5 then 0 else 1]

/-- Place of a completion that a die gives: that of the command it reads for. -/
def State.dieRank (s : State) (channel die : Nat) : List Nat :=
  match mapGet? s.delta.running (dieKey channel die) with
  | some (.read id) => s.placeRank id
  | _ => [5000, 1]

/-- Place of a step's completion: after all contexts, in the order of the internal requesters. -/
def State.stepRank (s : State) (id : Nat) : List Nat := [5000, 2 + ((s.step? id).map fun k => k.step.rank).getD 7]

/-- Class and order of a command (R31): writes, reads, FLUSH, ABORT with NOP, admin commands, QUEUE_RESET with the resets. -/
def State.cmdRank (s : State) (a : Arrival) : List Nat :=
  let op := a.c.desc.opcode.toNat
  let pos := s.position a.c.carrier a.pos
  match a.c.carrier with
  | .admin f => if op = 0x82 then [0, 3, a.c.desc.param 0x20 2, 4096 + f, pos] else [6, 0, f, pos]
  | .mgmt => [6, 2]
  | c =>
    let wire := match c with | .wire _ _ => true | _ => false
    if isWriteOp op then [2, carrierRank c, pos]
    else if isReadOp op then [3, carrierRank c, pos]
    else if op = 0x20 then [4, carrierRank c, pos]
    else if wire && isAdminOp op then [6, 1, carrierRank c, pos]
    else [5, carrierRank c, pos]

/-- Rank of an event in its grain (R31, R32, R260). -/
def State.rank (s : State) : Event → List Nat
  | .cmd a => s.cmdRank a
  | .powerFail => [0, 0]
  | .deviceReset _ => [0, 1]
  | .flr f _ _ => [0, 2, f]
  | .sessionReset n _ => [0, 3, n]
  | .journal id => 1 :: s.placeRank id
  | .firstByte id => 1 :: s.placeRank id
  | .dmaDone id _ => 1 :: s.placeRank id
  | .programDone slot => [1, 5000, if slot = 65 then 0 else 1]
  | .programFail _ _ => [1, 5000, 1]
  | .eraseDone _ _ _ => [1, 5000, 1]
  | .eraseFail _ _ _ => [1, 5000, 1]
  | .mediaRead c d _ => 1 :: s.dieRank c d
  | .xorDone id => 1 :: s.placeRank id
  | .stepDone id => 1 :: s.stepRank id
  | .peerAck _ => [1, 5000, 5]
  | .proposeAnswer _ _ => [1, 5000, 5]
  | .markAnswer _ => [1, 5000, 5]
  | .release _ o place => if o.cls = 2 then [1, o.number, place] else [1, 5000, 9]
  | .bufRequest id => s.requestRank id
  | .pageRequest seg => s.pageRank seg
  | .step k _ => [2, 5000, k.rank]
  | .prepared => 1 :: (s.update.active.map s.placeRank).getD [5000]
  | .seal _ _ _ _ => [1, 6000]
  | .ruleOp _ => [6, 2]
  | .lockSubmit => [6, 2]
  | .mapAdopt _ => [6, 2]
  | .timeout id => 7 :: 0 :: s.placeRank id
  | .calEnd w => [7, 1, w, 0]
  | .calStart w => [7, 1, w, 1]
  | .idle p => [7, 2, p]
  | .trial => [7, 3]
  | .checkpoint _ => [7, 4, 0]
  | .patrolRate => [7, 4, 1]
  | .patrolEnd => [7, 4, 2]
  | .patrolReread seg channel _ => [7, 4, 3, seg, channel]
  | .sweep => [7, 4, 4]

/-- Events that arise at a stamp and are stamped in the same grain: the sealing of R260, the edges of R99. -/
def Event.sameGrain : Event → Bool
  | .seal _ _ _ _ => true
  | .calEnd _ => true
  | .calStart _ => true
  | _ => false

/-! ## Commands at their stamp -/

/-- An admin command executes (R94, R362). -/
def State.adminRun (s : State) (w : Work) : State :=
  match w.op with
  | 0x80 => s.queueCreate w
  | 0x81 => s.queueDelete w
  | 0x82 => s.queueReset w
  | 0x88 => s.namespaceSet w
  | 0x89 => if s.update.active.isSome then s.busy w 1 else s.namespaceDelete w
  | 0x90 => s.keyPageLoad w
  | 0x91 => s.keyPageRetire w
  | 0x98 => s.sessionOpen w
  | 0x99 => s.sessionClose w
  | 0xA0 => s.healthGet w
  | 0xA1 => s.timeGet w
  | 0xA2 => s.scheduleSet w
  | 0xA3 => s.holdSet w
  | 0xA4 => s.holdRelease w
  | 0xA5 => s.timeSet w
  | 0xA8 => s.recordRead w
  | 0xA9 => s.recordClear w
  | 0xB0 => s.fwDownload w
  | 0xB1 => s.fwActivate w
  | 0xB2 => s.fwStatus w
  | 0xB3 => s.fwConfirm w
  | 0xB8 => s.roleSet w
  | 0xB9 => s.mapSetCmd w
  | 0xBA => s.pairStart w
  | 0xBB => s.pairEnd w
  | 0xC0 => s.linkTest w
  | 0xC1 => s.identify w
  | 0xC2 => s.portSet w
  | _ => s.fails w (badField 0)

/-- An admin command at its stamp: the checks in R43's order, ORDERED on a session (R88), then its meaning. -/
def State.adminCmd (s : State) (w : Work) : State :=
  match s.adminFail w.sub with
  | some f => s.fails w f
  | none =>
  if s.orderHeld w then s.addWork { w with phase := .ordered, left := 2 }
  else s.adminRun w

/-- A data command that has passed its checks begins: a pair message acts on its pair (R311), the others go to the gate. -/
def State.beginData (s : State) (w : Work) : State :=
  match s.peerPair w.carrier with
  | some p => if w.op = 0x22 && !s.orderHeld w then s.targetMessage w p else s.startData w
  | none => s.startData w

/-- A data command that has passed its checks (R314, R316, R362). -/
def State.dataCmd (s : State) (w : Work) : State :=
  if w.op = 0x13 ∧ s.update.active.isSome then s.busy w 1
  else if s.cutHolds w then s.addWork { w with phase := .ordered, left := 1 }
  else (s.addWork w).beginData w

/-- A command that a check refuses (R79). -/
def State.refused (s : State) (w : Work) (r : Refused) : State :=
  if r.unstamped then s.answerUnstamped w r.status r.detail
  else s.deliver w { status := r.status, commit := w.stamp, detail := r.detail, version := r.version }

/-- The buffers of an arrival move to its command (R187): those of the fetched descriptor, or of the request message. -/
def State.takeIn (s : State) (a : Arrival) : State × List Handle :=
  match a.c.carrier with
  | .wire n q =>
    match s.session? n with
    | none => (s, [])
    | some x =>
      let hs := ((x.messages.filter fun m => m.seqNo = q).map Message.handles).flatten
      let s := hs.foldl (fun s h => s.transfer h { cls := 0, number := x.params.port } { cls := 2, number := n }) s
      (s.updSession n fun x => { x with stamped := inc64 x.stamped, messages := x.messages.filter fun m => m.seqNo != q }, hs)
  | c =>
    let n := c.number.getD 0
    (a.hs.foldl (fun s h => s.transfer h { cls := 1, number := n } { cls := 2, number := n }) s, a.hs)

/-- Whether the queue context, or session, of an arrival still stands. -/
def State.stands (s : State) : Carrier → Bool
  | .ring n => (s.ring? n).isSome
  | .wire n _ => (s.session? n).isSome
  | _ => true

/-- A command at its stamp: the checks in the order of R43, then its execution. -/
def State.cmdApply (s : State) (a : Arrival) (st : Stamp) : State :=
  let c := a.c
  let fn := s.actsFor c.carrier
  let (s, hs) := s.takeIn a
  let held (w : Work) : Work := { w with pos := a.pos, handles := hs, dropped := a.dropped, muted := a.muted, exit := s.host.power != 0 }
  let w := held (c.work fn st .admin)
  if !s.stands c.carrier then s.queueRelease hs c.carrier.owner (s.position c.carrier a.pos)
  else
    match s.firstChecks c fn st with
    | (s, some r) => s.refused w r
    | (s, none) =>
      if isAdminOp c.desc.opcode.toNat then s.adminCmd w
      else
        match s.dataChecks c fn st with
        | (s, .error r) => s.refused w r
        | (s, .ok w) => s.dataCmd (held w)

/-! ## Events at their stamp -/

/-- A calendar window's start edge (R38, R39). -/
def State.calendarStart (s : State) (w : Nat) (st : Stamp) : State :=
  let g := grainOf st
  let x := mapGet {} s.time.windows w
  if s.time.isSet ∧ x.startDue g then
    let s := s.updTime fun t => { t with windows := mapSet t.windows w { x with started := x.lastEdge g + 1 } }
    if x.hold then s.calendarHold w st else s
  else s

/-- A calendar window's end edge (R38). -/
def State.calendarEnd (s : State) (w : Nat) (st : Stamp) : State :=
  let x := mapGet {} s.time.windows w
  if s.time.isSet ∧ x.endDue (grainOf st) then
    s.updTime fun t => { t with windows := mapSet t.windows w { x with ended := x.lastEnd (grainOf st) + 1, endOwed := false } }
  else s

/-- An event's effect at its stamp. -/
def State.applyEvent (s : State) (e : Event) (st : Stamp) : State :=
  match e with
  | .cmd a => s.cmdApply a st
  | .powerFail => s.powerFailApply st
  | .flr f cause last => if cause.all then s.flrOfAll f cause last st else s.flrApply f st
  | .sessionReset n cause => s.closeSession n cause st none
  | .journal id => s.journalApply id
  | .firstByte id => (s.firstByteApply id).firstSegment id (s.work? id)
  | .dmaDone id r => s.dmaApply id r
  | .programDone slot => s.programApply slot st
  | .programFail slot channel => s.programFailApply slot channel
  | .eraseFail c d b => s.eraseFailApply c d b
  | .deviceReset rom => s.warmRestart rom
  | .mediaRead c d o => s.readDone c d o
  | .xorDone id => s.xorRebuild id
  | .eraseDone c d b => s.eraseDone c d b
  | .stepDone id => s.stepDoneApply id
  | .peerAck f => s.peerReceive f
  | .proposeAnswer p r => s.proposeAnswer p r
  | .markAnswer p => s.markAnswer p
  | .bufRequest id => s.bufRequestApply id st
  | .pageRequest seg => s.pageRequestApply seg st
  | .step k reads => s.stepRequest k reads st
  | .release h o _ => s.freeBuffer h o
  | .prepared => s.preparedApply
  | .seal c d b seg => (s.sealApply c d b seg st).sealedEntry
  | .ruleOp op => s.ruleApply op st
  | .lockSubmit => s.lockApply st
  | .mapAdopt epoch => s.mapAdopt epoch st
  | .timeout id => s.timeoutApply id
  | .calEnd w => s.calendarEnd w st
  | .calStart w => s.calendarStart w st
  | .idle p => s.idleApply p st
  | .trial => s.trialApply
  | .checkpoint lines => s.checkpointApply lines
  | .patrolRate => s.patrolRateUpdate
  | .patrolEnd => s.patrolCycleEnd
  | .patrolReread seg channel reads => if s.rereadDue seg channel then s.arrive (.step (.patrolAgain seg channel reads) []) else s
  | .sweep => s.sweep.backgroundDrops

/-! ## What the end of a step settles -/

/-- The device is supplied: no power-fail flush has run. -/
def State.powered (s : State) : Bool := !s.pins.pwrFail
/-- The time counter, Col and the datapath run. -/
def State.clocked (s : State) : Bool := s.powered && s.time.running
/-- The firmware runs. -/
def State.cored (s : State) : Bool := s.powered && s.mode.running

/-- A command that a cutover holds (R314, R316): refused with what the check now says, or started. -/
def State.cutSettle (s : State) (w : Work) : State :=
  if s.cutHolds w then s
  else
    match s.sliceCheck w.sub (parse w.sub) (grainOf w.stamp) with
    | some r => s.refused w r
    | none => (s.updWork w.stamp fun w => { w with left := 0 }).beginData { w with left := 0 }

/-- A command held back outside the gate goes on when what held it has ended: a cutover, or an ORDERED predecessor (R88). -/
def State.releaseHeld (s : State) (st : Stamp) : State :=
  match s.work? st with
  | none => s
  | some w =>
    if w.phase ≠ .ordered then s
    else if w.left = 1 then s.cutSettle w
    else if w.left = 2 && !s.orderHeld w then
      if isAdminOp w.op then (s.dropWork st).adminRun w
      else (s.updWork st fun w => { w with left := 0 }).beginData { w with left := 0 }
    else s

/-- What follows of itself once a command or an event has had its effect: completions that waited for others, held commands, writes
that wait for room, the lost-record list, pairs, a link test's start, the fetch hold. -/
def State.finish (s : State) : State :=
  if !s.clocked then s
  else
    let s := s.settle
    let s := (s.works.map Work.stamp).foldl State.releaseHeld s
    (s.retryPlaces.lostSweep.pairSettle.testStarts).fetchHoldUpdate.holdRings.diesTake

/-! ## The edge of a grain -/

/-- Inserts the events that belong to the grain in progress, at their rank. -/
def State.mergeNew (s : State) (l : List (List Nat × Event)) : State × List (List Nat × Event) :=
  let new := s.col.intake.filter Event.sameGrain
  (s.updCol fun c => { c with intake := c.intake.filter fun e => !e.sameGrain },
   new.foldl (fun l e => insertBy (fun a b => rankLe a.1 b.1) (s.rank e, e) l) l)

/-- Stamps and applies events in order while slots last; answers those that carry over. A power-fail notice ends the grain. -/
def State.stampAll (grain : Nat) : Nat → State → List (List Nat × Event) → State × List Event
  | _, s, [] => (s, [])
  | 0, s, l => (s, l.map Prod.snd)
  | left + 1, s, (_, e) :: rest =>
    if s.pins.pwrFail then (s, [])
    else
      let st := stampOf grain (Config.slotsPerGrain - (left + 1))
      let s := (s.updCol fun c => { c with last := st }).applyEvent e st
      let (s, rest) := s.mergeNew rest
      State.stampAll grain left s rest

/-- Counts carried events, with source 22 at most once per 1,000 grains (R33). -/
def State.countCarry (s : State) (n : Nat) : State :=
  if n = 0 then s
  else
    let s := (s.updTime fun t => { t with carried := satAdd max64 t.carried n }).updCol fun c => { c with carriedSince := c.carriedSince + n }
    if s.col.carriedOnce && decide (s.grain < s.col.carriedGrain + 1000) then s
    else
      let k := s.col.carriedSince
      (s.updCol fun c => { c with carriedSince := 0, carriedGrain := s.grain, carriedOnce := true }).raise 22 0 0 0x104
        (eventData [(4, min max32 k)])

/-- The events of the grain in the order of their stamps: carried ones first, then by rank (R31, R33). -/
def State.ordered (s : State) : List (List Nat × Event) :=
  (s.col.carry.map fun e => (([] : List Nat), e)) ++
    sortBy (fun a b => rankLe a.1 b.1) (s.col.intake.map fun e => (s.rank e, e))

/-- A command waits for the gate's backlog. -/
def State.gateHeld (s : State) : Bool := s.works.any fun w => w.phase = .ordered && w.left = 0

/-- GATE_STALLS counts the grain where the full backlog stopped admission in it (R211). -/
def State.stallCount (s : State) : State :=
  if s.glen.stalled || s.gateHeld then s.updGlen fun g => { g with stalls := inc64 g.stalls, stalled := false } else s

/-- What the end of a grain brings: entries and messages are posted, settings take effect, space is counted, buffers and segments go
back. -/
def State.closeGrain (s : State) : State :=
  if !s.clocked then s
  else
    let s := s.finish.postRaises.sendMsix
    ((s.updInForce fun _ => s.written).limitsForce).stallCount.spaceUpdate.reap.releasePages.fetchHoldUpdate

/-- The time counter runs on, edge by edge of the time clock, into a grain (R11, R30). -/
def State.runTo (s : State) (grain : Nat) : State :=
  s.updTime fun t =>
    let n := edgesTo t.counter t.increment (grain * Config.grainUnit)
    { t with counter := t.counter + n * max 1 t.increment, edges := t.edges + n }

/-- The edge that ends a grain: the counter runs into the next one, and a forward step that is due takes place there (R21, R22). -/
def State.passEdge (s : State) (g : Nat) : State :=
  let s := s.runTo (g + 1)
  if s.mode.running then s.applyStep g else s

/-- The edge of a grain: everything at the intake is stamped and has its effect, and the grain ends: the counter reaches the next. -/
def State.grainEdge (s : State) : State :=
  let l := s.ordered
  let g := s.grain
  let s := s.updCol fun c => { c with intake := [], carry := [] }
  let (s, late) := State.stampAll g Config.slotsPerGrain s l
  (((s.updCol fun c => { c with carry := late }).countCarry late.length).closeGrain).passEdge g

/-- A bound of the grain that the next edge leads to: a grain number has 52 bits (R30). -/
def State.nextGrain (s : State) : Nat := s.grain + 1 + ((s.time.stepDue.getD 0).toNat + 999) / 1000

/-- Further grains pass: edge by edge while anything waits for a stamp, then all at once. -/
def State.idleGrains (s : State) : Nat → State
  | 0 => s
  | n + 1 =>
    if s.quiet && !s.gateHeld then s.runTo (s.grain + n + 1)
    else s.grainEdge.idleGrains n

/-! ## How a command of the outside world runs -/

/-- The state that an effect leaves, with the queue as the step left it: no effect reaches the queue of waiting commands. -/
def State.keepQueue (s t : State) : State := t.setPending s.pending

/-- A command acts where its condition holds, and has no effect otherwise. -/
def State.act (s : State) (ok : Bool) (f : State → State) : Host.Outcome State Fault Refusal :=
  .next (if ok then s.keepQueue (f s).finish else s)

/-- A command whose arrival Col stamps: it acts where its condition holds; the grain's edge follows at once, or comes later. A grain
number has 52 bits. -/
def State.stamped (s : State) (ok edge : Bool) (f : State → State) : Host.Outcome State Fault Refusal :=
  if !ok then .next s
  else if !edge then .next (s.keepQueue (f s).finish)
  else if Config.maxGrain ≤ s.nextGrain then .fault .grainNumberExhausted
  else .next (s.keepQueue (f s).grainEdge)

/-! ## Fetching and submission (R108 to R114, R138, R339) -/

/-- A ring may be fetched from (R110, R114, R121, R194). -/
def State.mayFetch (s : State) : RingId → Bool
  | .data n => match s.ring? n with
    | none => false
    | some r => s.fetchesData && !r.faulted && !(s.fn r.fn).d3hot && r.room && s.host.fetchHold.isNone
  | .admin f =>
    (s.ringOf (.admin f)).isSome && s.fetchesAdmin && !(s.fn f).admFault && !(s.fn f).d3hot && (s.fn f).admin.room

/-- One descriptor of a ring is fetched, with its pool 0 buffer, and reaches Col's intake (R110, R185, R191); an exit from a power state
has begun with its doorbell, or begins (R124). -/
def State.fetchOne (s : State) (id : RingId) (c : Submission) : State :=
  match s.ringOf id with
  | none => s
  | some r =>
    let admin := match id with | .admin _ => true | _ => false
    if !s.mayFetch id then s
    else
      match s.fetchDraw admin { cls := 1, number := c.carrier.number.getD 0 } with
      | (s, none) => s
      | (s, some h) =>
        let next := (r.fetch + 1) % r.sqLen
        let s := s.updRingOf id fun r =>
          { r with fetch := next, tail := if r.tail = r.fetch then next else r.tail, position := r.position + 1, fetched := r.fetched + 1 }
        let s := (s.writeBuffer h { cls := 1, number := c.carrier.number.getD 0 } 0 c.desc.bytes).1
        (s.arrive (.cmd { c := c, pos := r.position, hs := [h] })).beginExit.fetchHoldUpdate

/-- Rings with pending entries that may be fetched from. -/
def State.pendingRings (s : State) : List RingId :=
  ((s.host.rings.map fun e => RingId.data e.1) ++ s.host.fns.map fun e => RingId.admin e.1).filter fun id =>
    s.mayFetch id && (s.ringOf id).any fun r => decide (0 < r.waiting)

/-- How far round from the ring of the last turn a ring stands. DESIGN CHOICE: the round goes by ring number (log entry 125). -/
def State.turnOf (s : State) (id : RingId) : Nat := (ringNumber id + 8191 - s.host.turn) % 8192

/-- It is a ring's turn: no other ring with pending entries stands before it in the round (R110). -/
def State.takesTurn (s : State) (id : RingId) : Bool := s.pendingRings.all fun o => decide (s.turnOf id ≤ s.turnOf o)

/-- A ring's turn passes. -/
def State.turnTaken (s : State) (id : RingId) : State := s.updHost fun h => { h with turn := ringNumber id }

/-- A ring's turn: its published entries are fetched, at most 8 in a row and none across the wrap (R110). -/
def State.fetchRing (s : State) (id : RingId) (carrier : Carrier) (entries : List (BitVec 512 × Area)) : State :=
  match s.ringOf id with
  | none => s
  | some r =>
    let n := min (min 8 r.waiting) (r.sqLen - r.fetch)
    if !s.mayFetch id || !s.takesTurn id || (entries.take n).isEmpty then s
    else
      ((entries.take n).foldl (fun s (w, a) =>
        s.fetchOne id { carrier := carrier, desc := Descriptor.ofWord w, area := a }) s).turnTaken id

/-- A command published and fetched in a turn of its ring. -/
def State.fetchAlone (s : State) (id : RingId) (c : Submission) : State :=
  if s.mayFetch id && s.takesTurn id then (s.fetchOne id c).turnTaken id else s

/-- A descriptor fetch fails (R114). -/
def State.fetchFailure (s : State) (id : RingId) (status : Nat) : State :=
  match s.ringOf id with
  | none => s
  | some r =>
    if !s.mayFetch id ∨ r.waiting = 0 then s
    else
      let (fn, ctx) := match id with
        | .data n => (r.fn, n)
        | .admin f => (f, 0xFFFF)
      let s := match id with
        | .data n => s.updRing n fun r => { r with faulted := true }
        | .admin f => s.updFn f fun x => { x with admFault := true }
      s.raise 98 fn 0 0x302 (eventData [(1, fn), (2, ctx), (2, r.fetch), (1, status)])

/-- HELD has lasted 10 ms: source 99, once (R110). -/
def State.heldTimeout (s : State) (ctx : Nat) : State :=
  match s.ring? ctx with
  | none => s
  | some r =>
    if r.held && !r.heldRaised && decide (r.heldSince + 10000 ≤ s.grain) then
      (s.updRing ctx fun r => { r with heldRaised := true }).raiseOnly 99 r.fn 0 (eventData [(1, r.fn), (2, ctx)])
    else s

/-- A management-path request: the ROM answers it in a BOOT hold, else Col stamps it (R339). -/
def State.mgmtRequest (s : State) (c : Submission) : State :=
  if s.romServes then s.romCommand (c.work 0 0 .admin)
  else if s.mode.running then s.arrive (.cmd { c := c })
  else s

/-- The bytes of a request message: the descriptor, and what follows it (R143). -/
def messageBytes (c : Submission) : Bytes := c.desc.bytes ++ (c.area.flatMap fun e => e.2.drop (64 - e.1))

/-- A whole request message of one segment on a session (R142). -/
def State.wireRequest (s : State) (n : Nat) (q : BitVec 32) (c : Submission) : State :=
  match s.session? n with
  | none => s
  | some x =>
    if x.state ≠ .open_ then s
    else
      let p := x.params.port
      let s := s.updSession n fun x => { x with rx := inc64 x.rx, lastRx := s.grain, pings := 0 }
      match x.seen.find? fun e => e.seqNo = q with
      | some e => (match e.done with | none => s.discardAt p n true 9 | some r => s.sendReplay n q r)
      | none =>
        let o : OwnerTag := { cls := 0, number := p }
        match s.rxDraws o (s.chainLength p (x.params.overhead + (messageBytes c).length)) [] with
        | (s, hs, false) => (s.queueRelease hs o 0).noBuffer p
        | (s, hs, true) =>
          let s := s.chainWrite hs o (x.params.overhead - 36 - (if x.params.secure then 24 else 0)) (messageBytes c)
          let m : Message := { seqNo := q, count := 1, segs := [(0, messageBytes c)], handles := hs, last := s.grain }
          (s.updSession n fun x => { x with messages := m :: x.messages.filter fun k => k.seqNo != q }).messageWhole n m c

/-- A command arrives on its carrier: published and fetched on a ring, received on a session or on the management path. -/
def State.submit (s : State) (c : Submission) : State :=
  match c.carrier with
  | .ring n => s.fetchAlone (.data n) c
  | .admin f => s.fetchAlone (.admin f) c
  | .wire n q => s.wireRequest n q c
  | .mgmt => s.mgmtRequest c

/-- Opcode of a submission set: the row that names a command fixes its opcode. -/
def withOpcode (op : Nat) (c : Submission) : Submission := { c with desc := { c.desc with opcode := BitVec.ofNat 8 op } }

/-- A parameter byte of the key field set (offset 0x20 to 0x3F): the row names an operation of the command. -/
def withParam (off v : Nat) (c : Submission) : Submission :=
  let n := c.desc.keyField.toNat
  let sh := 2 ^ (8 * (off - 0x20))
  { c with desc := { c.desc with keyField := BitVec.ofNat 256 (n - n / sh % 256 * sh + v % 256 * sh) } }

/-- First byte of a command's data area set, on a carrier where the area starts at the value address: the row names an operation. -/
def withAreaByte (v : Nat) (c : Submission) : Submission :=
  let at_ := c.desc.valAddr.toNat
  { c with area := c.area.map fun (base, b) =>
      if base ≤ at_ ∧ at_ < base + b.length then (base, patch b (at_ - base) [BitVec.ofNat 8 v]) else (base, b) }

/-- A command of the opcode tables: it runs on its carrier where the device serves it. -/
def State.command (s : State) (c : Submission) (edge : Bool) : Host.Outcome State Fault Refusal :=
  s.stamped s.powered (edge && s.time.running) fun s => s.submit c

end Sys2Proof.Machine
end

