-- ==== Sys2Proof/Machine/Links.lean ====
section
/-! DEFINITION. What firmware and the outside world do on the ports and to the time: link states (R165), preemption and low-power
idle (R172, R174, R175), control frames (R133, R170), best master (R17, R18), PPS (R19, R20), holdover and the time base (R20, R27),
doorbells and register-port operations as commands. -/

namespace Sys2Proof.Machine

/-! ## Link states (R165) -/

/-- DOWN to TRAINING: an auto-negotiation page on a CR or KR port. -/
def State.autoneg (s : State) (p : Nat) : State :=
  let x := s.port p
  if x.link = .down ∧ x.config.type ≠ 2 ∧ x.restartAt ≤ s.localUs then
    s.updPort p fun x => { x with link := .training, since := s.localUs, restartAt := 0 }
  else s

/-- TRAINING to UP. -/
def State.trained (s : State) (p : Nat) (taps : BitVec 24) : State := if (s.port p).link = .training then s.linkUp p taps else s

/-- DOWN to UP on a C2M port. -/
def State.aligned (s : State) (p : Nat) (taps : BitVec 24) : State :=
  if (s.port p).link = .down ∧ (s.port p).config.type = 2 then s.linkUp p taps else s

/-- 3 s of TRAINING without UP: DOWN, and auto-negotiation again 500 ms later. -/
def State.trainTimeout (s : State) (p : Nat) : State :=
  if (s.port p).link = .training ∧ (s.port p).since + 3000000 ≤ s.localUs then
    (s.linkLeave p .down 0).updPort p fun x => { x with restartAt := s.localUs + 500000 }
  else s

/-- Auto-negotiation restarts. -/
def State.autonegAgain (s : State) (p : Nat) : State :=
  let x := s.port p
  if x.link = .down ∧ x.restartAt ≠ 0 ∧ x.restartAt ≤ s.localUs then s.updPort p fun x => { x with restartAt := 0 } else s

/-! ## Preemption and low-power idle (R172, R174, R175) -/

/-- The Clause 99 verify ends; one that fails leaves preemption off until the link comes UP again. -/
def State.verifyDone (s : State) (p : Nat) (ok : Bool) : State :=
  let x := s.port p
  if x.link = .up ∧ x.verifying then
    let s := s.updPort p fun x => { x with preemptOn := ok, verifying := false }
    if ok then s else s.count p 69 1
  else s

/-- Transmit LPI begins. -/
def State.lpiEnter (s : State) (p : Nat) : State :=
  if s.mayLpi p then (s.updPort p fun x => { x with lpiTx := true, lpiTxAt := s.localUs }).count p 70 1 else s

/-- Receive LPI on a port that takes part: entered, or woken from. -/
def State.lpiReceive (s : State) (p : Nat) (enter : Bool) : State :=
  let x := s.port p
  if x.link ≠ .up ∨ !x.config.lpi ∨ x.config.type = 2 ∨ 3 < s.portRate p then s
  else if enter && !x.lpiRx then (s.updPort p fun x => { x with lpiRx := true, lpiRxAt := s.localUs }).count p 43 1
  else if !enter then s.lpiRxEnd p
  else s

/-! ## Control frames -/

/-- A frame for the control cores (R133, R170, R175). -/
def State.controlReceive (s : State) (p : Nat) (f : ControlFrame) : State :=
  if (s.port p).link ≠ .up then s
  else match f with
    | .resolution ip mac => (s.learn ip mac).resolved ip
    | .addressRequest ip asker mac => s.neighbourReply p ip asker mac
    | .echoRequest ip asker mac ident data => s.echoReply p ip asker mac ident data
    | .lldp tw preempt => s.updPort p fun x => { x with partnerTw := tw, partnerPreempt := preempt }

/-- The periodic LLDP frame. -/
def State.lldpSend (s : State) (p : Nat) : State :=
  if (s.port p).link = .up then s.enqueue p (controlTx 0x88CC none 1 0x0180C200000E#48 none (s.lldpBody p)) else s

/-! ## PTP (R17, R18, R181) -/

/-- The time comes from PTP, and a port takes part in it with its link UP. -/
def State.ptpPort (s : State) (p : Nat) : Bool := s.time.config.source = 0 && s.isTimePort p && (s.port p).link = .up

/-- An Announce interval in µs: 2 to the log interval, in seconds. -/
def announceUs (a : Announce) : Nat := 125000 * 2 ^ (a.logInterval + 3).toNat

/-- The supported ranges of an Announce (R17). -/
def announceGood (a : Announce) : Bool := decide (-3 ≤ a.logInterval ∧ a.logInterval ≤ 1) && !a.arb

/-- A port's master after an Announce at a moment of the local clock: the same clock renewed, or lost where it leaves the supported
ranges; another clock where it is better (R18). `good` says that the Announce's clock counts as present (R17). -/
def masterAfter (m : Option Master) (a : Announce) (good : Bool) (now : Nat) : Option Master :=
  match m with
  | none => if good then some { ann := a, since := now, last := now } else none
  | some m =>
    if m.ann.clock = a.clock then
      (if good then some { m with ann := a, count := m.count + 1, last := now } else none)
    else if good ∧ a.rank < m.ann.rank then some { ann := a, since := now, last := now }
    else some m

/-- An Announce on the time port or the backup port. -/
def State.announce (s : State) (a : Announce) : State :=
  if s.ptpPort a.port ∧ a.domain = s.time.config.domain then
    let now := s.localUs
    let good := announceGood a && !s.time.absent.contains (a.port, a.clock)
    s.mastersChange 0 fun t =>
      if a.port = t.config.timePort then { t with mainMaster := masterAfter t.mainMaster a good now }
      else { t with backMaster := masterAfter t.backMaster a good now }
  else s

/-- The Sync and Delay_Req log intervals that R17 supports. -/
def syncInRange (x : SyncExchange) : Bool := decide (-7 ≤ x.syncLog ∧ x.syncLog ≤ 0 ∧ -7 ≤ x.delayLog ∧ x.delayLog ≤ 0)

/-- A Sync exchange: with the master in use it gives a servo sample (R18, R411). A master outside the supported intervals counts as
absent until an exchange shows it within them (R17). -/
def State.sync (s : State) (x : SyncExchange) : State :=
  if !s.ptpPort x.port then s
  else if syncInRange x then
    let s := s.updTime fun t => { t with absent := t.absent.filter fun e => e != (x.port, x.clock) }
    if s.time.inUse = x.port ∧ s.time.masterId = x.clock then s.servoSample x.raw else s
  else
    let gone (m : Option Master) : Option Master := m.filter fun m => m.ann.clock != x.clock
    s.mastersChange 0 fun t =>
      let t := { t with absent := (x.port, x.clock) :: t.absent.filter fun e => e != (x.port, x.clock) }
      if x.port = t.config.timePort then { t with mainMaster := gone t.mainMaster } else { t with backMaster := gone t.backMaster }

/-- The master of a time port. -/
def State.masterOf (s : State) (p : Nat) : Option Master :=
  if p = s.time.config.timePort then s.time.mainMaster else if p = s.time.config.backup then s.time.backMaster else none

/-- Three Announce intervals without an Announce of the port's master. -/
def State.announceLost (s : State) (p : Nat) : State :=
  if s.time.config.source = 0 ∧ (s.masterOf p).any fun m => decide (m.last + 3 * announceUs m.ann ≤ s.localUs) then s.masterLost p else s

/-- The time port's master has been qualified for 16 of its intervals: time returns to it. -/
def State.portReturn (s : State) : State :=
  let t := s.time
  if t.config.source = 0 ∧ t.inUse = t.config.backup ∧ t.config.backup ≠ 255 ∧
      t.mainMaster.any fun m => decide (m.since + 16 * announceUs m.ann ≤ s.localUs) then
    s.mastersChange 0 fun t => { t with inUse := t.config.timePort }
  else s

/-- The one-step answer to a Pdelay_Req: the correction field, in 2^-16 ns, takes the turnaround (R181). -/
def State.pdelay (s : State) (p receiveNs transmitNs correction : Nat) (requester : BitVec 80) (seqId : BitVec 16) : State :=
  if s.ptpPort p then
    s.ptpSend p true (ptpBytes 3 s.time.config.domain (correction + (transmitNs - receiveNs) * 65536) p seqId (zeros 10 ++ beBytes 10 requester.toNat))
  else s

/-- A Delay_Req on the port in use, or a Pdelay_Req on either time port. -/
def State.delayReq (s : State) (p : Nat) : State :=
  let peer : Bool := s.time.config.delay = 1
  if s.ptpPort p ∧ (peer ∨ s.time.inUse = p) then
    let q := (s.port p).ptpSeq
    (s.updPort p fun x => { x with ptpSeq := x.ptpSeq + 1 }).ptpSend p peer
      (ptpBytes (if peer then 2 else 1) s.time.config.domain 0 p q (zeros (if peer then 20 else 10)))
  else s

/-! ## PPS (R19, R20) -/

/-- A PPS_IN rising edge, so many ns past the counter's last grain edge: its second is the one that SET_TOD named, else the one after the
last edge's; across missing edges the counter tells how many seconds have passed. -/
def State.ppsIn (s : State) (ns : Nat) : State :=
  if s.time.config.source ≠ 1 then s
  else
    let now := s.nowNs + ns % 1000
    let t := s.time
    let passed := if t.ppsMissing then max 1 ((now - t.ppsLast + 500000000) / 1000000000) else 1
    let second := t.todPending.getD (t.refSecond + passed)
    let s := s.refChange 0 fun t => { t with todPending := none, todApplied := t.todApplied || t.todPending.isSome, refSecond := second
                                             ppsLast := now, ppsMissing := false }
    if s.time.todApplied then s.servoSample ((second : Int) * 1000000000 - (now : Int)) else s

/-- No edge for 1.001 s: source 26. -/
def State.ppsLost (s : State) : State :=
  let t := s.time
  if t.config.source = 1 ∧ t.ppsLast ≠ 0 ∧ !t.ppsMissing ∧ t.ppsLast + 1001000000 ≤ s.nowNs then
    (s.raise 26 0 0 0x103 (eventData [(8, t.ppsLast / 1000)])).refChange 0 fun t => { t with ppsMissing := true }
  else s

/-- PPS_OUT rises at a whole second of the counter, and falls 1 ms later. -/
def State.ppsOut (s : State) : State :=
  let second := s.nowNs / 1000000000 * 1000000000
  if s.time.ppsOutAt < second then
    let high := decide (s.nowNs < second + 1000000)
    s.updTime fun t => { t with ppsOutAt := second, ppsOut := high }
  else if s.time.ppsOut && decide (s.time.ppsOutAt + 1000000 ≤ s.nowNs) then s.updTime fun t => { t with ppsOut := false }
  else s

/-! ## The time base and holdover (R20, R27) -/

/-- TIMEBASE_CLK stops or is measured more than 100 ppm off (in 0.01 ppm): source 20, LOST at once, the nominal increment from then on;
the uncertainty grows from its value (R412). -/
def State.clkFault (s : State) (ppm : Int) : State :=
  if ppm.natAbs ≤ 10000 ∨ s.time.clkFault then s
  else
    let unc := s.time.uncertainty
    let now := s.nowNs
    let s := s.updTime fun t => { t with clkFault := true, ppm := ppm, relocked := false, stepDue := none, increment := Config.nominalIncrement
                                         uncBase := unc, uncAt := now }
    (s.raiseDevice 20 0x103 0 (eventData [(4, ns32 (ppm / 100))])).setQuality .lost 0

/-- The holdover uncertainty passes L/2: source 23, once. -/
def State.holdHalf (s : State) : State :=
  let t := s.time
  if t.quality = .holdover ∧ !t.halfRaised ∧ t.config.limit * 500 < t.uncertainty then
    (s.updTime fun t => { t with halfRaised := true }).raise 23 0 0 0x100 (eventData [(4, ns32 t.uncertainty), (4, t.config.limit)])
  else s

/-- The holdover uncertainty reaches L: LOST. -/
def State.holdLimit (s : State) : State :=
  if s.time.quality = .holdover ∧ s.time.config.limit * 1000 ≤ s.time.uncertainty then s.setQuality .lost 0 else s

/-! ## Registers as commands -/

/-- A write to a register of a block that responds; an access by a function shows it present. -/
def State.atRegister (s : State) (f bar a : Nat) (g : State → State) : State :=
  if s.responds f bar a then g (s.fnSeen f) else s

/-- An enable bit of FN_CTRL goes to a level. -/
def State.enableBit (s : State) (f bit : Nat) (on : Bool) : State :=
  let old := if (s.fn f).ctrl.getLsbD 0 then 1 else 0
  let evt := if (s.fn f).ctrl.getLsbD 1 then 2 else 0
  s.fnCtrl f (if bit = 0 then b2n on + evt else old + 2 * b2n on)

/-- A rule operation through the rule port (R205): RULE_OP while BUSY is discarded and counted. -/
def State.ruleCommand (s : State) (op : Nat) : State := if s.glen.busy then s.ruleBusy 0x100 op else s.ruleStart op

end Sys2Proof.Machine
end

