-- ==== Sys2Proof/Machine/Turns.lean ====
section
/-! DEFINITION. The turns that a command row gives to a part of the block, with the condition under which the part acts. -/

namespace Sys2Proof.Machine

/-- A command's deadline grain has come (R34, R37). -/
def State.deadlineDue (s : State) (id : Stamp) : Bool :=
  (s.work? id).any fun w => w.deadline != 0 && decide (w.deadline ≤ s.grain)

/-- Vale's index update of a write: its bucket lines pass the merge buffer (R269), then the versions are in (R52). -/
def State.indexDone (s : State) (id : Stamp) (poisoned : Bool) : State :=
  match s.work? id with
  | none => s
  | some w => (if w.phase = .index ∧ w.ponr then s.indexLine w else s).indexUpdate id poisoned

/-- A free cipher pair's turn: a received SECURE frame first, then commands (R281). -/
def State.cipherTurn (s : State) (fault : CipherFault) : State :=
  match s.gorge.rx with
  | [] => s.cipherUnit fault
  | _ :: _ =>
    let s := match fault with | .laneMismatch ps => ps.foldl State.laneMismatch s | _ => s
    if s.pairs.isEmpty then s
    else match s.takeRx with
      | (s, some f) => s.checkSecure f
      | (s, none) => s

/-- An Ethernet frame on a port that is UP. -/
def State.frameIn (s : State) (f : RxFrame) : State := if (s.port f.port).link = .up then s.receiveFrame f else s

/-- A Lerfold frame of type PING or PONG; the row names the type. -/
def State.receiveTyped (s : State) (type : Nat) (f : LfFrame) : State :=
  if f.header.type.toNat = type then s.receiveLerfold f else s

/-- A Lerfold frame of any other type: a REQUEST segment, or a frame that the receive checks discard for its type (R131). -/
def State.receiveSegment (s : State) (f : LfFrame) : State :=
  if f.header.type = 6 ∨ f.header.type = 7 then s else s.receiveLerfold f

/-- An ACK of its own where one is owed; its sequence field holds H, the highest sequence admitted as a new request (R129, R139). -/
def State.ackTurn (s : State) (n : Nat) : State :=
  match s.session? n with
  | none => s
  | some x => if x.state != .resolving && x.ackOwed then s.sendFrame n 3 0 x.highest 0 0 [] else s

/-- A CREDIT where one is owed (R140). -/
def State.creditTurn (s : State) (n : Nat) : State :=
  if (s.session? n).any fun x => x.state = .open_ && x.creditOwed then s.sendCredit n else s

/-- A calendar window's edges, while the counter is set (R38). -/
def State.startDue (s : State) (w : Nat) : Bool := s.time.isSet && (mapGet {} s.time.windows w).startDue s.grain
def State.endDue (s : State) (w : Nat) : Bool := s.time.isSet && (mapGet {} s.time.windows w).endDue s.grain

/-- A worker takes a map datagram; a whole map's adoption goes to Col (R310). -/
def State.mapIn (s : State) (d : MapDatagram) : State :=
  match s.mapReceive d with
  | (s, true) => s.arrive (.mapAdopt d.epoch)
  | (s, false) => s

/-- The manager's publication every second (R309). -/
def State.publishTurn (s : State) : State :=
  if s.cluster.publishedAt + 1000000 ≤ s.localUs then s.publish else s

/-- PWR_FAIL# recognised: the notice is stamped in P0 (R248); before the counter runs the flush follows at once. -/
def State.noticeIn (s : State) (edge : Bool) : Host.Outcome State Fault Refusal :=
  if s.time.running then s.stamped s.powered edge fun s => s.arrive .powerFail
  else .next (if s.powered then s.keepQueue (s.powerFailApply 0) else s)

/-- A reset of every function (R120): stamped in P0, or at once before the counter runs. -/
def State.hostReset (s : State) (cause : FlrCause) (edge : Bool) : Host.Outcome State Fault Refusal :=
  let down (s : State) : State := (s.updHost fun h => { h with
    perst := h.perst || cause = .perst, linkSpeed := 0, linkWidth := 0 }).updLatches fun _ => []
  if s.time.running then s.stamped s.powered edge fun s => (down s).allFlrArrive cause
  else .next (if s.powered then s.keepQueue ((down s).allFlrNow cause) else s)

/-- VF Enable is cleared: each virtual function is reset in order (R103). -/
def State.vfsCleared (s : State) : State :=
  let n := s.host.vfs
  ((List.range n).foldl (fun s k => s.arrive (.flr (k + 1) .vfClear false)) s).updHost fun h => { h with vfs := 0 }

/-- The link enters Loopback as follower, or leaves it, which is a link down (R387). -/
def State.loopback (s : State) (enter : Bool) : Host.Outcome State Fault Refusal :=
  if !s.powered || s.host.perst || s.host.loopback = enter then .next s
  else
    let t := s.updHost fun h => { h with loopback := enter, loopPending := h.loopPending ++ [b2n enter] }
    if enter then .next t
    else if s.time.running then
      .next (s.keepQueue ((t.updHost fun h => { h with linkSpeed := 0, linkWidth := 0 }).allFlrArrive .linkDown))
    else .next (s.keepQueue ((t.updHost fun h => { h with linkSpeed := 0, linkWidth := 0 }).allFlrNow .linkDown))

/-- Written settings reach the configuration blocks (R393). -/
def State.settingsStore (s : State) : State :=
  if s.settingsPending then ({ s.metaWrite 0 with stored := s.written }).limitsStore else s

/-- An SPDM vendor-defined request: it carries RECORD_READ, after the three opening requests (R340, R353). -/
def State.vendorRequest (s : State) (c : Submission) : State :=
  s.spdmAfter 3 fun s => s.mgmtRequest { (withOpcode 0xA8 c) with carrier := .mgmt }

end Sys2Proof.Machine
end

