-- ==== Sys2Proof/Machine/AdminCommands.lean ====
section
/-! DEFINITION. Meanings of the commands: the admin opcodes (R94), submitted on an admin ring, an admin-rights session or the management path. -/

namespace Sys2Proof.Machine

/-- QUEUE_CREATE (R95). -/
def execQueueCreate (c : Submission) (edge : Bool) (s : State) : Host.Outcome State Fault Refusal :=
  s.command (withOpcode 0x80 c) edge

/-- QUEUE_DELETE (R95, R118). -/
def execQueueDelete (c : Submission) (edge : Bool) (s : State) : Host.Outcome State Fault Refusal :=
  s.command (withOpcode 0x81 c) edge

/-- QUEUE_RESET (R118). -/
def execQueueReset (c : Submission) (edge : Bool) (s : State) : Host.Outcome State Fault Refusal :=
  s.command (withOpcode 0x82 c) edge

/-- NAMESPACE_SET (R44, R96). -/
def execNamespaceSet (c : Submission) (edge : Bool) (s : State) : Host.Outcome State Fault Refusal :=
  s.command (withOpcode 0x88 c) edge

/-- NAMESPACE_DELETE (R48). -/
def execNamespaceDelete (c : Submission) (edge : Bool) (s : State) : Host.Outcome State Fault Refusal :=
  s.command (withOpcode 0x89 c) edge

/-- KEY_PAGE_LOAD, operation LOAD (R287). -/
def execKeyPageLoadLoad (c : Submission) (edge : Bool) (s : State) : Host.Outcome State Fault Refusal :=
  s.command (withOpcode 0x90 (withParam 0x22 0 c)) edge

/-- KEY_PAGE_LOAD, operation KEK (R286). -/
def execKeyPageLoadKek (c : Submission) (edge : Bool) (s : State) : Host.Outcome State Fault Refusal :=
  s.command (withOpcode 0x90 (withParam 0x22 1 c)) edge

/-- KEY_PAGE_RETIRE (R289). -/
def execKeyPageRetire (c : Submission) (edge : Bool) (s : State) : Host.Outcome State Fault Refusal :=
  s.command (withOpcode 0x91 c) edge

/-- SESSION_OPEN (R132, R133). -/
def execSessionOpen (c : Submission) (edge : Bool) (s : State) : Host.Outcome State Fault Refusal :=
  s.command (withOpcode 0x98 c) edge

/-- SESSION_CLOSE (R134). -/
def execSessionClose (c : Submission) (edge : Bool) (s : State) : Host.Outcome State Fault Refusal :=
  s.command (withOpcode 0x99 c) edge

/-- HEALTH_GET (R157, R261). -/
def execHealthGet (c : Submission) (edge : Bool) (s : State) : Host.Outcome State Fault Refusal :=
  s.command (withOpcode 0xA0 c) edge

/-- TIME_GET (R98). -/
def execTimeGet (c : Submission) (edge : Bool) (s : State) : Host.Outcome State Fault Refusal :=
  s.command (withOpcode 0xA1 c) edge

/-- SCHEDULE_SET (R38, R99). -/
def execScheduleSet (c : Submission) (edge : Bool) (s : State) : Host.Outcome State Fault Refusal :=
  s.command (withOpcode 0xA2 c) edge

/-- HOLD_SET (R57). -/
def execHoldSet (c : Submission) (edge : Bool) (s : State) : Host.Outcome State Fault Refusal :=
  s.command (withOpcode 0xA3 c) edge

/-- HOLD_RELEASE (R57). -/
def execHoldRelease (c : Submission) (edge : Bool) (s : State) : Host.Outcome State Fault Refusal :=
  s.command (withOpcode 0xA4 c) edge

/-- TIME_SET, operation CONFIGURE (R97). -/
def execTimeSetConfigure (c : Submission) (edge : Bool) (s : State) : Host.Outcome State Fault Refusal :=
  s.command (withOpcode 0xA5 (withParam 0x20 0 c)) edge

/-- TIME_SET, operation SET_TOD (R19). -/
def execTimeSetSetTod (c : Submission) (edge : Bool) (s : State) : Host.Outcome State Fault Refusal :=
  s.command (withOpcode 0xA5 (withParam 0x20 1 c)) edge

/-- TIME_SET, operation READMIT (R29). -/
def execTimeSetReadmit (c : Submission) (edge : Bool) (s : State) : Host.Outcome State Fault Refusal :=
  s.command (withOpcode 0xA5 (withParam 0x20 2 c)) edge

/-- RECORD_READ, mode 0 (R353). -/
def execRecordReadRecords (c : Submission) (edge : Bool) (s : State) : Host.Outcome State Fault Refusal :=
  s.command (withOpcode 0xA8 (withParam 0x20 0 c)) edge

/-- RECORD_READ, mode 1 (R353). -/
def execRecordReadPages (c : Submission) (edge : Bool) (s : State) : Host.Outcome State Fault Refusal :=
  s.command (withOpcode 0xA8 (withParam 0x20 1 c)) edge

/-- RECORD_CLEAR (R354). -/
def execRecordClear (c : Submission) (edge : Bool) (s : State) : Host.Outcome State Fault Refusal :=
  s.command (withOpcode 0xA9 c) edge

/-- FW_DOWNLOAD (R100, R360). -/
def execFwDownload (c : Submission) (edge : Bool) (s : State) : Host.Outcome State Fault Refusal :=
  s.command (withOpcode 0xB0 c) edge

/-- FW_ACTIVATE (R361). -/
def execFwActivate (c : Submission) (edge : Bool) (s : State) : Host.Outcome State Fault Refusal :=
  s.command (withOpcode 0xB1 c) edge

/-- FW_STATUS (R373). -/
def execFwStatus (c : Submission) (edge : Bool) (s : State) : Host.Outcome State Fault Refusal :=
  s.command (withOpcode 0xB2 c) edge

/-- FW_CONFIRM (R369). -/
def execFwConfirm (c : Submission) (edge : Bool) (s : State) : Host.Outcome State Fault Refusal :=
  s.command (withOpcode 0xB3 c) edge

/-- ROLE_SET (R305). -/
def execRoleSet (c : Submission) (edge : Bool) (s : State) : Host.Outcome State Fault Refusal :=
  s.command (withOpcode 0xB8 c) edge

/-- MAP_SET, operation IDENTITY (R306). -/
def execMapSetIdentity (c : Submission) (edge : Bool) (s : State) : Host.Outcome State Fault Refusal :=
  s.command (withOpcode 0xB9 (withAreaByte 0 c)) edge

/-- MAP_SET, operation MAP (R306, R308). -/
def execMapSetMap (c : Submission) (edge : Bool) (s : State) : Host.Outcome State Fault Refusal :=
  s.command (withOpcode 0xB9 (withAreaByte 1 c)) edge

/-- PAIR_START (R311). -/
def execPairStart (c : Submission) (edge : Bool) (s : State) : Host.Outcome State Fault Refusal :=
  s.command (withOpcode 0xBA c) edge

/-- PAIR_END, CANCEL (R318). -/
def execPairEndCancel (c : Submission) (edge : Bool) (s : State) : Host.Outcome State Fault Refusal :=
  s.command (withOpcode 0xBB (withParam 0x22 0 c)) edge

/-- PAIR_END, KEEP_SOURCE (R318). -/
def execPairEndKeepSource (c : Submission) (edge : Bool) (s : State) : Host.Outcome State Fault Refusal :=
  s.command (withOpcode 0xBB (withParam 0x22 1 c)) edge

/-- PAIR_END, KEEP_TARGET (R318). -/
def execPairEndKeepTarget (c : Submission) (edge : Bool) (s : State) : Host.Outcome State Fault Refusal :=
  s.command (withOpcode 0xBB (withParam 0x22 2 c)) edge

/-- LINK_TEST (R382). -/
def execLinkTest (c : Submission) (edge : Bool) (s : State) : Host.Outcome State Fault Refusal :=
  s.command (withOpcode 0xC0 c) edge

/-- IDENTIFY, the device page (R101). -/
def execIdentifyDevice (c : Submission) (edge : Bool) (s : State) : Host.Outcome State Fault Refusal :=
  s.command (withOpcode 0xC1 (withParam 0x20 0 c)) edge

/-- IDENTIFY, a namespace page (R101). -/
def execIdentifyNamespace (c : Submission) (edge : Bool) (s : State) : Host.Outcome State Fault Refusal :=
  s.command (withOpcode 0xC1 (withParam 0x20 1 c)) edge

/-- PORT_SET, operation QUAD (R163). -/
def execPortSetQuad (c : Submission) (edge : Bool) (s : State) : Host.Outcome State Fault Refusal :=
  s.command (withOpcode 0xC2 (withAreaByte 0 c)) edge

/-- PORT_SET, operation PORT (R163). -/
def execPortSetPort (c : Submission) (edge : Bool) (s : State) : Host.Outcome State Fault Refusal :=
  s.command (withOpcode 0xC2 (withAreaByte 1 c)) edge

/-- PORT_SET, operation UDP_PORT (R163). -/
def execPortSetUdpPort (c : Submission) (edge : Bool) (s : State) : Host.Outcome State Fault Refusal :=
  s.command (withOpcode 0xC2 (withAreaByte 2 c)) edge

end Sys2Proof.Machine
end

