-- ==== Sys2Proof/Machine/DataCommands.lean ====
section
/-! DEFINITION. Meanings of the commands: the data opcodes (R77), submitted on a ring or a session. -/

namespace Sys2Proof.Machine

/-- GET (R53, R83): the newest version below its own stamp. -/
def execGet (c : Submission) (edge : Bool) (s : State) : Host.Outcome State Fault Refusal :=
  s.command (withOpcode 0x01 c) edge

/-- GET_AS_OF (R54, R83). -/
def execGetAsOf (c : Submission) (edge : Bool) (s : State) : Host.Outcome State Fault Refusal :=
  s.command (withOpcode 0x02 c) edge

/-- VERSIONS (R84). -/
def execVersions (c : Submission) (edge : Bool) (s : State) : Host.Outcome State Fault Refusal :=
  s.command (withOpcode 0x03 c) edge

/-- ENUMERATE (R61, R62). -/
def execEnumerate (c : Submission) (edge : Bool) (s : State) : Host.Outcome State Fault Refusal :=
  s.command (withOpcode 0x04 c) edge

/-- PUT (R52). -/
def execPut (c : Submission) (edge : Bool) (s : State) : Host.Outcome State Fault Refusal :=
  s.command (withOpcode 0x10 c) edge

/-- PUT_IF (R59). -/
def execPutIf (c : Submission) (edge : Bool) (s : State) : Host.Outcome State Fault Refusal :=
  s.command (withOpcode 0x11 c) edge

/-- DELETE (R58). -/
def execDelete (c : Submission) (edge : Bool) (s : State) : Host.Outcome State Fault Refusal :=
  s.command (withOpcode 0x12 c) edge

/-- DELETE_SECURE (R67, R257). -/
def execDeleteSecure (c : Submission) (edge : Bool) (s : State) : Host.Outcome State Fault Refusal :=
  s.command (withOpcode 0x13 c) edge

/-- BATCH (R60, R85). -/
def execBatch (c : Submission) (edge : Bool) (s : State) : Host.Outcome State Fault Refusal :=
  s.command (withOpcode 0x14 c) edge

/-- TOUCH (R56). -/
def execTouch (c : Submission) (edge : Bool) (s : State) : Host.Outcome State Fault Refusal :=
  s.command (withOpcode 0x15 c) edge

/-- FLUSH (R91). -/
def execFlush (c : Submission) (edge : Bool) (s : State) : Host.Outcome State Fault Refusal :=
  s.command (withOpcode 0x20 c) edge

/-- ABORT (R90). -/
def execAbort (c : Submission) (edge : Bool) (s : State) : Host.Outcome State Fault Refusal :=
  s.command (withOpcode 0x21 c) edge

/-- NOP (R87). -/
def execNop (c : Submission) (edge : Bool) (s : State) : Host.Outcome State Fault Refusal :=
  s.command (withOpcode 0x22 c) edge

end Sys2Proof.Machine
end

