-- ==== Sys2Proof/Machine/LinkCommands.lean ====
section
/-! DEFINITION. Meanings of the commands: the ports' links (R165), preemption (R172) and low-power idle (R174, R175). -/

namespace Sys2Proof.Machine

/-- An auto-negotiation page (R165). -/
def execAutonegPageReceived (port : Nat) (s : State) : Host.Outcome State Fault Refusal :=
  s.act s.clocked fun s => s.autoneg port

/-- Training ends with the port UP (R165). -/
def execLinkTrainingDone (port : Nat) (taps : BitVec 24) (s : State) : Host.Outcome State Fault Refusal :=
  s.act s.clocked fun s => s.trained port taps

/-- A C2M port is aligned (R165). -/
def execC2mLinkUp (port : Nat) (taps : BitVec 24) (s : State) : Host.Outcome State Fault Refusal :=
  s.act s.clocked fun s => s.aligned port taps

/-- 3 s of training (R165). -/
def execTrainingTimeout (port : Nat) (s : State) : Host.Outcome State Fault Refusal :=
  s.act s.clocked fun s => s.trainTimeout port

/-- Auto-negotiation restarts (R165). -/
def execAutonegRestart (port : Nat) (s : State) : Host.Outcome State Fault Refusal :=
  s.act s.clocked fun s => s.autonegAgain port

/-- A link fault (R165). -/
def execLinkFault (port cause : Nat) (s : State) : Host.Outcome State Fault Refusal :=
  s.act s.clocked fun s => s.linkFault port cause

/-- The Clause 99 verify ends (R172). -/
def execPreemptVerifyDone (port : Nat) (ok : Bool) (s : State) : Host.Outcome State Fault Refusal :=
  s.act s.clocked fun s => s.verifyDone port ok

/-- Transmit LPI (R174). -/
def execLpiEntry (port : Nat) (s : State) : Host.Outcome State Fault Refusal :=
  s.act s.clocked fun s => s.lpiEnter port

/-- Receive LPI (R174). -/
def execReceiveLpi (port : Nat) (enter : Bool) (s : State) : Host.Outcome State Fault Refusal :=
  s.act s.clocked fun s => s.lpiReceive port enter

/-- The periodic LLDP frame (R165, R172, R175). -/
def execLldpTransmit (port : Nat) (s : State) : Host.Outcome State Fault Refusal :=
  s.act s.cored fun s => s.lldpSend port

end Sys2Proof.Machine
end

