-- ==== Sys2Proof/Machine/MapCommands.lean ====
section
/-! DEFINITION. Meanings of the commands: map datagrams (R309, R310). -/

namespace Sys2Proof.Machine

/-- A PUBLISH or REPLY reaches a worker (R310). -/
def execMapPublishReceive (datagram : MapDatagram) (edge : Bool) (s : State) : Host.Outcome State Fault Refusal :=
  s.stamped s.cored edge fun s => s.mapIn datagram

/-- A REQUEST reaches the manager (R309). -/
def execMapRequestReceive (datagram : MapDatagram) (s : State) : Host.Outcome State Fault Refusal :=
  s.act s.cored fun s => s.mapRequest datagram

/-- The manager publishes every second (R309). -/
def execMapPublishTimer (s : State) : Host.Outcome State Fault Refusal :=
  s.act s.cored fun s => s.publishTurn

/-- A fragment set is not whole within 2 s (R310). -/
def execMapGatherTimeout (s : State) : Host.Outcome State Fault Refusal :=
  s.act s.cored fun s => s.mapGatherTimeout

/-- 5 s without adoption or refresh (R310). -/
def execMapSilenceTimeout (s : State) : Host.Outcome State Fault Refusal :=
  s.act s.cored fun s => s.mapSilence

end Sys2Proof.Machine
end

