-- ==== Sys2Proof/Machine/MediaCommands.lean ====
section
/-! DEFINITION. Meanings of the commands: Delta: programs, erases, reads, GC, folding, refresh, patrol, checkpoints, secure deletion (R223 to R260, R290). -/

namespace Sys2Proof.Machine

/-- A program ends (R227, R232). -/
def execProgramDone (slot : Nat) (edge : Bool) (s : State) : Host.Outcome State Fault Refusal :=
  s.stamped (s.cored) edge fun s => s.arrive (.programDone slot)

/-- A program fails (R254). -/
def execProgramFailure (slot channel : Nat) (edge : Bool) (s : State) : Host.Outcome State Fault Refusal :=
  s.stamped (s.cored) edge fun s => s.arrive (.programFail slot channel)

/-- An erase ends (R224). -/
def execEraseDone (channel die block : Nat) (edge : Bool) (s : State) : Host.Outcome State Fault Refusal :=
  s.stamped (s.cored) edge fun s => s.arrive (.eraseDone channel die block)

/-- An erase fails (R254). -/
def execEraseFailure (channel die block : Nat) (edge : Bool) (s : State) : Host.Outcome State Fault Refusal :=
  s.stamped (s.cored) edge fun s => s.arrive (.eraseFail channel die block)

/-- The codeword read that a die runs for a command ends (R236, R237). -/
def execCodewordReadDone (channel die : Nat) (outcome : CodewordOutcome) (edge : Bool) (s : State) : Host.Outcome State Fault Refusal :=
  s.stamped (s.cored) edge fun s => s.arrive (.mediaRead channel die outcome)

/-- An XOR rebuild ends (R238). -/
def execXorRebuild (id : Nat) (edge : Bool) (s : State) : Host.Outcome State Fault Refusal :=
  s.stamped (s.cored) edge fun s => s.arrive (.xorDone id)

/-- 10 ms without a new record (R227). -/
def execForcedProgramIdle (slot : Nat) (s : State) : Host.Outcome State Fault Refusal :=
  s.act s.cored fun s => s.forceSlot slot s.idleDue

/-- 20 µs after a write-through record (R227). -/
def execForcedProgramWriteThrough (slot : Nat) (s : State) : Host.Outcome State Fault Refusal :=
  s.act s.cored fun s => if s.pins.writeThrough then s.forceSlot slot s.throughDue else s

/-- Pool 6 at its low water (R227). -/
def execForcedProgramPool6 (s : State) : Host.Outcome State Fault Refusal :=
  s.act s.cored fun s => s.forcePool6

/-- A GC victim (R230). -/
def execGcStep (reads : List CodewordOutcome) (lost : Bool) (edge : Bool) (s : State) : Host.Outcome State Fault Refusal :=
  s.stamped (s.cored) edge fun s => s.arrive (.step (.gc lost) reads)

/-- Folding of an SLC segment (R229). -/
def execFoldingStep (reads : List CodewordOutcome) (lost : Bool) (edge : Bool) (s : State) : Host.Outcome State Fault Refusal :=
  s.stamped (s.cored) edge fun s => s.arrive (.step (.fold lost) reads)

/-- Refresh of a queued segment (R256). -/
def execRefreshStep (reads : List CodewordOutcome) (lost : Bool) (edge : Bool) (s : State) : Host.Outcome State Fault Refusal :=
  s.stamped (s.cored) edge fun s => s.arrive (.step (.refresh lost) reads)

/-- Patrol reads a page (R240, R256). -/
def execPatrolRead (segment channel page : Nat) (reads : List CodewordOutcome) (edge : Bool) (s : State) : Host.Outcome State Fault Refusal :=
  s.stamped (s.cored) edge fun s => s.arrive (.step (.patrol segment channel page reads) [])

/-- The patrol rate (R240). -/
def execPatrolRateUpdate (edge : Bool) (s : State) : Host.Outcome State Fault Refusal :=
  s.stamped (s.cored && s.rateDue) edge fun s => s.arrive .patrolRate

/-- A marginal block again (R256). -/
def execPatrolReread (segment channel : Nat) (reads : List CodewordOutcome) (edge : Bool) (s : State) : Host.Outcome State Fault Refusal :=
  s.stamped (s.cored && s.rereadDue segment channel) edge fun s => s.arrive (.patrolReread segment channel reads)

/-- A patrol cycle ends (R240). -/
def execPatrolCycleEnd (edge : Bool) (s : State) : Host.Outcome State Fault Refusal :=
  s.stamped (s.cored && s.cycleDue) edge fun s => s.arrive .patrolEnd

/-- The checkpoint timer (R233). -/
def execCheckpointTimer (lines : List (DramLine × LineOutcome)) (edge : Bool) (s : State) : Host.Outcome State Fault Refusal :=
  s.stamped (s.cored && s.ckptDue) edge fun s => s.arrive (.checkpoint lines)

/-- The retention sweep (R65, R316). -/
def execRetentionSweep (edge : Bool) (s : State) : Host.Outcome State Fault Refusal :=
  s.stamped (s.cored) edge fun s => s.arrive .sweep

/-- A merge of the metadata region (R234). -/
def execMetadataMerge (logical unit channel die : Nat) (inOrder copyFails : Bool) (s : State) : Host.Outcome State Fault Refusal :=
  s.act s.cored fun s => s.mergeTurn logical unit channel die inOrder copyFails

/-- A candidate segment of a DELETE_SECURE is walked (R257). -/
def execSecureDeleteRelocationStep (id : Nat) (reads : List CodewordOutcome) (edge : Bool) (s : State) : Host.Outcome State Fault Refusal :=
  s.stamped (s.cored) edge fun s => s.arrive (.step (.secure id) reads)

/-- A DELETE_SECURE erases and completes (R257). -/
def execSecureDeleteErase (id : Nat) (s : State) : Host.Outcome State Fault Refusal :=
  s.act s.cored fun s => (s.withIntent id).secureErase id

/-- A namespace's last entry is gone (R48). -/
def execNamespaceRemovalDone (ns : Nat) (s : State) : Host.Outcome State Fault Refusal :=
  s.act s.cored fun s => s.removalDone ns

/-- One record of a re-key sweep (R290). -/
def execRekeySweepStep (page : Nat) (reads : List CodewordOutcome) (tagFails : Bool) (edge : Bool) (s : State) : Host.Outcome State Fault Refusal :=
  s.stamped (s.cored) edge fun s => s.arrive (.step (.rekey page tagFails) reads)

end Sys2Proof.Machine
end

