-- ==== Sys2Proof/Machine/MemoryCommands.lean ====
section
/-! DEFINITION. Meanings of the commands: bulk DRAM and on-chip memory (R269 to R278), the recorder's flush (R347), stored settings (R393) and health (R261). -/

namespace Sys2Proof.Machine

/-- A merge entry retires (R269). -/
def execMergeEntryRetire (line : DramLine) (cause : MergeCause) (outcome : LineOutcome) (s : State) : Host.Outcome State Fault Refusal :=
  s.act s.clocked fun s => s.mergeRetire line cause outcome

/-- The scrubber reads a line (R270 to R273). -/
def execScrubRead (line : DramLine) (outcome : LineOutcome) (s : State) : Host.Outcome State Fault Refusal :=
  s.act s.cored fun s => s.scrubRead line outcome

/-- A Glen row differs from its copy (R278). -/
def execGlenScrub (bank row : Nat) (copy : SramFault) (s : State) : Host.Outcome State Fault Refusal :=
  s.act s.cored fun s => s.glenScrub bank row copy

/-- The recorder's page write (R32, R347, R349): its request, after which the slot is programmed and free. -/
def execRecorderFlushDone (edge : Bool) (s : State) : Host.Outcome State Fault Refusal :=
  s.stamped (s.cored) edge fun s => s.arrive (.step .recorder [])

/-- Stored settings reach the metadata region (R393). -/
def execSettingsStore (s : State) : Host.Outcome State Fault Refusal :=
  s.act s.cored fun s => s.settingsStore

/-- Health counters are stored (R261). -/
def execHealthStore (s : State) : Host.Outcome State Fault Refusal :=
  s.act s.cored fun s => s.healthStore

end Sys2Proof.Machine
end

