-- ==== Sys2Proof/Machine/MgmtCommands.lean ====
section
/-! DEFINITION. Meanings of the commands: MCTP control (R338), SPDM (R340), PLDM (R341), SMB_ALERT# (R401). -/

namespace Sys2Proof.Machine

/-- The Alert Response Address is read (R401). -/
def execSmbusAlertResponse (s : State) : Host.Outcome State Fault Refusal :=
  s.act s.powered fun s => s.alertResponse

/-- Set Endpoint ID (R338). -/
def execSetEndpointId (eid : BitVec 8) (s : State) : Host.Outcome State Fault Refusal :=
  s.act s.powered fun s => s.setEid eid

/-- Get Endpoint ID (R338). -/
def execGetEndpointId (s : State) : Host.Outcome State Fault Refusal :=
  s.act s.powered fun s => s.getEid

/-- Get MCTP Version Support (R338). -/
def execGetMctpVersionSupport (type : BitVec 8) (s : State) : Host.Outcome State Fault Refusal :=
  s.act s.powered fun s => s.mctpVersions type

/-- Get Message Type Support (R338). -/
def execGetMessageTypeSupport (s : State) : Host.Outcome State Fault Refusal :=
  s.act s.powered fun s => s.mctpTypesGet

/-- GET_VERSION (R340). -/
def execGetVersion (s : State) : Host.Outcome State Fault Refusal :=
  s.act s.powered fun s => s.spdmVersion

/-- GET_CAPABILITIES (R340). -/
def execGetCapabilities (s : State) : Host.Outcome State Fault Refusal :=
  s.act s.powered fun s => s.spdmCapabilities

/-- NEGOTIATE_ALGORITHMS (R340). -/
def execNegotiateAlgorithms (p384 sha384 : Bool) (s : State) : Host.Outcome State Fault Refusal :=
  s.act s.powered fun s => s.spdmAlgorithms p384 sha384

/-- GET_DIGESTS (R340). -/
def execGetDigests (s : State) : Host.Outcome State Fault Refusal :=
  s.act s.powered fun s => s.spdmDigests

/-- GET_CERTIFICATE (R340). -/
def execGetCertificate (slot offset length : Nat) (s : State) : Host.Outcome State Fault Refusal :=
  s.act s.powered fun s => s.spdmCertificate slot offset length

/-- CHALLENGE (R340). -/
def execChallenge (slot : Nat) (nonce : BitVec 256) (s : State) : Host.Outcome State Fault Refusal :=
  s.act s.powered fun s => s.spdmChallenge slot nonce

/-- GET_MEASUREMENTS (R340). -/
def execGetMeasurements (index : MeasurementIndex) (nonce : BitVec 256) (s : State) : Host.Outcome State Fault Refusal :=
  s.act s.powered fun s => s.spdmMeasurements index nonce

/-- The vendor-defined request that carries RECORD_READ (R340, R353). -/
def execVendorDefinedRequest (c : Submission) (edge : Bool) (s : State) : Host.Outcome State Fault Refusal :=
  s.stamped s.powered (edge && s.time.running) fun s => s.vendorRequest c

/-- GetTID (R341). -/
def execGetTid (s : State) : Host.Outcome State Fault Refusal :=
  s.act s.powered fun s => s.pldmTid

/-- GetPLDMVersion (R341). -/
def execGetPldmVersion (type : Nat) (s : State) : Host.Outcome State Fault Refusal :=
  s.act s.powered fun s => s.pldmVersionGet type

/-- GetPLDMTypes (R341). -/
def execGetPldmTypes (s : State) : Host.Outcome State Fault Refusal :=
  s.act s.powered fun s => s.pldmTypes

/-- GetPLDMCommands (R341). -/
def execGetPldmCommands (type : Nat) (s : State) : Host.Outcome State Fault Refusal :=
  s.act s.powered fun s => s.pldmCommands type

/-- GetSensorReading (R341). -/
def execGetSensorReading (sensor : Nat) (s : State) : Host.Outcome State Fault Refusal :=
  s.act s.powered fun s => s.sensorReading sensor

/-- GetStateSensorReadings (R341). -/
def execGetStateSensorReadings (sensor : Nat) (s : State) : Host.Outcome State Fault Refusal :=
  s.act s.powered fun s => s.stateReading sensor

/-- GetPDRRepositoryInfo (R341). -/
def execGetPdrRepositoryInfo (s : State) : Host.Outcome State Fault Refusal :=
  s.act s.powered fun s => s.pdrInfo

/-- GetPDR (R341). -/
def execGetPdr (record : Nat) (s : State) : Host.Outcome State Fault Refusal :=
  s.act s.powered fun s => s.pdrGet record

end Sys2Proof.Machine
end

