-- ==== Sys2Proof/Machine/PairCommands.lean ====
section
/-! DEFINITION. Meanings of the commands: pair messages on the target (R311 to R313, R315, R316), and the source's side of a pair (R313 to R317). -/

namespace Sys2Proof.Machine

/-- APPLY (R312): a write of the source under its peer stamp. -/
def execApply (c : Submission) (edge : Bool) (s : State) : Host.Outcome State Fault Refusal :=
  s.command (withParam 0x32 1 c) edge

/-- COMPARE (R313). -/
def execCompare (c : Submission) (edge : Bool) (s : State) : Host.Outcome State Fault Refusal :=
  s.command (withOpcode 0x02 (withParam 0x32 2 c)) edge

/-- COPY_DONE (R313). -/
def execCopyDone (c : Submission) (edge : Bool) (s : State) : Host.Outcome State Fault Refusal :=
  s.command (withOpcode 0x22 (withParam 0x32 3 c)) edge

/-- PROPOSE (R315). -/
def execPropose (c : Submission) (edge : Bool) (s : State) : Host.Outcome State Fault Refusal :=
  s.command (withOpcode 0x22 (withParam 0x32 4 c)) edge

/-- MARK (R316). -/
def execMark (c : Submission) (edge : Bool) (s : State) : Host.Outcome State Fault Refusal :=
  s.command (withOpcode 0x22 (withParam 0x32 5 c)) edge

/-- The target's answer to PROPOSE (R315, R316). -/
def execProposeCompletion (pair status : Nat) (edge : Bool) (s : State) : Host.Outcome State Fault Refusal :=
  s.stamped (s.cored) edge fun s => s.arrive (.proposeAnswer pair status)

/-- MARK's completion at the source (R316). -/
def execMarkCompletion (pair : Nat) (edge : Bool) (s : State) : Host.Outcome State Fault Refusal :=
  s.stamped (s.cored) edge fun s => s.arrive (.markAnswer pair)

/-- The source proposes its cutover (R314). -/
def execProposeSend (pair : Nat) (s : State) : Host.Outcome State Fault Refusal :=
  s.act s.cored fun s => s.proposeSend pair

/-- The source sends MARK (R316). -/
def execMarkSend (pair : Nat) (s : State) : Host.Outcome State Fault Refusal :=
  s.act s.cored fun s => s.markSend pair

/-- One version of the bulk copy (R313). -/
def execBulkCopyStep (pair : Nat) (reads : List CodewordOutcome) (edge : Bool) (s : State) : Host.Outcome State Fault Refusal :=
  s.stamped (s.cored) edge fun s => s.arrive (.step (.copy pair) reads)

/-- A pair message unanswered for 1 s (R317). -/
def execPeerLost (pair : Nat) (s : State) : Host.Outcome State Fault Refusal :=
  s.act s.cored fun s => s.peerLost pair

/-- A frame of the target reaches the source (R311, R313). -/
def execPeerSessionFrameReceive (frame : PeerFrame) (edge : Bool) (s : State) : Host.Outcome State Fault Refusal :=
  s.stamped (s.cored) edge fun s => s.arrive (.peerAck frame)

/-- A pair message is sent again (R155, R315). -/
def execPairMessageRetransmit (pair : Nat) (seq : BitVec 32) (s : State) : Host.Outcome State Fault Refusal :=
  s.act s.cored fun s => s.peerRetransmit pair seq

end Sys2Proof.Machine
end

