-- ==== Sys2Proof/Machine/PowerCommands.lean ====
section
/-! DEFINITION. Meanings of the commands: power, resets and temperature (R119 to R125, R244, R248, R249, R276, R321 to R323, R343, R401, R409). -/

namespace Sys2Proof.Machine

/-- A power-on (R321). -/
def execPowerOn (straps : Straps) (s : State) : Host.Outcome State Fault Refusal :=
  .next (s.keepQueue (s.powerOn straps))

/-- SYS_RESET# is released (R321). -/
def execSysReset (straps : Straps) (s : State) : Host.Outcome State Fault Refusal :=
  .next (s.keepQueue (s.sysReset straps))

/-- PWR_GOOD is lost (R322). -/
def execPwrGoodLoss (s : State) : Host.Outcome State Fault Refusal :=
  .next (s.keepQueue s.pwrGoodLoss)

/-- PWR_FAIL# is recognised (R248, R249). -/
def execPwrFailNotice (edge : Bool) (s : State) : Host.Outcome State Fault Refusal :=
  s.noticeIn edge

/-- PWR_FAIL# has stayed deasserted for 10 ms (R249). -/
def execPwrFailRelease (s : State) : Host.Outcome State Fault Refusal :=
  .next (s.keepQueue s.pwrFailRelease)

/-- HOLDUP_OK deasserts (R245). -/
def execHoldupOkDeassert (s : State) : Host.Outcome State Fault Refusal :=
  s.act s.powered fun s => s.holdupLost

/-- HOLDUP_OK has been asserted for 100 ms (R244). -/
def execHoldupOkStable (s : State) : Host.Outcome State Fault Refusal :=
  s.act s.powered fun s => s.holdupStable

/-- The junction is sampled (R261). -/
def execTemperatureSample (celsius : Int) (s : State) : Host.Outcome State Fault Refusal :=
  s.act s.cored fun s => s.temperature celsius

/-- The junction passes 100 °C (R343, R401). -/
def execThermalWarning (celsius : Int) (s : State) : Host.Outcome State Fault Refusal :=
  s.act s.powered fun s => s.thermalWarning celsius

/-- The junction falls below 100 °C (R401). -/
def execJunctionBelowWarning (celsius : Int) (s : State) : Host.Outcome State Fault Refusal :=
  s.act s.powered fun s => s.thermalClear celsius

/-- The junction reaches 120 °C (R323, R409). -/
def execThermtrip (celsius : Int) (s : State) : Host.Outcome State Fault Refusal :=
  .next (if s.pins.thermtrip ∨ celsius < 120 then s else s.keepQueue (s.thermtrip celsius))

/-- The junction reaches 125 °C (R409). -/
def execThermalBackstop (s : State) : Host.Outcome State Fault Refusal :=
  .next (if s.pins.backstop then s else s.keepQueue s.thermalBackstop)

/-- A core consumes poison (R276). -/
def execFatalMemoryFault (core addr : Nat) (s : State) : Host.Outcome State Fault Refusal :=
  .next (if s.cored then s.keepQueue (s.fatalFault core addr) else s)

/-- PERST# (R120). -/
def execPerst (edge : Bool) (s : State) : Host.Outcome State Fault Refusal :=
  s.hostReset .perst edge

/-- PERST# deasserts (R120). -/
def execPerstDeassertion (s : State) : Host.Outcome State Fault Refusal :=
  s.act s.powered fun s => s.updHost fun h => { h with perst := false }

/-- A PCIe hot reset (R120). -/
def execHotReset (edge : Bool) (s : State) : Host.Outcome State Fault Refusal :=
  s.hostReset .hotReset edge

/-- The PCIe link goes down (R120). -/
def execPcieLinkDown (edge : Bool) (s : State) : Host.Outcome State Fault Refusal :=
  s.hostReset .linkDown edge

/-- The link's speed or width (R122). -/
def execPcieLinkChange (speed width : Nat) (s : State) : Host.Outcome State Fault Refusal :=
  s.act s.powered fun s => if s.host.perst then s else s.linkChange speed width

/-- A function-level reset (R119). -/
def execFunctionLevelReset (fn : Nat) (edge : Bool) (s : State) : Host.Outcome State Fault Refusal :=
  s.stamped (s.clocked && s.fnPresent fn) edge fun s => s.arrive (.flr fn .function false)

/-- VF Enable is cleared (R103). -/
def execVfEnableClear (edge : Bool) (s : State) : Host.Outcome State Fault Refusal :=
  s.stamped s.clocked edge fun s => s.vfsCleared

/-- D3hot (R121). -/
def execD3hotEntry (fn : Nat) (s : State) : Host.Outcome State Fault Refusal :=
  s.act s.powered fun s => if s.fnPresent fn then s.d3hot fn else s

/-- Return to D0 (R121). -/
def execD0Return (fn : Nat) (s : State) : Host.Outcome State Fault Refusal :=
  s.act s.powered fun s => if s.fnPresent fn then s.d0 fn else s

/-- Loopback (R387). -/
def execPcieLoopback (enter : Bool) (s : State) : Host.Outcome State Fault Refusal :=
  s.loopback enter

end Sys2Proof.Machine
end

