-- ==== Sys2Proof/Machine/QueueCommands.lean ====
section
/-! DEFINITION. Meanings of the commands: ring fetch (R110, R114), DMA (R113), Col's grain edge (R31) and the pipeline's internal completions. -/

namespace Sys2Proof.Machine

/-- A data ring's turn (R110). -/
def execDataRingFetch (ctx : Nat) (entries : List (BitVec 512 × Area)) (s : State) : Host.Outcome State Fault Refusal :=
  s.act s.cored fun s => s.fetchRing (.data ctx) (.ring ctx) entries

/-- An admin ring's turn (R110). -/
def execAdminRingFetch (fn : Nat) (entries : List (BitVec 512 × Area)) (s : State) : Host.Outcome State Fault Refusal :=
  s.act s.cored fun s => s.fetchRing (.admin fn) (.admin fn) entries

/-- A descriptor fetch fails (R114). -/
def execFetchFailure (ring : RingId) (status : Nat) (s : State) : Host.Outcome State Fault Refusal :=
  s.act s.cored fun s => s.fetchFailure ring status

/-- A DMA transfer for a command ends (R113). -/
def execDmaDone (id : Nat) (result : DmaResult) (edge : Bool) (s : State) : Host.Outcome State Fault Refusal :=
  s.stamped (s.clocked) edge fun s => s.arrive (.dmaDone id result)

/-- HELD has lasted 10 ms (R110). -/
def execHeldTimeout (ctx : Nat) (s : State) : Host.Outcome State Fault Refusal :=
  s.act s.cored fun s => s.heldTimeout ctx

/-- The edge of the grain (R31, R33), then further grains without an arrival. A grain number has 52 bits (R30). -/
def execGrainEdge (idle : Nat) (s : State) : Host.Outcome State Fault Refusal :=
  if !s.clocked then .next s
  else if Config.maxGrain ≤ s.nextGrain + idle then .fault .grainNumberExhausted
  else .next (s.keepQueue (s.grainEdge.idleGrains idle))

/-- A command's deadline (R34). -/
def execCommandTimeout (id : Nat) (edge : Bool) (s : State) : Host.Outcome State Fault Refusal :=
  s.stamped (s.clocked && s.deadlineDue id) edge fun s => s.arrive (.timeout id)

/-- A command proceeds from the gate (R209). -/
def execGateProceed (id : Nat) (s : State) : Host.Outcome State Fault Refusal :=
  s.act s.clocked fun s => s.gateProceed id

/-- Vale's index update of a write ends (R52, R209). -/
def execIndexUpdateDone (id : Nat) (poisoned : Bool) (s : State) : Host.Outcome State Fault Refusal :=
  s.act s.clocked fun s => s.indexDone id poisoned

/-- A write's journal entry is in the buffer (R35, R232). -/
def execJournalEntryWritten (id : Nat) (edge : Bool) (s : State) : Host.Outcome State Fault Refusal :=
  s.stamped (s.clocked) edge fun s => s.arrive (.journal id)

/-- A read's first byte is handed over (R35). -/
def execFirstByteReleased (id : Nat) (edge : Bool) (s : State) : Host.Outcome State Fault Refusal :=
  s.stamped (s.clocked) edge fun s => s.arrive (.firstByte id)

/-- The first waiter of a pool is granted a buffer (R192). -/
def execBufferGrant (pool : Nat) (s : State) : Host.Outcome State Fault Refusal :=
  s.act s.clocked fun s => s.serveWaiter pool

/-- A buffer's release reaches Col (R188, R193). -/
def execBufferRelease (handle : Handle) (requester : OwnerTag) (edge : Bool) (s : State) : Host.Outcome State Fault Refusal :=
  s.stamped (s.clocked) edge fun s => s.presentRelease handle requester 0

/-- A wait list non-empty for 10 ms (R194). -/
def execWaitListTimeout (pool : Nat) (s : State) : Host.Outcome State Fault Refusal :=
  s.act s.cored fun s => s.waitTimeout pool

/-- Fetching held for 1 ms (R194). -/
def execFetchHoldTimeout (s : State) : Host.Outcome State Fault Refusal :=
  s.act s.cored fun s => s.fetchHoldTimeout

/-- A cipher pair takes the next work unit (R281, R283). -/
def execGorgeWorkUnit (fault : CipherFault) (s : State) : Host.Outcome State Fault Refusal :=
  s.act s.clocked fun s => s.cipherTurn fault

/-- An entropy health test fails (R297). -/
def execEntropyTestFailure (test : Nat) (s : State) : Host.Outcome State Fault Refusal :=
  s.act s.cored fun s => s.entropyFail test

/-- The repeated start-up test passes (R297). -/
def execEntropyStartupTestPass (s : State) : Host.Outcome State Fault Refusal :=
  s.act s.cored fun s => s.entropyPass

end Sys2Proof.Machine
end

