-- ==== Sys2Proof/Machine/RegisterCommands.lean ====
section
/-! DEFINITION. Meanings of the commands: doorbells (R105, R109, R112), ring enables (R107), register-port operations (R186, R198, R205, R371, R387), register accesses (R391, R392), the TAP (R388). -/

namespace Sys2Proof.Machine

/-- A submission tail doorbell (R109). -/
def execSqTail (fn ctx : Nat) (value : BitVec 32) (s : State) : Host.Outcome State Fault Refusal :=
  s.act s.powered fun s => s.atRegister fn 2 (4096 * ctx) fun s => s.sqTail fn ctx value.toNat

/-- A completion head doorbell (R112). -/
def execCqHead (fn ctx : Nat) (value : BitVec 32) (s : State) : Host.Outcome State Fault Refusal :=
  s.act s.powered fun s => s.atRegister fn 2 (4096 * ctx + 4) fun s => s.cqHead fn ctx value.toNat

/-- The admin submission tail (R109). -/
def execAdminSqTail (fn : Nat) (value : BitVec 32) (s : State) : Host.Outcome State Fault Refusal :=
  s.act s.powered fun s => s.atRegister fn 4 (0) fun s => s.adminTail fn value.toNat

/-- The admin completion head (R112). -/
def execAdminCqHead (fn : Nat) (value : BitVec 32) (s : State) : Host.Outcome State Fault Refusal :=
  s.act s.powered fun s => s.atRegister fn 4 (4) fun s => s.adminHead fn value.toNat

/-- The event ring's head (R112, R116, R117). -/
def execEventHead (fn : Nat) (value : BitVec 32) (s : State) : Host.Outcome State Fault Refusal :=
  s.act s.powered fun s => s.atRegister fn 4 (8) fun s => s.eventHead fn value.toNat

/-- ADM_EN goes to 1 (R107). -/
def execAdmEnSet (fn : Nat) (s : State) : Host.Outcome State Fault Refusal :=
  s.act s.powered fun s => s.atRegister fn 0 (if fn = 0 then 0x20000 else 0) fun s => s.enableBit fn 0 true

/-- ADM_EN goes to 0 (R107). -/
def execAdmEnClear (fn : Nat) (s : State) : Host.Outcome State Fault Refusal :=
  s.act s.powered fun s => s.atRegister fn 0 (if fn = 0 then 0x20000 else 0) fun s => s.enableBit fn 0 false

/-- EVT_EN goes to 1 (R107). -/
def execEvtEnSet (fn : Nat) (s : State) : Host.Outcome State Fault Refusal :=
  s.act s.powered fun s => s.atRegister fn 0 (if fn = 0 then 0x20000 else 0) fun s => s.enableBit fn 1 true

/-- EVT_EN goes to 0 (R107). -/
def execEvtEnClear (fn : Nat) (s : State) : Host.Outcome State Fault Refusal :=
  s.act s.powered fun s => s.atRegister fn 0 (if fn = 0 then 0x20000 else 0) fun s => s.enableBit fn 1 false

/-- BASIN_CTRL.SAVE (R186). -/
def execBasinSave (s : State) : Host.Outcome State Fault Refusal :=
  s.act s.cored fun s => s.basinSave

/-- GLEN_CTRL.SAVE (R198). -/
def execGlenSave (s : State) : Host.Outcome State Fault Refusal :=
  s.act s.cored fun s => s.glenSave

/-- RULE_OP ADD (R205 to R207). -/
def execRuleAdd (edge : Bool) (s : State) : Host.Outcome State Fault Refusal :=
  s.stamped s.cored edge fun s => s.ruleCommand 1

/-- RULE_OP REMOVE (R205, R208). -/
def execRuleRemove (edge : Bool) (s : State) : Host.Outcome State Fault Refusal :=
  s.stamped s.cored edge fun s => s.ruleCommand 2

/-- RULE_OP SET_RESULT (R205, R208). -/
def execRuleSetResult (edge : Bool) (s : State) : Host.Outcome State Fault Refusal :=
  s.stamped s.cored edge fun s => s.ruleCommand 3

/-- Holes of a rule table are restored (R207). -/
def execHoleRestore (table : Nat) (s : State) : Host.Outcome State Fault Refusal :=
  s.act s.cored fun s => s.holeRestore table

/-- LOCK_CTRL.SUBMIT (R371). -/
def execLockSubmit (edge : Bool) (s : State) : Host.Outcome State Fault Refusal :=
  s.stamped s.cored edge fun s => s.lockSubmit

/-- TEST_CTRL.START (R387). -/
def execTestStart (s : State) : Host.Outcome State Fault Refusal :=
  s.act s.powered fun s => s.testStart

/-- TEST_CTRL.STOP (R387). -/
def execTestStop (elapsedMs : Nat) (results : List TestResult) (s : State) : Host.Outcome State Fault Refusal :=
  s.act s.powered fun s => s.testStop elapsedMs results

/-- A production test reaches its duration (R387). -/
def execTestDurationEnd (results : List TestResult) (s : State) : Host.Outcome State Fault Refusal :=
  s.act s.powered fun s => s.durationEnd results

/-- A register write (R5, R392). -/
def execRegisterWrite (fn bar off width : Nat) (value : BitVec 64) (s : State) : Host.Outcome State Fault Refusal :=
  s.act s.powered fun s => s.write fn bar off width value.toNat

/-- A register read (R5, R391). -/
def execLatchingRead (fn bar off width : Nat) (s : State) : Host.Outcome State Fault Refusal :=
  s.act s.powered fun s => s.read fn bar off width

/-- A TAP instruction (R388). -/
def execTapInstructionLoad (code : BitVec 8) (s : State) : Host.Outcome State Fault Refusal :=
  s.act s.powered fun s => s.tapLoad code

/-- An MSI-X vector is unmasked (R115). -/
def execMsixVectorUnmask (fn vector : Nat) (s : State) : Host.Outcome State Fault Refusal :=
  s.act s.powered fun s => s.atRegister fn 0 (if fn = 0 then 0x20000 else 0) fun s => s.unmask fn vector

end Sys2Proof.Machine
end

