-- ==== Sys2Proof/Machine/StartCommands.lean ====
section
/-! DEFINITION. Meanings of the commands: start-up (R15, R251, R326 to R337), update (R362 to R370), link tests (R383, R384). -/

namespace Sys2Proof.Machine

/-- FILL ends and the boot ROM runs (R15, R328). -/
def execFillDone (training : DramTraining) (rom : RomFindings) (s : State) : Host.Outcome State Fault Refusal :=
  s.act s.powered fun s => s.fillDone training rom

/-- REBUILD (R251 to R253). -/
def execRebuildRun (findings : RebuildFindings) (s : State) : Host.Outcome State Fault Refusal :=
  s.act s.cored fun s => s.rebuildRun findings

/-- Entry into SERVICE (R15, R24). -/
def execServiceEntry (s : State) : Host.Outcome State Fault Refusal :=
  s.act s.cored fun s => s.serviceEntry

/-- Preparation ends (R362). -/
def execActivationPreparationDone (edge : Bool) (s : State) : Host.Outcome State Fault Refusal :=
  s.stamped s.cored edge fun s => s.prepareDone

/-- 300 ms after acceptance (R363). -/
def execQuiesceTimeout (s : State) : Host.Outcome State Fault Refusal :=
  s.act s.cored fun s => s.quiesceTimeout

/-- The quiesce ends: the device reset is stamped in P0 and the ROM runs (R31, R324, R363); or a BOOT hold's ROM runs again (R15). -/
def execWarmRestart (rom : RomFindings) (s : State) : Host.Outcome State Fault Refusal :=
  if s.romServes then s.act s.powered fun s => s.romRerun rom
  else s.stamped (s.powered && s.restartDue) true fun s => s.arrive (.deviceReset rom)

/-- Half the trial window (R368). -/
def execTrialHalfWindow (s : State) : Host.Outcome State Fault Refusal :=
  s.act s.cored fun s => s.trialHalf

/-- The trial window ends (R368). -/
def execTrialWindowExpiry (edge : Bool) (s : State) : Host.Outcome State Fault Refusal :=
  s.stamped (s.cored && s.trialDue) edge fun s => s.arrive .trial

/-- 300 ms after a LINK_TEST (R383). -/
def execLinkTestQuiesceTimeout (s : State) : Host.Outcome State Fault Refusal :=
  s.act s.cored fun s => s.testQuiesceTimeout

/-- A link test ends (R383). -/
def execLinkTestEnd (results : List TestResult) (s : State) : Host.Outcome State Fault Refusal :=
  s.act s.cored fun s => s.linkTestEnd results

/-- A checker locks (R384). -/
def execCheckerLock (target : Nat) (s : State) : Host.Outcome State Fault Refusal :=
  s.act s.powered fun s => s.checkerLock target

/-- A checker loses its lock (R381, R384). -/
def execCheckerLockLoss (target : Nat) (s : State) : Host.Outcome State Fault Refusal :=
  s.act s.powered fun s => s.checkerLoss target

end Sys2Proof.Machine
end

