-- ==== Sys2Proof/Machine/TimeCommands.lean ====
section
/-! DEFINITION. Meanings of the commands: time (R17 to R29, R411, R412), the calendar (R38, R39) and idle timers (R123). -/

namespace Sys2Proof.Machine

/-- A Sync exchange (R411). -/
def execSyncReceive (exchange : SyncExchange) (s : State) : Host.Outcome State Fault Refusal :=
  s.act s.cored fun s => s.sync exchange

/-- A forward step takes place at the grain's edge, which follows at once (R21, R22). A grain number has 52 bits (R30). -/
def execTimeStep (s : State) : Host.Outcome State Fault Refusal :=
  if !s.cored || s.time.stepDue.isNone then .next s
  else if Config.maxGrain ≤ s.nextGrain then .fault .grainNumberExhausted
  else .next (s.keepQueue s.grainEdge)

/-- A PTP Announce (R17, R18). -/
def execAnnounceReceive (announce : Announce) (s : State) : Host.Outcome State Fault Refusal :=
  s.act s.cored fun s => s.announce announce

/-- Three Announce intervals without one (R18). -/
def execAnnounceReceiptTimeout (port : Nat) (s : State) : Host.Outcome State Fault Refusal :=
  s.act s.cored fun s => s.announceLost port

/-- Time returns to the time port (R18). -/
def execTimePortReturn (s : State) : Host.Outcome State Fault Refusal :=
  s.act s.cored fun s => s.portReturn

/-- A Pdelay_Req is answered (R17, R181). -/
def execPdelayReqReceive (port receiveNs transmitNs correction : Nat) (requester : BitVec 80) (seqId : BitVec 16) (s : State) : Host.Outcome State Fault Refusal :=
  s.act s.cored fun s => s.pdelay port receiveNs transmitNs correction requester seqId

/-- A Delay_Req or Pdelay_Req leaves (R17). -/
def execDelayReqSend (port : Nat) (s : State) : Host.Outcome State Fault Refusal :=
  s.act s.cored fun s => s.delayReq port

/-- A PPS_IN edge (R19). -/
def execPpsInEdge (ns : Nat) (s : State) : Host.Outcome State Fault Refusal :=
  s.act s.cored fun s => s.ppsIn ns

/-- PPS_IN is missing (R19). -/
def execPpsInMissing (s : State) : Host.Outcome State Fault Refusal :=
  s.act s.cored fun s => s.ppsLost

/-- PPS_OUT rises or falls (R20). -/
def execPpsOutEdge (s : State) : Host.Outcome State Fault Refusal :=
  s.act s.clocked fun s => s.ppsOut

/-- A TIMEBASE_CLK fault (R20). -/
def execTimebaseClkFault (ppm : Int) (s : State) : Host.Outcome State Fault Refusal :=
  s.act s.powered fun s => s.clkFault ppm

/-- Holdover passes L/2 (R27). -/
def execHoldoverHalf (s : State) : Host.Outcome State Fault Refusal :=
  s.act s.cored fun s => s.holdHalf

/-- Holdover reaches L (R26, R27). -/
def execHoldoverLimitReached (s : State) : Host.Outcome State Fault Refusal :=
  s.act s.cored fun s => s.holdLimit

/-- A window's start edge (R38, R39). -/
def execCalendarStartEdge (window : Nat) (edge : Bool) (s : State) : Host.Outcome State Fault Refusal :=
  s.stamped (s.cored && s.startDue window) edge fun s => s.arrive (.calStart window)

/-- A window's end edge (R38). -/
def execCalendarEndEdge (window : Nat) (edge : Bool) (s : State) : Host.Outcome State Fault Refusal :=
  s.stamped (s.cored && s.endDue window) edge fun s => s.arrive (.calEnd window)

/-- An idle timer (R123). -/
def execIdleTimerExpiry (power : Nat) (edge : Bool) (s : State) : Host.Outcome State Fault Refusal :=
  s.stamped (s.cored && decide (1 ≤ power ∧ power ≤ 3)) edge fun s => s.arrive (.idle power)

/-- The exit latency has passed (R124). -/
def execPowerStateExitDone (s : State) : Host.Outcome State Fault Refusal :=
  s.act s.cored fun s => s.exitDone

end Sys2Proof.Machine
end

