-- ==== Sys2Proof/Machine/WireCommands.lean ====
section
/-! DEFINITION. Meanings of the commands: frames (R166, R176), the Lerfold wire (R131, R138 to R154) and control frames (R170). -/

namespace Sys2Proof.Machine

/-- An Ethernet frame arrives (R166 to R170, R178, R179). -/
def execFrameReceive (frame : RxFrame) (s : State) : Host.Outcome State Fault Refusal :=
  s.act s.clocked fun s => s.frameIn frame

/-- A REQUEST segment, or a frame whose type the checks discard, arrives (R131, R142 to R144). -/
def execRequestSegmentReceive (frame : LfFrame) (s : State) : Host.Outcome State Fault Refusal :=
  s.act s.clocked fun s => s.receiveSegment frame

/-- A PING arrives (R131, R154). -/
def execPingReceive (frame : LfFrame) (s : State) : Host.Outcome State Fault Refusal :=
  s.act s.clocked fun s => s.receiveTyped 6 frame

/-- A PONG arrives (R131, R154). -/
def execPongReceive (frame : LfFrame) (s : State) : Host.Outcome State Fault Refusal :=
  s.act s.clocked fun s => s.receiveTyped 7 frame

/-- An ACK is owed (R139). -/
def execAckSend (session : Nat) (s : State) : Host.Outcome State Fault Refusal :=
  s.act s.clocked fun s => s.ackTurn session

/-- A CREDIT is owed (R140). -/
def execCreditSend (session : Nat) (s : State) : Host.Outcome State Fault Refusal :=
  s.act s.clocked fun s => s.creditTurn session

/-- A partial message has waited 10 ms (R144). -/
def execReassemblyTimeout (session : Nat) (seq : BitVec 32) (s : State) : Host.Outcome State Fault Refusal :=
  s.act s.clocked fun s => s.reassemblyTimeout session seq

/-- An interval of silence (R154). -/
def execKeepalivePing (session : Nat) (s : State) : Host.Outcome State Fault Refusal :=
  s.act s.clocked fun s => s.keepalivePing session

/-- Three intervals of silence (R134, R154). -/
def execKeepaliveExpiry (session : Nat) (edge : Bool) (s : State) : Host.Outcome State Fault Refusal :=
  s.stamped (s.clocked && s.keepaliveDue session) edge fun s => s.arrive (.sessionReset session 2)

/-- A SECURE frame counter is exhausted (R137). -/
def execFrameCounterExhausted (session : Nat) (edge : Bool) (s : State) : Host.Outcome State Fault Refusal :=
  s.stamped (s.clocked && s.counterDone session) edge fun s => s.arrive (.sessionReset session 3)

/-- A CLOSING session becomes FREE (R134). -/
def execSessionFree (session : Nat) (s : State) : Host.Outcome State Fault Refusal :=
  s.act s.clocked fun s => s.freeSession session

/-- No resolution within 1 s (R133). -/
def execSessionOpenResolveTimeout (session : Nat) (s : State) : Host.Outcome State Fault Refusal :=
  s.act s.cored fun s => s.resolveTimeout session

/-- The next segment of a response (R146 to R151). -/
def execResponseSegmentSend (session : Nat) (seq : BitVec 32) (s : State) : Host.Outcome State Fault Refusal :=
  s.act s.clocked fun s => s.sendResponse session seq

/-- A MAC's turn to send (R172, R173, R176). -/
def execFrameTransmit (port : Nat) (late part : Bool) (s : State) : Host.Outcome State Fault Refusal :=
  s.act s.clocked fun s => s.transmit port late part

/-- The start threshold decays (R177). -/
def execThresholdDecay (port : Nat) (s : State) : Host.Outcome State Fault Refusal :=
  s.act s.clocked fun s => s.decay port

/-- A frame for the control cores (R133, R170, R175). -/
def execControlFrameReceive (port : Nat) (frame : ControlFrame) (s : State) : Host.Outcome State Fault Refusal :=
  s.act s.cored fun s => s.controlReceive port frame

end Sys2Proof.Machine
end

