-- ==== Sys2Proof/Machine/Dispatch.lean ====
section
/-! DEFINITION. One arm per command: each arm is one call of that command's meaning. -/

namespace Sys2Proof.Machine

def exec (i : Instr) (s : State) : Host.Outcome State Fault Refusal :=
  match i with
  | .get c edge => Sys2Proof.Machine.execGet c edge s
  | .getAsOf c edge => Sys2Proof.Machine.execGetAsOf c edge s
  | .versions c edge => Sys2Proof.Machine.execVersions c edge s
  | .enumerate c edge => Sys2Proof.Machine.execEnumerate c edge s
  | .put c edge => Sys2Proof.Machine.execPut c edge s
  | .putIf c edge => Sys2Proof.Machine.execPutIf c edge s
  | .delete c edge => Sys2Proof.Machine.execDelete c edge s
  | .deleteSecure c edge => Sys2Proof.Machine.execDeleteSecure c edge s
  | .batch c edge => Sys2Proof.Machine.execBatch c edge s
  | .touch c edge => Sys2Proof.Machine.execTouch c edge s
  | .flush c edge => Sys2Proof.Machine.execFlush c edge s
  | .abort c edge => Sys2Proof.Machine.execAbort c edge s
  | .nop c edge => Sys2Proof.Machine.execNop c edge s
  | .queueCreate c edge => Sys2Proof.Machine.execQueueCreate c edge s
  | .queueDelete c edge => Sys2Proof.Machine.execQueueDelete c edge s
  | .queueReset c edge => Sys2Proof.Machine.execQueueReset c edge s
  | .namespaceSet c edge => Sys2Proof.Machine.execNamespaceSet c edge s
  | .namespaceDelete c edge => Sys2Proof.Machine.execNamespaceDelete c edge s
  | .keyPageLoadLoad c edge => Sys2Proof.Machine.execKeyPageLoadLoad c edge s
  | .keyPageLoadKek c edge => Sys2Proof.Machine.execKeyPageLoadKek c edge s
  | .keyPageRetire c edge => Sys2Proof.Machine.execKeyPageRetire c edge s
  | .sessionOpen c edge => Sys2Proof.Machine.execSessionOpen c edge s
  | .sessionClose c edge => Sys2Proof.Machine.execSessionClose c edge s
  | .healthGet c edge => Sys2Proof.Machine.execHealthGet c edge s
  | .timeGet c edge => Sys2Proof.Machine.execTimeGet c edge s
  | .scheduleSet c edge => Sys2Proof.Machine.execScheduleSet c edge s
  | .holdSet c edge => Sys2Proof.Machine.execHoldSet c edge s
  | .holdRelease c edge => Sys2Proof.Machine.execHoldRelease c edge s
  | .timeSetConfigure c edge => Sys2Proof.Machine.execTimeSetConfigure c edge s
  | .timeSetSetTod c edge => Sys2Proof.Machine.execTimeSetSetTod c edge s
  | .timeSetReadmit c edge => Sys2Proof.Machine.execTimeSetReadmit c edge s
  | .recordReadRecords c edge => Sys2Proof.Machine.execRecordReadRecords c edge s
  | .recordReadPages c edge => Sys2Proof.Machine.execRecordReadPages c edge s
  | .recordClear c edge => Sys2Proof.Machine.execRecordClear c edge s
  | .fwDownload c edge => Sys2Proof.Machine.execFwDownload c edge s
  | .fwActivate c edge => Sys2Proof.Machine.execFwActivate c edge s
  | .fwStatus c edge => Sys2Proof.Machine.execFwStatus c edge s
  | .fwConfirm c edge => Sys2Proof.Machine.execFwConfirm c edge s
  | .roleSet c edge => Sys2Proof.Machine.execRoleSet c edge s
  | .mapSetIdentity c edge => Sys2Proof.Machine.execMapSetIdentity c edge s
  | .mapSetMap c edge => Sys2Proof.Machine.execMapSetMap c edge s
  | .pairStart c edge => Sys2Proof.Machine.execPairStart c edge s
  | .pairEndCancel c edge => Sys2Proof.Machine.execPairEndCancel c edge s
  | .pairEndKeepSource c edge => Sys2Proof.Machine.execPairEndKeepSource c edge s
  | .pairEndKeepTarget c edge => Sys2Proof.Machine.execPairEndKeepTarget c edge s
  | .linkTest c edge => Sys2Proof.Machine.execLinkTest c edge s
  | .identifyDevice c edge => Sys2Proof.Machine.execIdentifyDevice c edge s
  | .identifyNamespace c edge => Sys2Proof.Machine.execIdentifyNamespace c edge s
  | .portSetQuad c edge => Sys2Proof.Machine.execPortSetQuad c edge s
  | .portSetPort c edge => Sys2Proof.Machine.execPortSetPort c edge s
  | .portSetUdpPort c edge => Sys2Proof.Machine.execPortSetUdpPort c edge s
  | .apply c edge => Sys2Proof.Machine.execApply c edge s
  | .compare c edge => Sys2Proof.Machine.execCompare c edge s
  | .copyDone c edge => Sys2Proof.Machine.execCopyDone c edge s
  | .propose c edge => Sys2Proof.Machine.execPropose c edge s
  | .mark c edge => Sys2Proof.Machine.execMark c edge s
  | .proposeCompletion pair status edge => Sys2Proof.Machine.execProposeCompletion pair status edge s
  | .markCompletion pair edge => Sys2Proof.Machine.execMarkCompletion pair edge s
  | .proposeSend pair => Sys2Proof.Machine.execProposeSend pair s
  | .markSend pair => Sys2Proof.Machine.execMarkSend pair s
  | .bulkCopyStep pair reads edge => Sys2Proof.Machine.execBulkCopyStep pair reads edge s
  | .peerLost pair => Sys2Proof.Machine.execPeerLost pair s
  | .sqTail fn ctx value => Sys2Proof.Machine.execSqTail fn ctx value s
  | .cqHead fn ctx value => Sys2Proof.Machine.execCqHead fn ctx value s
  | .adminSqTail fn value => Sys2Proof.Machine.execAdminSqTail fn value s
  | .adminCqHead fn value => Sys2Proof.Machine.execAdminCqHead fn value s
  | .eventHead fn value => Sys2Proof.Machine.execEventHead fn value s
  | .admEnSet fn => Sys2Proof.Machine.execAdmEnSet fn s
  | .admEnClear fn => Sys2Proof.Machine.execAdmEnClear fn s
  | .evtEnSet fn => Sys2Proof.Machine.execEvtEnSet fn s
  | .evtEnClear fn => Sys2Proof.Machine.execEvtEnClear fn s
  | .basinSave => Sys2Proof.Machine.execBasinSave s
  | .glenSave => Sys2Proof.Machine.execGlenSave s
  | .ruleAdd edge => Sys2Proof.Machine.execRuleAdd edge s
  | .ruleRemove edge => Sys2Proof.Machine.execRuleRemove edge s
  | .ruleSetResult edge => Sys2Proof.Machine.execRuleSetResult edge s
  | .holeRestore table => Sys2Proof.Machine.execHoleRestore table s
  | .lockSubmit edge => Sys2Proof.Machine.execLockSubmit edge s
  | .testStart => Sys2Proof.Machine.execTestStart s
  | .testStop elapsedMs results => Sys2Proof.Machine.execTestStop elapsedMs results s
  | .registerWrite fn bar off width value => Sys2Proof.Machine.execRegisterWrite fn bar off width value s
  | .tapInstructionLoad code => Sys2Proof.Machine.execTapInstructionLoad code s
  | .dataRingFetch ctx entries => Sys2Proof.Machine.execDataRingFetch ctx entries s
  | .adminRingFetch fn entries => Sys2Proof.Machine.execAdminRingFetch fn entries s
  | .fetchFailure ring status => Sys2Proof.Machine.execFetchFailure ring status s
  | .dmaDone id result edge => Sys2Proof.Machine.execDmaDone id result edge s
  | .heldTimeout ctx => Sys2Proof.Machine.execHeldTimeout ctx s
  | .grainEdge idle => Sys2Proof.Machine.execGrainEdge idle s
  | .commandTimeout id edge => Sys2Proof.Machine.execCommandTimeout id edge s
  | .gateProceed id => Sys2Proof.Machine.execGateProceed id s
  | .indexUpdateDone id poisoned => Sys2Proof.Machine.execIndexUpdateDone id poisoned s
  | .journalEntryWritten id edge => Sys2Proof.Machine.execJournalEntryWritten id edge s
  | .firstByteReleased id edge => Sys2Proof.Machine.execFirstByteReleased id edge s
  | .bufferGrant pool => Sys2Proof.Machine.execBufferGrant pool s
  | .bufferRelease handle requester edge => Sys2Proof.Machine.execBufferRelease handle requester edge s
  | .waitListTimeout pool => Sys2Proof.Machine.execWaitListTimeout pool s
  | .fetchHoldTimeout => Sys2Proof.Machine.execFetchHoldTimeout s
  | .gorgeWorkUnit fault => Sys2Proof.Machine.execGorgeWorkUnit fault s
  | .entropyTestFailure test => Sys2Proof.Machine.execEntropyTestFailure test s
  | .frameReceive frame => Sys2Proof.Machine.execFrameReceive frame s
  | .requestSegmentReceive frame => Sys2Proof.Machine.execRequestSegmentReceive frame s
  | .pingReceive frame => Sys2Proof.Machine.execPingReceive frame s
  | .pongReceive frame => Sys2Proof.Machine.execPongReceive frame s
  | .ackSend session => Sys2Proof.Machine.execAckSend session s
  | .creditSend session => Sys2Proof.Machine.execCreditSend session s
  | .reassemblyTimeout session seq => Sys2Proof.Machine.execReassemblyTimeout session seq s
  | .keepalivePing session => Sys2Proof.Machine.execKeepalivePing session s
  | .keepaliveExpiry session edge => Sys2Proof.Machine.execKeepaliveExpiry session edge s
  | .frameCounterExhausted session edge => Sys2Proof.Machine.execFrameCounterExhausted session edge s
  | .sessionFree session => Sys2Proof.Machine.execSessionFree session s
  | .sessionOpenResolveTimeout session => Sys2Proof.Machine.execSessionOpenResolveTimeout session s
  | .responseSegmentSend session seq => Sys2Proof.Machine.execResponseSegmentSend session seq s
  | .frameTransmit port late part => Sys2Proof.Machine.execFrameTransmit port late part s
  | .thresholdDecay port => Sys2Proof.Machine.execThresholdDecay port s
  | .controlFrameReceive port frame => Sys2Proof.Machine.execControlFrameReceive port frame s
  | .syncReceive exchange => Sys2Proof.Machine.execSyncReceive exchange s
  | .timeStep => Sys2Proof.Machine.execTimeStep s
  | .announceReceive announce => Sys2Proof.Machine.execAnnounceReceive announce s
  | .announceReceiptTimeout port => Sys2Proof.Machine.execAnnounceReceiptTimeout port s
  | .timePortReturn => Sys2Proof.Machine.execTimePortReturn s
  | .pdelayReqReceive port receiveNs transmitNs correction requester seqId => Sys2Proof.Machine.execPdelayReqReceive port receiveNs transmitNs correction requester seqId s
  | .delayReqSend port => Sys2Proof.Machine.execDelayReqSend port s
  | .ppsInEdge ns => Sys2Proof.Machine.execPpsInEdge ns s
  | .ppsInMissing => Sys2Proof.Machine.execPpsInMissing s
  | .ppsOutEdge => Sys2Proof.Machine.execPpsOutEdge s
  | .timebaseClkFault ppm => Sys2Proof.Machine.execTimebaseClkFault ppm s
  | .holdoverHalf => Sys2Proof.Machine.execHoldoverHalf s
  | .holdoverLimitReached => Sys2Proof.Machine.execHoldoverLimitReached s
  | .calendarStartEdge window edge => Sys2Proof.Machine.execCalendarStartEdge window edge s
  | .calendarEndEdge window edge => Sys2Proof.Machine.execCalendarEndEdge window edge s
  | .idleTimerExpiry power edge => Sys2Proof.Machine.execIdleTimerExpiry power edge s
  | .mapPublishReceive datagram edge => Sys2Proof.Machine.execMapPublishReceive datagram edge s
  | .mapRequestReceive datagram => Sys2Proof.Machine.execMapRequestReceive datagram s
  | .mapPublishTimer => Sys2Proof.Machine.execMapPublishTimer s
  | .mapGatherTimeout => Sys2Proof.Machine.execMapGatherTimeout s
  | .mapSilenceTimeout => Sys2Proof.Machine.execMapSilenceTimeout s
  | .autonegPageReceived port => Sys2Proof.Machine.execAutonegPageReceived port s
  | .linkTrainingDone port taps => Sys2Proof.Machine.execLinkTrainingDone port taps s
  | .c2mLinkUp port taps => Sys2Proof.Machine.execC2mLinkUp port taps s
  | .trainingTimeout port => Sys2Proof.Machine.execTrainingTimeout port s
  | .autonegRestart port => Sys2Proof.Machine.execAutonegRestart port s
  | .linkFault port cause => Sys2Proof.Machine.execLinkFault port cause s
  | .preemptVerifyDone port ok => Sys2Proof.Machine.execPreemptVerifyDone port ok s
  | .lpiEntry port => Sys2Proof.Machine.execLpiEntry port s
  | .powerOn straps => Sys2Proof.Machine.execPowerOn straps s
  | .sysReset straps => Sys2Proof.Machine.execSysReset straps s
  | .pwrGoodLoss => Sys2Proof.Machine.execPwrGoodLoss s
  | .pwrFailNotice edge => Sys2Proof.Machine.execPwrFailNotice edge s
  | .pwrFailRelease => Sys2Proof.Machine.execPwrFailRelease s
  | .holdupOkDeassert => Sys2Proof.Machine.execHoldupOkDeassert s
  | .holdupOkStable => Sys2Proof.Machine.execHoldupOkStable s
  | .temperatureSample celsius => Sys2Proof.Machine.execTemperatureSample celsius s
  | .thermalWarning celsius => Sys2Proof.Machine.execThermalWarning celsius s
  | .thermtrip celsius => Sys2Proof.Machine.execThermtrip celsius s
  | .thermalBackstop => Sys2Proof.Machine.execThermalBackstop s
  | .fatalMemoryFault core addr => Sys2Proof.Machine.execFatalMemoryFault core addr s
  | .perst edge => Sys2Proof.Machine.execPerst edge s
  | .hotReset edge => Sys2Proof.Machine.execHotReset edge s
  | .pcieLinkDown edge => Sys2Proof.Machine.execPcieLinkDown edge s
  | .pcieLinkChange speed width => Sys2Proof.Machine.execPcieLinkChange speed width s
  | .functionLevelReset fn edge => Sys2Proof.Machine.execFunctionLevelReset fn edge s
  | .vfEnableClear edge => Sys2Proof.Machine.execVfEnableClear edge s
  | .d3hotEntry fn => Sys2Proof.Machine.execD3hotEntry fn s
  | .d0Return fn => Sys2Proof.Machine.execD0Return fn s
  | .pcieLoopback enter => Sys2Proof.Machine.execPcieLoopback enter s
  | .fillDone training rom => Sys2Proof.Machine.execFillDone training rom s
  | .rebuildRun findings => Sys2Proof.Machine.execRebuildRun findings s
  | .serviceEntry => Sys2Proof.Machine.execServiceEntry s
  | .activationPreparationDone edge => Sys2Proof.Machine.execActivationPreparationDone edge s
  | .quiesceTimeout => Sys2Proof.Machine.execQuiesceTimeout s
  | .warmRestart rom => Sys2Proof.Machine.execWarmRestart rom s
  | .trialHalfWindow => Sys2Proof.Machine.execTrialHalfWindow s
  | .trialWindowExpiry edge => Sys2Proof.Machine.execTrialWindowExpiry edge s
  | .linkTestQuiesceTimeout => Sys2Proof.Machine.execLinkTestQuiesceTimeout s
  | .linkTestEnd results => Sys2Proof.Machine.execLinkTestEnd results s
  | .programDone slot edge => Sys2Proof.Machine.execProgramDone slot edge s
  | .programFailure slot channel edge => Sys2Proof.Machine.execProgramFailure slot channel edge s
  | .eraseDone channel die block edge => Sys2Proof.Machine.execEraseDone channel die block edge s
  | .eraseFailure channel die block edge => Sys2Proof.Machine.execEraseFailure channel die block edge s
  | .codewordReadDone channel die outcome edge => Sys2Proof.Machine.execCodewordReadDone channel die outcome edge s
  | .xorRebuild id edge => Sys2Proof.Machine.execXorRebuild id edge s
  | .forcedProgramIdle slot => Sys2Proof.Machine.execForcedProgramIdle slot s
  | .forcedProgramWriteThrough slot => Sys2Proof.Machine.execForcedProgramWriteThrough slot s
  | .forcedProgramPool6 => Sys2Proof.Machine.execForcedProgramPool6 s
  | .gcStep reads lost edge => Sys2Proof.Machine.execGcStep reads lost edge s
  | .foldingStep reads lost edge => Sys2Proof.Machine.execFoldingStep reads lost edge s
  | .refreshStep reads lost edge => Sys2Proof.Machine.execRefreshStep reads lost edge s
  | .patrolRead segment channel page reads edge => Sys2Proof.Machine.execPatrolRead segment channel page reads edge s
  | .patrolRateUpdate edge => Sys2Proof.Machine.execPatrolRateUpdate edge s
  | .patrolReread segment channel reads edge => Sys2Proof.Machine.execPatrolReread segment channel reads edge s
  | .patrolCycleEnd edge => Sys2Proof.Machine.execPatrolCycleEnd edge s
  | .checkpointTimer lines edge => Sys2Proof.Machine.execCheckpointTimer lines edge s
  | .retentionSweep edge => Sys2Proof.Machine.execRetentionSweep edge s
  | .metadataMerge logical unit channel die inOrder copyFails => Sys2Proof.Machine.execMetadataMerge logical unit channel die inOrder copyFails s
  | .secureDeleteErase id => Sys2Proof.Machine.execSecureDeleteErase id s
  | .namespaceRemovalDone ns => Sys2Proof.Machine.execNamespaceRemovalDone ns s
  | .rekeySweepStep page reads tagFails edge => Sys2Proof.Machine.execRekeySweepStep page reads tagFails edge s
  | .mergeEntryRetire line cause outcome => Sys2Proof.Machine.execMergeEntryRetire line cause outcome s
  | .scrubRead line outcome => Sys2Proof.Machine.execScrubRead line outcome s
  | .glenScrub bank row copy => Sys2Proof.Machine.execGlenScrub bank row copy s
  | .recorderFlushDone edge => Sys2Proof.Machine.execRecorderFlushDone edge s
  | .settingsStore => Sys2Proof.Machine.execSettingsStore s
  | .healthStore => Sys2Proof.Machine.execHealthStore s
  | .smbusAlertResponse => Sys2Proof.Machine.execSmbusAlertResponse s
  | .setEndpointId eid => Sys2Proof.Machine.execSetEndpointId eid s
  | .getEndpointId => Sys2Proof.Machine.execGetEndpointId s
  | .getMctpVersionSupport type => Sys2Proof.Machine.execGetMctpVersionSupport type s
  | .getMessageTypeSupport => Sys2Proof.Machine.execGetMessageTypeSupport s
  | .getVersion => Sys2Proof.Machine.execGetVersion s
  | .getCapabilities => Sys2Proof.Machine.execGetCapabilities s
  | .negotiateAlgorithms p384 sha384 => Sys2Proof.Machine.execNegotiateAlgorithms p384 sha384 s
  | .getDigests => Sys2Proof.Machine.execGetDigests s
  | .getCertificate slot offset length => Sys2Proof.Machine.execGetCertificate slot offset length s
  | .challenge slot nonce => Sys2Proof.Machine.execChallenge slot nonce s
  | .getMeasurements index nonce => Sys2Proof.Machine.execGetMeasurements index nonce s
  | .vendorDefinedRequest c edge => Sys2Proof.Machine.execVendorDefinedRequest c edge s
  | .getTid => Sys2Proof.Machine.execGetTid s
  | .getPldmVersion type => Sys2Proof.Machine.execGetPldmVersion type s
  | .getPldmTypes => Sys2Proof.Machine.execGetPldmTypes s
  | .getPldmCommands type => Sys2Proof.Machine.execGetPldmCommands type s
  | .getSensorReading sensor => Sys2Proof.Machine.execGetSensorReading sensor s
  | .getStateSensorReadings sensor => Sys2Proof.Machine.execGetStateSensorReadings sensor s
  | .getPdrRepositoryInfo => Sys2Proof.Machine.execGetPdrRepositoryInfo s
  | .getPdr record => Sys2Proof.Machine.execGetPdr record s
  | .receiveLpi port enter => Sys2Proof.Machine.execReceiveLpi port enter s
  | .checkerLock target => Sys2Proof.Machine.execCheckerLock target s
  | .checkerLockLoss target => Sys2Proof.Machine.execCheckerLockLoss target s
  | .entropyStartupTestPass => Sys2Proof.Machine.execEntropyStartupTestPass s
  | .powerStateExitDone => Sys2Proof.Machine.execPowerStateExitDone s
  | .msixVectorUnmask fn vector => Sys2Proof.Machine.execMsixVectorUnmask fn vector s
  | .peerSessionFrameReceive frame edge => Sys2Proof.Machine.execPeerSessionFrameReceive frame edge s
  | .pairMessageRetransmit pair seq => Sys2Proof.Machine.execPairMessageRetransmit pair seq s
  | .secureDeleteRelocationStep id reads edge => Sys2Proof.Machine.execSecureDeleteRelocationStep id reads edge s
  | .perstDeassertion => Sys2Proof.Machine.execPerstDeassertion s
  | .junctionBelowWarning celsius => Sys2Proof.Machine.execJunctionBelowWarning celsius s
  | .lldpTransmit port => Sys2Proof.Machine.execLldpTransmit port s
  | .testDurationEnd results => Sys2Proof.Machine.execTestDurationEnd results s
  | .latchingRead fn bar off width => Sys2Proof.Machine.execLatchingRead fn bar off width s

end Sys2Proof.Machine
end

