-- ==== Sys2Proof/WellFormed.lean ====
section
/-! DEFINITION. Well-formed commands: operands that the outside world can supply, by the ranges of the spec. A command that is not
well-formed names something that the device does not have. -/

namespace Sys2Proof

/-- A number below a bound. -/
def below (bound n : Nat) : Bool := decide (n < bound)

/-- The memory of a submission: extents that are not empty, in rising order, none reaching into the next (R75). -/
def areaWf : Area → Bool
  | [] => true
  | [e] => !e.2.isEmpty
  | e :: f :: rest => !e.2.isEmpty && decide (e.1 + e.2.length ≤ f.1) && areaWf (f :: rest)

/-- Queue contexts and sessions are numbered to 4,095, functions to 63 (R6, R82). -/
def Carrier.wf : Carrier → Bool
  | .ring ctx => below 4096 ctx
  | .admin fn => below 64 fn
  | .wire session _ => below 4096 session
  | .mgmt => true

/-- As for a carrier. -/
def RingId.wf : RingId → Bool
  | .data ctx => below 4096 ctx
  | .admin fn => below 64 fn

/-- A submission on a carrier there is, with a well-formed memory. -/
def Submission.wf (c : Submission) : Bool := c.carrier.wf && areaWf c.area

/-- Pools 0 to 7; a generation takes 8 bits (R187). -/
def Handle.wf (h : Handle) : Bool := below 8 h.pool && below 256 h.gen

/-- Classes 0 to 5; admin rings count as 4,096 + function (R187). -/
def OwnerTag.wf (o : OwnerTag) : Bool := below 6 o.cls && below 4160 o.number

/-- Sixteen ports; a VID takes 12 bits. -/
def RxFrame.wf (f : RxFrame) : Bool := below 16 f.port && f.tag.all (below 4096) && below 65536 f.etherType && below 3 f.layers.version

/-- As for a frame. -/
def LfFrame.wf (f : LfFrame) : Bool := below 16 f.port && f.vlan.all (below 4096)

/-- A map datagram on a port, its number fields within their widths (R309). -/
def MapDatagram.wf (d : MapDatagram) : Bool :=
  below 16 d.port && below 256 d.type && below 256 d.version && below (2 ^ 32) d.epoch && below (2 ^ 64) d.mapStamp

/-- Four channels of one or two ranks, lines of 128 bytes (R264, R268). -/
def DramLine.wf (l : DramLine) : Bool := below 4 l.channel && below 2 l.rank && decide (l.addr % 128 = 0)

/-- A line has 160 symbols (R267). -/
def LineOutcome.wf : LineOutcome → Bool
  | .corrected positions => positions.all (below 160)
  | _ => true

/-- The populations of R264: the density codes are 16, 24, 32 and 64 Gb. -/
def DramTraining.wf (t : DramTraining) : Bool :=
  below 4 t.density && decide (1 ≤ t.ranks ∧ t.ranks ≤ if t.density = 3 then 1 else 2) && t.fail.all fun e => below 4 e.1

/-- Read levels run from 0 to 7 (R236). -/
def CodewordOutcome.wf : CodewordOutcome → Bool
  | .hard level _ | .soft level => below 8 level
  | .failed => true

/-- One to four chip enables of 1, 2 or 4 LUNs on 32 channels, die indices below their product (R216). -/
def NandPopulation.wf (p : NandPopulation) : Bool :=
  decide (1 ≤ p.ces ∧ p.ces ≤ 4) && (p.luns == 1 || p.luns == 2 || p.luns == 4) && p.present.all (below (p.ces * p.luns)) &&
  p.failedCh.all (below 32) && p.refused.all (fun e => below 32 e.1 && below 16 e.2.1) &&
  p.bad.all fun e => below 32 e.1 && below 16 e.2.1 && below p.blocks e.2.2

/-- What a rebuild finds: a population, and a scan cause of R252. -/
def RebuildFindings.wf (f : RebuildFindings) : Bool := f.nand.wf && below 6 f.scanCause

/-- Sixteen cipher pairs (R295). -/
def CipherFault.wf : CipherFault → Bool
  | .laneMismatch pairs => pairs.all (below 16)
  | _ => true

/-- A well-formed command. -/
def wellFormed : Instr → Bool
  | .get c _ | .getAsOf c _ | .versions c _ | .enumerate c _ | .put c _ | .putIf c _ | .delete c _ | .deleteSecure c _
  | .batch c _ | .touch c _ | .flush c _ | .abort c _ | .nop c _ | .queueCreate c _ | .queueDelete c _ | .queueReset c _
  | .namespaceSet c _ | .namespaceDelete c _ | .keyPageLoadLoad c _ | .keyPageLoadKek c _ | .keyPageRetire c _
  | .sessionOpen c _ | .sessionClose c _ | .healthGet c _ | .timeGet c _ | .scheduleSet c _ | .holdSet c _
  | .holdRelease c _ | .timeSetConfigure c _ | .timeSetSetTod c _ | .timeSetReadmit c _ | .recordReadRecords c _
  | .recordReadPages c _ | .recordClear c _ | .fwDownload c _ | .fwActivate c _ | .fwStatus c _ | .fwConfirm c _
  | .roleSet c _ | .mapSetIdentity c _ | .mapSetMap c _ | .pairStart c _ | .pairEndCancel c _ | .pairEndKeepSource c _
  | .pairEndKeepTarget c _ | .linkTest c _ | .identifyDevice c _ | .identifyNamespace c _ | .portSetQuad c _
  | .portSetPort c _ | .portSetUdpPort c _ | .apply c _ | .compare c _ | .copyDone c _ | .propose c _ | .mark c _ => c.wf
  | .proposeCompletion pair _ _ | .markCompletion pair _ | .proposeSend pair | .markSend pair 
  | .peerLost pair => below 1024 pair
  | .bulkCopyStep pair reads _ => below 1024 pair && reads.all CodewordOutcome.wf
  | .sqTail fn ctx _ | .cqHead fn ctx _ => below 64 fn && below 4096 ctx
  | .adminSqTail fn _ | .adminCqHead fn _ | .eventHead fn _ | .admEnSet fn | .admEnClear fn | .evtEnSet fn
  | .evtEnClear fn => below 64 fn
  | .basinSave | .glenSave | .ruleAdd _ | .ruleRemove _ | .ruleSetResult _ => true
  | .holeRestore table => below 2 table
  | .lockSubmit _ | .testStart => true
  | .testStop _ results => results.all (fun r => below 65536 r.target)
  | .registerWrite fn bar _ width _
    => below 64 fn && (bar == 0 || bar == 2 || bar == 4) && (width == 1 || width == 2 || width == 4 || width == 8)
  | .tapInstructionLoad _ => true
  | .dataRingFetch ctx entries => below 4096 ctx && entries.all (fun e => areaWf e.2)
  | .adminRingFetch fn entries => below 64 fn && entries.all (fun e => areaWf e.2)
  | .fetchFailure ring _ => ring.wf
  | .dmaDone _ _ _ => true
  | .heldTimeout ctx => below 4096 ctx
  | .grainEdge _ | .commandTimeout _ _ | .gateProceed _ | .indexUpdateDone _ _ | .journalEntryWritten _ _
  | .firstByteReleased _ _ => true
  | .bufferGrant pool => below 8 pool
  | .bufferRelease handle requester _ => handle.wf && requester.wf
  | .waitListTimeout pool => below 8 pool
  | .fetchHoldTimeout => true
  | .gorgeWorkUnit fault => fault.wf
  | .entropyTestFailure test => below 2 test
  | .frameReceive frame | .requestSegmentReceive frame | .pingReceive frame | .pongReceive frame => frame.wf
  | .ackSend session | .creditSend session | .reassemblyTimeout session _ | .keepalivePing session
  | .keepaliveExpiry session _ | .frameCounterExhausted session _ | .sessionFree session
  | .sessionOpenResolveTimeout session | .responseSegmentSend session _ => below 4096 session
  | .frameTransmit port _ _ | .thresholdDecay port | .controlFrameReceive port _ => below 16 port
  | .syncReceive exchange => below 16 exchange.port
  | .timeStep => true
  | .announceReceive announce => below 16 announce.port
  | .announceReceiptTimeout port => below 16 port
  | .timePortReturn => true
  | .pdelayReqReceive port _ _ _ _ _ | .delayReqSend port => below 16 port
  | .ppsInEdge _ | .ppsInMissing | .ppsOutEdge | .timebaseClkFault _ | .holdoverHalf | .holdoverLimitReached => true
  | .calendarStartEdge window _ | .calendarEndEdge window _ => below 32 window
  | .idleTimerExpiry power _ => decide (1 ≤ power) && below 4 power
  | .mapPublishReceive datagram _ | .mapRequestReceive datagram => datagram.wf
  | .mapPublishTimer | .mapGatherTimeout | .mapSilenceTimeout => true
  | .autonegPageReceived port | .linkTrainingDone port _ | .c2mLinkUp port _ | .trainingTimeout port
  | .autonegRestart port | .linkFault port _ | .preemptVerifyDone port _ | .lpiEntry port => below 16 port
  | .powerOn _ | .sysReset _ | .pwrGoodLoss | .pwrFailNotice _ | .pwrFailRelease | .holdupOkDeassert | .holdupOkStable
  | .temperatureSample _ | .thermalWarning _ | .thermtrip _ | .thermalBackstop | .fatalMemoryFault _ _ | .perst _
  | .hotReset _ | .pcieLinkDown _ => true
  | .pcieLinkChange speed width => below 6 speed && below 17 width
  | .functionLevelReset fn _ => below 64 fn
  | .vfEnableClear _ => true
  | .d3hotEntry fn | .d0Return fn => below 64 fn
  | .pcieLoopback _ => true
  | .fillDone training _ => training.wf
  | .rebuildRun findings => findings.wf
  | .serviceEntry | .activationPreparationDone _ | .quiesceTimeout | .warmRestart _ | .trialHalfWindow
  | .trialWindowExpiry _ | .linkTestQuiesceTimeout => true
  | .linkTestEnd results => results.all (fun r => below 65536 r.target)
  | .programDone slot _ => below 66 slot
  | .programFailure slot channel _ => below 66 slot && below 32 channel
  | .eraseDone channel die _ _ | .eraseFailure channel die _ _ => below 32 channel && below 16 die
  | .codewordReadDone channel die outcome _ => below 32 channel && below 16 die && outcome.wf
  | .xorRebuild _ _ => true
  | .forcedProgramIdle slot | .forcedProgramWriteThrough slot => below 66 slot
  | .forcedProgramPool6 => true
  | .gcStep reads _ _ | .foldingStep reads _ _ | .refreshStep reads _ _ => reads.all CodewordOutcome.wf
  | .patrolRead _ channel _ reads _ => below 32 channel && reads.length == 4 && reads.all CodewordOutcome.wf
  | .patrolReread _ channel reads _ => below 32 channel && reads.all CodewordOutcome.wf
  | .patrolRateUpdate _ | .patrolCycleEnd _ | .retentionSweep _ => true
  | .checkpointTimer lines _ => lines.all fun l => l.1.wf && l.2.wf
  | .metadataMerge _ _ channel die _ _ => below 32 channel && below 16 die
  | .secureDeleteErase _ => true
  | .namespaceRemovalDone ns => below 1024 ns
  | .rekeySweepStep page reads _ _ => below 256 page && reads.all CodewordOutcome.wf
  | .mergeEntryRetire line _ outcome | .scrubRead line outcome => line.wf && outcome.wf
  | .glenScrub bank _ _ => below 64 bank
  | .recorderFlushDone _ | .settingsStore | .healthStore | .smbusAlertResponse | .setEndpointId _ | .getEndpointId
  | .getMctpVersionSupport _ | .getMessageTypeSupport | .getVersion | .getCapabilities | .negotiateAlgorithms _ _
  | .getDigests => true
  | .getCertificate slot _ _ | .challenge slot _ => below 8 slot
  | .getMeasurements _ _ => true
  | .vendorDefinedRequest c _ => c.wf
  | .getTid | .getPldmVersion _ | .getPldmTypes | .getPldmCommands _ | .getSensorReading _ | .getStateSensorReadings _
  | .getPdrRepositoryInfo | .getPdr _ => true
  | .receiveLpi port _ => below 16 port
  | .checkerLock target | .checkerLockLoss target => below 65536 target
  | .entropyStartupTestPass | .powerStateExitDone => true
  | .msixVectorUnmask fn vector => below 64 fn && below (if fn = 0 then 2048 else 32) vector
  | .peerSessionFrameReceive frame _ => below 1024 frame.pair
  | .pairMessageRetransmit pair _ => below 1024 pair
  | .secureDeleteRelocationStep _ reads _ => reads.all CodewordOutcome.wf
  | .perstDeassertion | .junctionBelowWarning _ => true
  | .lldpTransmit port => below 16 port
  | .testDurationEnd results => results.all (fun r => below 65536 r.target)
  | .latchingRead fn bar _ width
    => below 64 fn && (bar == 0 || bar == 2 || bar == 4) && (width == 1 || width == 2 || width == 4 || width == 8)

/-- A well-formed command, as a proposition. -/
abbrev WellFormed (i : Instr) : Prop := wellFormed i = true

end Sys2Proof
end

