-- ==== Sys2Proof/Safety.lean ====
section
/-! DEFINITION. What counts as a safe run (no step of it faults), and the states that the claims speak of: a calm one, in which no
command, pair, test or hold waits for anything, and a queue of well-formed commands. -/

namespace Sys2Proof

open Machine

/-- No one of the first `k` steps from a state faults or is refused. -/
def SafeFor : Nat → Machine.State → Prop
  | 0, _ => True
  | k + 1, s => match Machine.step s with
    | .next t => SafeFor k t
    | _ => False

/-- The state after `k` steps, if every one of them answers a next state. -/
def runFor : Nat → Machine.State → Option Machine.State
  | 0, s => some s
  | k + 1, s => match Machine.step s with
    | .next t => runFor k t
    | _ => none

/-- A command acts: its step answers the state that its effect leaves, once what follows of itself has followed; the queue is the
step's own. -/
def Acts (c : Instr) (s u : Machine.State) : Prop := Machine.exec c s = .next (s.keepQueue u.finish)

/-- A command arrives and the edge of its grain follows at once: what has arrived is stamped, and the grain ends. -/
def ActsAtEdge (c : Instr) (s u : Machine.State) : Prop := Machine.exec c s = .next (s.keepQueue u.grainEdge)

/-- A command whose arrival Col stamps: it reaches the intake, where it waits for a later edge, or has its grain's edge at once. -/
def Arrives (c : Bool → Instr) (s u : Machine.State) : Prop :=
  Acts (c false) s u ∧ (s.time.running = true → s.nextGrain < Config.maxGrain → ActsAtEdge (c true) s u)

/-- Nothing waits: no command and no internal requester's step is in flight, no pair exists, no lost record is listed, no test runs,
buffers of pool 0 are free above the reserve at which fetching stops (R194), HELD of every ring is up to date, and no die has work to take. -/
structure Calm (s : Machine.State) : Prop where
  works : s.works = []
  pairs : s.cluster.pairs = []
  lost  : s.delta.lostList = []
  run   : s.test.run = none
  hold  : s.host.fetchHold = none
  room  : s.fetchReserve < (s.pool 0).free
  rings : s.holdRings = s
  steps : s.delta.steps = []
  dies  : s.mediaOps = []

/-- The rest of a grain behind the event that was stamped first: what this event brought into the same grain is stamped behind it, and
the grain ends. -/
def restOfGrain (grain : Nat) (t : Machine.State) : Machine.State :=
  let r := Machine.State.stampAll grain (Config.slotsPerGrain - 1) (t.mergeNew []).1 (t.mergeNew []).2
  (((r.1.updCol fun c => { c with carry := r.2 }).countCarry r.2.length).closeGrain).passEdge grain

/-- The state in which the only event of a grain has its effect: the grain's slot 0 is the latest stamp. -/
def atSlotZero (s : Machine.State) : Machine.State := s.updCol fun c => { c with last := stampOf s.grain 0 }

/-- A command whose effect at its stamp, the first of the grain, leaves the state `t`: its step answers what the rest of the grain makes
of that. -/
def Executes (c : Instr) (s t : Machine.State) : Prop := Machine.exec c s = .next (s.keepQueue (restOfGrain s.grain t))

/-- An arrival at its stamp, where it passes every check that stands before the execution of its command (R43, R79): the state in which it
executes and its work record; none where a check refuses it. -/
def atStamp (x : Machine.State) (a : Arrival) (st : Stamp) : Option (Machine.State × Machine.Work) :=
  let y := (x.takeIn a).1
  let fn := x.actsFor a.c.carrier
  let held (w : Machine.Work) : Machine.Work :=
    { w with pos := a.pos, handles := (x.takeIn a).2, dropped := a.dropped, muted := a.muted, exit := y.host.power != 0 }
  if y.stands a.c.carrier then
    match y.firstChecks a.c fn st with
    | (_, some _) => none
    | (z, none) =>
      if Machine.isAdminOp a.c.desc.opcode.toNat then some (z, held (a.c.work fn st .admin))
      else match z.dataChecks a.c fn st with
        | (_, .error _) => none
        | (v, .ok w) => some (v, held w)
  else none

/-- A command is the only one that its grain stamps, and passes its checks: in the state `b`, as the work `w`. An admin command's
namespace, value length and flags are good (R43), and no earlier command of its context holds it back. -/
structure Alone (s : Machine.State) (c : Submission) (b : Machine.State) (w : Machine.Work) : Prop where
  powered : s.powered = true
  running : s.time.running = true
  room    : s.nextGrain < Config.maxGrain
  stamped : ∃ a : Arrival, a.c = c ∧ (s.submit c).col.intake = [.cmd a] ∧ (s.submit c).col.carry = [] ∧ (s.submit c).grain = s.grain ∧
    (s.submit c).powered = true ∧
    atStamp ((s.submit c).updCol fun k => { k with intake := [], carry := [], last := stampOf s.grain 0 }) a (stampOf s.grain 0) = some (b, w)
  fields  : Machine.isAdminOp w.op = true → b.adminFail w.sub = none
  free    : b.orderHeld w = false

/-- Every waiting command is well-formed. -/
def QueueWf (s : Machine.State) : Prop := ∀ c ∈ s.pending, WellFormed c

end Sys2Proof
end

