-- ==== Sys2Proof/Certificates/Slice0/Obligations.lean ====
section
/-! DEFINITION. The statements for the provers: what the block does, command family by command family, from the spec's numbered
rules. -/

open Sys2Proof Sys2Proof.Machine

/-! ## The step, the queue, and data that the block spells -/

/-- A step takes the command at the front of the queue and runs it on the state with the queue's rest. -/
def Obligations.StepRunsFront : Prop :=
  ∀ (c : Instr) (rest : List Instr) (s : State), step (s.setPending (c :: rest)) = exec c (s.setPending rest)

/-- With no command waiting the block idles (log entry 11: the model's choice). No command reaches the queue: what the exec of a command
answers has the queue that it was given. Steps take the waiting commands in order: after as many steps as commands stand in front, exactly
these are gone. -/
def Obligations.QueueIsFirstInFirstOut : Prop :=
  (∀ s : State, s.pending = [] → step s = .next s) ∧
  (∀ (c : Instr) (s t : State), exec c s = .next t → t.pending = s.pending) ∧
  (∀ (l r : List Instr) (s t : State), s.pending = l ++ r → runFor l.length s = some t → t.pending = r)

/-- Every step keeps a queue of well-formed commands. -/
def Obligations.QueueWfKept : Prop :=
∀ s t : State, QueueWf s → step s = .next t → QueueWf t

/-- Every command answers: none is refused, and the one fault stands for a grain number beyond 52 bits, in a block whose time counter or
firmware runs and by a row that passes to a later grain, past a step of the time that is due at the edge. Once the power-fail flush has run, nothing but a reset, the release of PWR_FAIL#
and the two temperature limits acts. -/
def Obligations.EveryCommandAnswers : Prop :=
  (∀ (c : Instr) (s : State), (∀ r : Refusal, exec c s ≠ .refused r) ∧
     (∀ f : Fault, exec c s = .fault f → f = .grainNumberExhausted ∧ s.powered = true ∧ (s.time.running = true ∨ s.mode.running = true) ∧
       (2 ^ 52 ≤ s.nextGrain ∨ ∃ n : Nat, c = .grainEdge n ∧ 2 ^ 52 ≤ s.nextGrain + n))) ∧
  (∀ (c : Instr) (s : State), s.pins.pwrFail = true → (∀ x, c ≠ .powerOn x) → (∀ x, c ≠ .sysReset x) → c ≠ .pwrFailRelease →
     (∀ x, c ≠ .thermtrip x) → c ≠ .thermalBackstop → exec c s = .next s)

/-- The block after reset: FILL, the time counter stopped at grain 0 and time UNLOCKED, no command in flight or at Col's intake, no virtual
function, every function page at its reset values, no ring, namespace, key, hold point, session or pair, every port and quad as after reset,
no test, and the settings, as written and as in force, at the reset values of their register tables. Its queue is one of well-formed
commands and its SPI NOR has the canonical form. -/
def Obligations.ResetState : Prop :=
  ∃ s : State, s = State.reset ∧ QueueWf s ∧ Memory.wf s.spi.mem = true ∧
    s.mode = .fill ∧ s.time.quality = .unlocked ∧ s.time.running = false ∧ s.grain = 0 ∧ s.works = [] ∧ s.col.intake = [] ∧
    s.host.vfs = 0 ∧ s.host.rings = [] ∧ (∀ f : Nat, s.fn f = {}) ∧ s.index.spaces = [] ∧ s.index.keys = [] ∧ s.index.holds = [] ∧
    s.wire.sessions = [] ∧ (∀ p : Nat, s.port p = {}) ∧ s.ports.quads = [255, 255, 255, 255] ∧ s.cluster.pairs = [] ∧
    s.test.run = none ∧ s.test.direct = none ∧
    (∀ t ∈ ([s.written, s.inForce] : List Settings), t.gcCtrl = 0 ∧ t.slcCtrl = 0 ∧ t.patrol = 7 ∧ t.refresh = 96 ∧ t.remap = 4 ∧
      t.device = 8 ∧ t.scrub = 24 ∧ t.holeLog = 4 ∧ t.rxReserve = 1024 ∧ t.fetchReserve = 256 ∧ t.power = 0 ∧ t.window = 600)

/-- The descriptor codec agrees both ways: the 64 bytes of a descriptor spell it, and 64 bytes are those of the descriptor that they spell,
whatever every field holds. -/
def Obligations.DescriptorRoundTrip : Prop :=
  (∀ d : Descriptor, d.bytes.length = 64 ∧ Descriptor.ofBytes d.bytes = d) ∧
  (∀ b : Bytes, b.length = 64 → (Descriptor.ofBytes b).bytes = b) ∧
  (∀ (d : Descriptor) (w : BitVec 512), Descriptor.ofWord d.toWord = d ∧ (Descriptor.ofWord w).toWord = w)

/-- The SPI NOR's bytes: a write, an erase and a copy keep the canonical form; what is written reads back and every other byte stays, an
erased range reads 0xFF, and a copy reads as its source did. -/
def Obligations.SpiNorBytes : Prop :=
  ∀ (m : List Host.Cell) (a n k : Nat) (b : Bytes), Memory.wf m = true →
    (Memory.wf (spiWrite m a b) = true ∧
      spiByte (spiWrite m a b) k = if a ≤ k ∧ k < a + b.length then b.getD (k - a) 0 else spiByte m k) ∧
    (Memory.wf (spiErase m a n) = true ∧ spiByte (spiErase m a n) k = if a ≤ k ∧ k < a + n then 0xFF else spiByte m k) ∧
    (∀ src : Nat, Memory.wf (spiCopy m a src n) = true ∧
      spiByte (spiCopy m a src n) k = if a ≤ k ∧ k < a + n then spiByte m (k - a + src) else spiByte m k)

/-- What a read sees of a key, whose versions stand newest first: the version with the greatest stamp at or below the bound, if it is not a
tombstone, not expired at the grain and not marked by an earlier DELETE_SECURE; otherwise the reason and the stamp that R55 and R67 name. -/
def Obligations.ReadsSeeTheNewestVersion : Prop :=
  ∀ (vs : List Version) (bound grain st : Nat), vs.Pairwise (fun a b => b.stamp < a.stamp) →
    (∀ v : Version, look vs bound grain st = .found v ↔ v ∈ vs ∧ v.stamp ≤ bound ∧ (∀ w ∈ vs, w.stamp ≤ bound → w.stamp ≤ v.stamp) ∧
      v.kind ≠ .tombstone ∧ (v.expiry = 0 ∨ grain < v.expiry) ∧ (v.secured = 0 ∨ st ≤ v.secured)) ∧
    (look vs bound grain st = .missing 0 0 ↔ ∀ v ∈ vs, bound < v.stamp) ∧
    (∀ v ∈ vs, v.stamp ≤ bound → (∀ w ∈ vs, w.stamp ≤ bound → w.stamp ≤ v.stamp) →
      (v.secured ≠ 0 → v.secured < st → look vs bound grain st = .missing 3 v.secured) ∧
      (v.secured = 0 ∨ st ≤ v.secured → v.kind = .tombstone → look vs bound grain st = .missing 1 v.stamp) ∧
      (v.secured = 0 ∨ st ≤ v.secured → v.kind ≠ .tombstone → v.expiry ≠ 0 → v.expiry ≤ grain →
        look vs bound grain st = .missing 2 v.stamp)) ∧
    (∀ (s : State) (ns a : Nat), (s.asOfFail ns a st = some (.futureStamp, 0) ↔ st < a) ∧
      (s.asOfFail ns a st = some (.beyondHorizon, 0) ↔ a ≤ st ∧ a ∉ s.holdsOf ns ∧ a < s.answerFrom ns (grainOf st)) ∧
      (s.asOfFail ns a st = none ↔ a ≤ st ∧ (a ∈ s.holdsOf ns ∨ s.answerFrom ns (grainOf st) ≤ a)))

/-- A completion is one 32-byte entry at its ring's tail, with the tag, the status, the ring's fetch index as the submission head and the
ring's phase; the tail then moves on, and where it wraps to 0 the phase inverts. The ring's vector is signalled if it asks for that. A
function in D3hot posts nothing and holds the completion. -/
def Obligations.CompletionsPost : Prop :=
  ∀ (s : State) (ctx : Nat) (r : Ring) (tag : BitVec 16) (res : Result), s.ring? ctx = some r →
    (∀ c : Completion, c.bytes.length = 32) ∧
    ((s.fn r.fn).d3hot = false → ∃ t : State, s.postRing (.data ctx) r.fn tag res = t ∧
      t.out = .completion (.data ctx) r.cqTail { tag := tag, head := r.fetch, phase := r.phase, result := res } :: s.out ∧
      t.ring? ctx = some { r with cqTail := (r.cqTail + 1) % r.cqLen, posted := r.posted + 1, fetched := r.fetched - 1
                                  phase := if r.cqTail + 1 = r.cqLen then !r.phase else r.phase } ∧
      (r.intr = true → r.vector ∈ (t.fn r.fn).signal) ∧ (∀ n, n ≠ ctx → t.ring? n = s.ring? n) ∧
      t = { s with host := t.host, out := t.out }) ∧
    ((s.fn r.fn).d3hot = true → s.postRing (.data ctx) r.fn tag res =
      s.updFn r.fn fun x => { x with heldBack := x.heldBack ++ [.post (some ctx) tag res] })

/-! ## The management path (R338 to R341, R401) -/

/-- MCTP control is answered from BOOT onward: the endpoint ID is set and reported, and the four message types are supported. Nothing but
the endpoint ID and the response changes. A read of the Alert Response Address is answered with 0x32 and releases SMB_ALERT#. PLDM from
REBUILD onward: terminus ID, versions, types 0 and 2, the sensors 1 to 7 and the PDR repository; a reading changes nothing but the
free-value counter of the estimated power. -/
def Obligations.ManagementAnswers : Prop :=
  (∀ s : State, s.mctpServes = true →
     (∀ eid : BitVec 8, eid = 0 ∨ eid = 0xFF → Acts (.setEndpointId eid) s (s.emit (.mgmt [0, 1, 2]))) ∧
     (∀ eid : BitVec 8, eid ≠ 0 → eid ≠ 0xFF →
       Acts (.setEndpointId eid) s ({ s with mgmt := { s.mgmt with eid := eid } }.emit (.mgmt [0, 1, 0, 0, eid, 0]))) ∧
     Acts .getEndpointId s (s.emit (.mgmt [0, 2, 0, s.mgmt.eid, 0, 0])) ∧
     (∀ type : BitVec 8, type ∈ ([0x00, 0x01, 0x05, 0x7E, 0xFF] : Bytes) →
       Acts (.getMctpVersionSupport type) s (s.emit (.mgmt ([0, 4, 0, 1] ++ leBytes 4 (Config.mctpVersion type).toNat)))) ∧
     (∀ type : BitVec 8, type ∉ ([0x00, 0x01, 0x05, 0x7E, 0xFF] : Bytes) →
       Acts (.getMctpVersionSupport type) s (s.emit (.mgmt [0, 4, 0x80]))) ∧
     Acts .getMessageTypeSupport s (s.emit (.mgmt [0, 5, 0, 4, 0x00, 0x01, 0x05, 0x7E])) ∧
     (s.mgmt.alert = true → Acts .smbusAlertResponse s ({ s with mgmt := { s.mgmt with alert := false } }.emit (.mgmt [0x32])))) ∧
  (∀ s : State, s.firmwareServes = true →
     Acts .getTid s (s.emit (.mgmt [1, 2, 0, Config.tid])) ∧
     (∀ type : Nat, type = 0 ∨ type = 2 →
       Acts (.getPldmVersion type) s (s.emit (.mgmt ([1, 3, 0] ++ leBytes 4 (Config.pldmVersion type).toNat)))) ∧
     (∀ type : Nat, type ≠ 0 → type ≠ 2 → Acts (.getPldmVersion type) s (s.emit (.mgmt [1, 3, 0x83]))) ∧
     Acts .getPldmTypes s (s.emit (.mgmt ([1, 4, 0] ++ leBytes 8 5))) ∧
     Acts (.getPldmCommands 0) s (s.emit (.mgmt ([1, 5, 0] ++ leBytes 32 0x3C))) ∧
     Acts (.getSensorReading 1) s
       (s.emit (.mgmt ([1, 0x11, 0] ++ leBytes 1 (if 120 ≤ s.pins.temperature then 3 else if 105 ≤ s.pins.temperature then 2
         else if 100 ≤ s.pins.temperature then 1 else 0) ++ leBytes 2 (twos 16 s.pins.temperature)))) ∧
     Acts (.getSensorReading 2) s ({ s with free := s.free + 1 }.emit (.mgmt ([1, 0x11, 0, 0] ++ leBytes 2 (Config.powerEstimate s.free)))) ∧
     Acts (.getSensorReading 6) s (s.emit (.mgmt ([1, 0x11, 0, 0] ++ leBytes 2 s.sparePercent))) ∧
     Acts (.getSensorReading 7) s (s.emit (.mgmt ([1, 0x11, 0, 0] ++ leBytes 2 s.wearPercent))) ∧
     Acts (.getStateSensorReadings 3) s (s.emit (.mgmt ([1, 0x21, 0] ++ leBytes 1 s.mode.code))) ∧
     Acts (.getStateSensorReadings 4) s (s.emit (.mgmt ([1, 0x21, 0] ++ leBytes 1 s.time.quality.code))) ∧
     Acts (.getStateSensorReadings 5) s (s.emit (.mgmt ([1, 0x21, 0] ++ leBytes 1 (if s.pins.holdupStable then 1 else 0)))) ∧
     Acts .getPdrRepositoryInfo s (s.emit (.mgmt ([1, 0x50, 0] ++ leBytes 4 Config.pdrCount))) ∧
     (∀ record : Nat, Acts (.getPdr record) s (s.emit (.mgmt ([1, 0x51, 0] ++ Config.pdr record)))))

/-- The opening of an SPDM exchange: version 1.2 only, then capabilities, then ECDSA P-384 with SHA-384; a request out of order gets ERROR
UnexpectedRequest (code 4), a choice of other algorithms ERROR InvalidRequest (code 1). Only the exchange and the response change. After the
opening, the responder gives the digest and the chain of slot 0, and answers a challenge of slot 0 and a measurement with the signed
response of the model (State.spdmSigned) over its body; another slot, an offset past the chain and an index that is not present get ERROR
InvalidRequest (code 1). -/
def Obligations.SpdmAnswers : Prop :=
  (∀ s : State, s.firmwareServes = true →
     Acts .getVersion s ({ s with mgmt := { s.mgmt with spdm := 1, transcript := [0x04, 1, 0x00, 0x12] } }.emit
       (.mgmt [5, 0x04, 1, 0x00, 0x12])) ∧
     (∀ body : Bytes, 1 ≤ s.mgmt.spdm → body = [Config.spdmExponent] ++ leBytes 4 0x16 ++ leBytes 4 4224 ++ leBytes 4 4224 →
       Acts .getCapabilities s ({ s with mgmt := { s.mgmt with spdm := 2, transcript := s.mgmt.transcript ++ 0x61 :: body } }.emit
         (.mgmt (5 :: 0x61 :: body)))) ∧
     (∀ body : Bytes, 2 ≤ s.mgmt.spdm → body = [1] ++ leBytes 4 4 ++ leBytes 4 0x80 ++ leBytes 4 2 →
       Acts (.negotiateAlgorithms true true) s
         ({ s with mgmt := { s.mgmt with spdm := 3, transcript := s.mgmt.transcript ++ 0x63 :: body } }.emit (.mgmt (5 :: 0x63 :: body)))) ∧
     (∀ p384 sha384 : Bool, 2 ≤ s.mgmt.spdm → (p384 && sha384) = false →
       Acts (.negotiateAlgorithms p384 sha384) s (s.emit (.mgmt [5, 0x7F, 1]))) ∧
     (s.mgmt.spdm = 0 → Acts .getCapabilities s (s.emit (.mgmt [5, 0x7F, 4]))) ∧
     (∀ p384 sha384 : Bool, s.mgmt.spdm < 2 → Acts (.negotiateAlgorithms p384 sha384) s (s.emit (.mgmt [5, 0x7F, 4])))) ∧
  (∀ s : State, s.firmwareServes = true → 3 ≤ s.mgmt.spdm →
     Acts .getDigests s (s.spdm 0x01 (1 :: beBytes 48 (Config.sha384 s.chainBytes).toNat)) ∧
     (∀ off n : Nat, off < s.chainBytes.length →
       Acts (.getCertificate 0 off n) s
         (s.spdm 0x02 (leBytes 1 0 ++ leBytes 2 (slice s.chainBytes off (min n (s.chainBytes.length - off))).length ++
           leBytes 2 (s.chainBytes.length - off - (slice s.chainBytes off (min n (s.chainBytes.length - off))).length) ++
           slice s.chainBytes off (min n (s.chainBytes.length - off))))) ∧
     (∀ slot off n : Nat, slot ≠ 0 ∨ s.chainBytes.length ≤ off → Acts (.getCertificate slot off n) s (s.emit (.mgmt [5, 0x7F, 1]))) ∧
     (∀ nonce : BitVec 256, Acts (.challenge 0 nonce) s (s.spdmSigned 0x03 nonce (0 :: 1 :: beBytes 48 (Config.sha384 s.chainBytes).toNat))) ∧
     (∀ (slot : Nat) (nonce : BitVec 256), slot ≠ 0 → Acts (.challenge slot nonce) s (s.emit (.mgmt [5, 0x7F, 1]))) ∧
     (∀ (i : Nat) (nonce : BitVec 256) (b : Bytes), i ≠ 0xFF → s.measurement i = some b →
       Acts (.getMeasurements i nonce) s (s.spdmSigned 0x60 nonce (leBytes 1 1 ++ measurementBlock i b))) ∧
     (∀ (i : Nat) (nonce : BitVec 256), i ≠ 0xFF → s.measurement i = none → Acts (.getMeasurements i nonce) s (s.emit (.mgmt [5, 0x7F, 1]))))

/-! ## Doorbells, ring enables and registers (R5, R105 to R117, R390 to R392) -/

/-- A tail doorbell of a live ring below the ring's length publishes its entries and begins the exit from a power state; any other value is
discarded, counted and reported with kind 2, and a page of a context that is not bound to the accessing function counts as a bad access. An
access shows its function enabled (log entry 15). Below, `u` is the state with that shown. Head doorbells: the current head has no effect; a
head further on returns that many posted slots and, as every doorbell, begins the exit (R124); a head that would return slots that Ranegal has not posted is discarded, counted and
reported under R109, with kind 3. What a discarded doorbell and a discarded access leave: the function's count goes up by one, source 97 is
raised toward the function with function, context, kind and value, and nothing changes but the functions' pages, the events and the
recorder. -/
def Obligations.Doorbells : Prop :=
  (∀ (s u : State) (fn : Nat) (value : BitVec 32), s.powered = true → s.mode.running = true → u = s.fnSeen fn →
     (∀ (ctx : Nat) (r : Ring), s.ring? ctx = some r → r.fn = fn → value.toNat < 2 ^ r.sqSize →
       Acts (.sqTail fn ctx value) s
         ((u.updRing ctx fun r => { r with tail := value.toNat }.holdUpdate s.grain s.fetchesData).beginExit)) ∧
     (∀ (ctx : Nat) (r : Ring), s.ring? ctx = some r → r.fn = fn → 2 ^ r.sqSize ≤ value.toNat →
       Acts (.sqTail fn ctx value) s (u.badDoorbell fn ctx 2 value.toNat)) ∧
     (∀ ctx : Nat, (∀ r, s.ring? ctx = some r → r.fn ≠ fn) →
       Acts (.sqTail fn ctx value) s (u.badAccess fn ctx value.toNat) ∧ Acts (.cqHead fn ctx value) s (u.badAccess fn ctx value.toNat)) ∧
     ((s.fn fn).ctrl.getLsbD 0 = true → value.toNat < 2 ^ (s.fn fn).admin.sqSize →
       Acts (.adminSqTail fn value) s
         ((u.updFn fn fun x => { x with admin := { x.admin with tail := value.toNat }.holdUpdate s.grain false }).beginExit)) ∧
     ((s.fn fn).ctrl.getLsbD 0 = false ∨ 2 ^ (s.fn fn).admin.sqSize ≤ value.toNat →
       Acts (.adminSqTail fn value) s (u.badDoorbell fn 0xFFFF 2 value.toNat))) ∧
  (∀ (s u : State) (fn : Nat) (value : BitVec 32), s.powered = true → s.mode.running = true → u = s.fnSeen fn →
     (∀ (ctx : Nat) (r : Ring), s.ring? ctx = some r → r.fn = fn → r.cqHead < r.cqLen →
       (value.toNat = r.cqHead → Acts (.cqHead fn ctx value) s u) ∧
       (∀ n : Nat, 0 < n → n ≤ r.posted → n < r.cqLen → value.toNat = (r.cqHead + n) % r.cqLen →
         Acts (.cqHead fn ctx value) s
           ((u.updRing ctx fun r => { r with cqHead := value.toNat, posted := r.posted - n }.holdUpdate s.grain s.fetchesData).beginExit)) ∧
       (r.cqLen ≤ value.toNat ∨ r.posted < (value.toNat + r.cqLen - r.cqHead) % r.cqLen →
         Acts (.cqHead fn ctx value) s (u.badDoorbell fn ctx 3 value.toNat))) ∧
     (∀ r : Ring, r = (s.fn fn).admin → (s.fn fn).ctrl.getLsbD 0 = true → r.cqHead < r.cqLen →
       (value.toNat = r.cqHead → Acts (.adminCqHead fn value) s u) ∧
       (∀ n : Nat, 0 < n → n ≤ r.posted → n < r.cqLen → value.toNat = (r.cqHead + n) % r.cqLen →
         Acts (.adminCqHead fn value) s ((u.updFn fn fun x =>
           { x with admin := { x.admin with cqHead := value.toNat, posted := x.admin.posted - n }.holdUpdate s.grain false }).beginExit)) ∧
       (r.cqLen ≤ value.toNat ∨ r.posted < (value.toNat + r.cqLen - r.cqHead) % r.cqLen →
         Acts (.adminCqHead fn value) s (u.badDoorbell fn 0xFFFF 3 value.toNat))) ∧
     ((s.fn fn).ctrl.getLsbD 0 = false → Acts (.adminCqHead fn value) s (u.badDoorbell fn 0xFFFF 3 value.toNat)) ∧
     (∀ e : EventRing, e = (s.fn fn).events → e.live = true → e.head < 2 ^ e.size →
       (value.toNat = e.head → Acts (.eventHead fn value) s u) ∧
       (∀ n : Nat, 0 < n → n ≤ (e.tail + 2 ^ e.size - e.head) % 2 ^ e.size → value.toNat = (e.head + n) % 2 ^ e.size →
         Acts (.eventHead fn value) s
           (((u.updFn fn fun x => { x with events := { x.events with head := value.toNat } }).postOverflow fn 256).beginExit)) ∧
       (2 ^ e.size ≤ value.toNat ∨ (e.tail + 2 ^ e.size - e.head) % 2 ^ e.size < (value.toNat + 2 ^ e.size - e.head) % 2 ^ e.size →
         Acts (.eventHead fn value) s (u.badDoorbell fn 0xFFFF 3 value.toNat))) ∧
     ((s.fn fn).events.live = false → Acts (.eventHead fn value) s (u.badDoorbell fn 0xFFFF 3 value.toNat))) ∧
  (∀ (s : State) (f ctx kind value : Nat), ∃ t u : State,
     s.badDoorbell f ctx kind value = t ∧ s.badAccess f ctx value = u ∧
     (t.fn f).doorErr = min (2 ^ 32 - 1) ((s.fn f).doorErr + 1) ∧ (u.fn f).hostErr = min (2 ^ 32 - 1) ((s.fn f).hostErr + 1) ∧
     { fn := f, source := 97, stamp := 0, data := eventData [(1, f), (2, ctx), (1, kind), (4, value)] } ∈ t.events.raises ∧
     { fn := f, source := 97, stamp := 0, data := eventData [(1, f), (2, ctx), (1, 1), (4, value)] } ∈ u.events.raises ∧
     (∀ g, g ≠ f → t.fn g = s.fn g ∧ u.fn g = s.fn g) ∧ t.host.rings = s.host.rings ∧ u.host.rings = s.host.rings ∧
     t = { s with host := t.host, events := t.events, terrace := t.terrace } ∧
     u = { s with host := u.host, events := u.events, terrace := u.terrace })

/-- ADM_EN and EVT_EN going to 1: sizes of 4 to 12 and a vector of the function bring the ring up empty, at index 0 with phase 1; a wrong
submission size (code 1), completion size (code 2), event size (code 3) or vector (code 4) keeps it down, and the bit, CFG_ERROR, CFG_CODE
and source 96 say so. EVT_EN going to 1 keeps nothing that was raised toward the function before; going to 0 it stops posting at once.
ADM_EN going to 0 stops fetching: commands in flight, and those at Col's intake, run on without a completion, and the ready bit goes with the
last of them, or at once where there is none. A bit written with the value that it has changes nothing. Nothing else of the host side
changes. -/
def Obligations.RingEnables : Prop :=
  ∀ (s u : State) (f : Nat) (x : Fn), s.powered = true → s.mode.running = true → u = s.fnSeen f → x = s.fn f →
    (x.ctrl.getLsbD 0 = false → 4 ≤ x.admCfg.toNat % 16 → x.admCfg.toNat % 16 ≤ 12 → 4 ≤ x.admCfg.toNat / 256 % 16 →
      x.admCfg.toNat / 256 % 16 ≤ 12 → x.admCfg.toNat / 65536 % 2048 ≤ maxVector f →
      Acts (.admEnSet f) s ((u.clearCounts (4096 + f)).updFn f fun x => { x with
        ctrl := x.ctrl ||| 1#32, admFault := false, admReady := true, admClosing := false, cfgError := false, cfgCode := 0
        admin := { fn := f, sqBase := x.sqBase.toNat, cqBase := x.cqBase.toNat, sqSize := x.admCfg.toNat % 16
                   cqSize := x.admCfg.toNat / 256 % 16, vector := x.admCfg.toNat / 65536 % 2048, intr := true } })) ∧
    (x.ctrl.getLsbD 0 = false → x.admCfg.toNat % 16 < 4 ∨ 12 < x.admCfg.toNat % 16 →
      Acts (.admEnSet f) s ((u.updFn f fun x => { x with ctrl := x.ctrl ||| 1#32, admFault := false }).refuseEnable f 1 0xFFFFFFFE#32)) ∧
    (∀ code : Nat, x.ctrl.getLsbD 0 = false → 4 ≤ x.admCfg.toNat % 16 → x.admCfg.toNat % 16 ≤ 12 →
      ((x.admCfg.toNat / 256 % 16 < 4 ∨ 12 < x.admCfg.toNat / 256 % 16) ∧ code = 2 ∨
        4 ≤ x.admCfg.toNat / 256 % 16 ∧ x.admCfg.toNat / 256 % 16 ≤ 12 ∧ maxVector f < x.admCfg.toNat / 65536 % 2048 ∧ code = 4) →
      Acts (.admEnSet f) s ((u.updFn f fun x => { x with ctrl := x.ctrl ||| 1#32, admFault := false }).refuseEnable f code 0xFFFFFFFE#32)) ∧
    (x.ctrl.getLsbD 1 = false → 4 ≤ x.evtCfg.toNat % 16 → x.evtCfg.toNat % 16 ≤ 12 → maxVector f < x.evtCfg.toNat / 65536 % 2048 →
      Acts (.evtEnSet f) s ((u.updFn f fun x => { x with ctrl := x.ctrl ||| 2#32 }).refuseEnable f 4 0xFFFFFFFD#32)) ∧
    (x.ctrl.getLsbD 1 = false → 4 ≤ x.evtCfg.toNat % 16 → x.evtCfg.toNat % 16 ≤ 12 → x.evtCfg.toNat / 65536 % 2048 ≤ maxVector f →
      Acts (.evtEnSet f) s ((u.dropRaises f).updFn f fun x => { x with
        ctrl := x.ctrl ||| 2#32, evtReady := true, cfgError := false, cfgCode := 0
        events := { live := true, base := x.evtBase.toNat, size := x.evtCfg.toNat % 16, lost := x.events.lost } })) ∧
    (x.ctrl.getLsbD 1 = false → x.evtCfg.toNat % 16 < 4 ∨ 12 < x.evtCfg.toNat % 16 →
      Acts (.evtEnSet f) s ((u.updFn f fun x => { x with ctrl := x.ctrl ||| 2#32 }).refuseEnable f 3 0xFFFFFFFD#32)) ∧
    (x.ctrl.getLsbD 1 = true →
      Acts (.evtEnClear f) s (u.updFn f fun x => { x with
        ctrl := x.ctrl &&& 0xFFFFFFFD#32, evtReady := false, heldBack := x.heldBack.filter (fun p => !p.isEvent), events := { x.events with live := false, overs := [] } })) ∧
    (∀ own : Bool, x.ctrl.getLsbD 0 = true →
      own = ((s.works.any fun w => w.carrier = .admin f && !w.muted) || (s.col.intake ++ s.col.carry).any (Event.ofAdmin f)) →
      Acts (.admEnClear f) s (((u.muteArrivals f false).updWorks fun ws =>
        ws.map fun w => if w.carrier = .admin f then { w with muted := true } else w).updFn f fun x => { x with
          ctrl := x.ctrl &&& 0xFFFFFFFE#32, admClosing := own && x.admReady, admReady := own && x.admReady
          admin := { x.admin with fetched := 0 }, heldBack := x.heldBack.filter fun p => !p.ofAdmin })) ∧
    (x.ctrl.getLsbD 0 = true → Acts (.admEnSet f) s u) ∧ (x.ctrl.getLsbD 0 = false → Acts (.admEnClear f) s u) ∧
    (x.ctrl.getLsbD 1 = true → Acts (.evtEnSet f) s u) ∧ (x.ctrl.getLsbD 1 = false → Acts (.evtEnClear f) s u)

/-- In FILL and BOOT every block except GLOBAL, and TEST under TEST_MODE, reads 0 and discards writes, doorbells and enables included, and
nothing is counted. -/
def Obligations.BlocksSilentBeforeRebuild : Prop :=
  ∀ (s : State) (fn bar off width : Nat) (value : BitVec 64), s.powered = true → s.mode = .fill ∨ s.mode = .boot →
    (bar = 0 ∧ fn = 0 → 0x10000 ≤ off ∧ (s.pins.straps.test = true → off < 0x200000 ∨ 0x210000 ≤ off)) →
    Acts (.latchingRead fn bar off width) s ((s.fnSeen fn).emit (.read 0)) ∧
    Acts (.registerWrite fn bar off width value) s (s.fnSeen fn) ∧
    (∀ (ctx : Nat) (v : BitVec 32), Acts (.sqTail fn ctx v) s s ∧ Acts (.cqHead fn ctx v) s s ∧ Acts (.adminSqTail fn v) s s ∧
      Acts (.adminCqHead fn v) s s ∧ Acts (.eventHead fn v) s s) ∧
    Acts (.admEnSet fn) s s ∧ Acts (.admEnClear fn) s s ∧ Acts (.evtEnSet fn) s s ∧ Acts (.evtEnClear fn) s s ∧
    (∀ v : Nat, Acts (.msixVectorUnmask fn v) s s)

/-- A read of a 32-bit register returns its value and changes nothing; of a 64-bit RO register the low half returns the low half and latches
the high one, and the high half returns the latch and empties it, or the live high half where the latch is empty; a 64-bit read returns the
whole register and leaves the latch; a read of no register returns 0 and is counted. -/
def Obligations.RegisterReads : Prop :=
  ∀ (s u : State) (fn bar a : Nat), s.powered = true → s.mode.running = true → u = s.fnSeen fn → accessGood bar a 4 = true →
    (∀ r : Reg, u.regWord fn bar a = some (a, r) → r.wide = false →
      Acts (.latchingRead fn bar a 4) s (u.emit (.read (BitVec.ofNat 64 (r.value % 2 ^ 32))))) ∧
    (∀ r : Reg, u.regWord fn bar a = some (a, r) → r.wide = true → r.ro = true →
      Acts (.latchingRead fn bar a 4) s ({ u with latches := mapSet s.latches (regKey fn bar a) (BitVec.ofNat 32 (r.value / 2 ^ 32)) }.emit
        (.read (BitVec.ofNat 64 (r.value % 2 ^ 32))))) ∧
    (∀ (r : Reg) (v : BitVec 32), 4 ≤ a → u.regWord fn bar a = some (a - 4, r) → r.wide = true → r.ro = true →
      mapGet? s.latches (regKey fn bar (a - 4)) = some v →
      Acts (.latchingRead fn bar a 4) s ({ u with latches := mapErase s.latches (regKey fn bar (a - 4)) }.emit (.read (v.setWidth 64)))) ∧
    (∀ r : Reg, 4 ≤ a → u.regWord fn bar a = some (a - 4, r) → r.wide = true → r.ro = true →
      mapGet? s.latches (regKey fn bar (a - 4)) = none →
      Acts (.latchingRead fn bar a 4) s (u.emit (.read (BitVec.ofNat 64 (r.value / 2 ^ 32))))) ∧
    (∀ r : Reg, accessGood bar a 8 = true → u.regAt fn bar a = some r → r.wide = true →
      Acts (.latchingRead fn bar a 8) s (u.emit (.read (BitVec.ofNat 64 r.value)))) ∧
    (u.regWord fn bar a = none → Acts (.latchingRead fn bar a 4) s ((u.badAccess fn (accessContext bar a) 0).emit (.read 0)))

/-- A write to no register, or of a width or an alignment that the BAR does not take, is discarded and counted. A write to a setting changes
what is written and leaves what is in force; the low half of a 64-bit RW register waits for the high half, and the write of the high half
applies the whole register. -/
def Obligations.RegisterWrites : Prop :=
  ∀ (s u : State) (fn bar a : Nat) (value : BitVec 64), s.powered = true → s.mode.running = true → u = s.fnSeen fn →
    (u.regWord fn bar a = none → ∀ width, width = 4 ∨ width = 8 → accessGood bar a width = true →
      Acts (.registerWrite fn bar a width value) s
        (u.badAccess fn (accessContext bar a) ((if width = 4 then value.toNat % 2 ^ 32 else value.toNat) % 2 ^ 32))) ∧
    (∀ width, accessGood bar a width = false →
      Acts (.registerWrite fn bar a width value) s (u.badAccess fn (accessContext bar a) (value.toNat % 2 ^ 32))) ∧
    (fn = 0 → Acts (.registerWrite 0 0 0x140018 4 value) s
      { u with written := { s.written with gcCtrl := BitVec.ofNat 32 (value.toNat % 2 ^ 32) &&& 0xB#32 } }) ∧
    (fn = 0 → value.toNat % 2 ^ 32 % 256 ≤ 168 → Acts (.registerWrite 0 0 0x180010 4 value) s
      { u with written := { s.written with scrub := value.toNat % 2 ^ 32 % 256 } }) ∧
    (fn = 0 → 168 < value.toNat % 2 ^ 32 % 256 → Acts (.registerWrite 0 0 0x180010 4 value) s u) ∧
    (fn = 0 → Acts (.registerWrite 0 0 0x20008 4 value) s
      { u with lows := mapSet s.lows (regKey 0 0 0x20008) (value.setWidth 32) }) ∧
    (fn = 0 → (s.fn 0).ctrl.getLsbD 0 = false → ∀ lo : BitVec 32, mapGet? s.lows (regKey 0 0 0x20008) = some lo →
      Acts (.registerWrite 0 0 0x2000C 4 value) s
        ({ u with lows := mapErase s.lows (regKey 0 0 0x20008) }.updFn 0 fun x =>
          { x with sqBase := BitVec.ofNat 64 ((value.toNat % 2 ^ 32 * 2 ^ 32 + lo.toNat) / 4096 * 4096) }))

/-- SAVE stores the next start's Basin split where it shares out 64 MiB, gives every pool some and pool 3 at least 4, and Glen's next bank
assignment where its check passes, in the metadata region's configuration; a split that does not is reported with its code under source 182 or 188 and stored nowhere. A rule
operation sets BUSY and reaches Col's intake with its number; while BUSY it is discarded, reported with CODE 6, and counted as a bad access.
A lock token is submitted in the same way through its own port. Nothing else changes. -/
def Obligations.SavesAndOperationPorts : Prop :=
  (∀ (s : State) (next : List Nat), s.cored = true → next = (List.range 8).map (fun p => (s.pool p).next) →
     (next.sum = 64 → (∀ n ∈ next, n ≠ 0) → 4 ≤ next.getD 3 0 →
       Acts .basinSave s
         (({ s with basin := { s.basin with stored := some next, saveDone := true, saveError := false, saveCode := 0 } }).metaWrite 0)) ∧
     (next.sum ≠ 64 → Acts .basinSave s
       (({ s with basin := { s.basin with saveDone := false, saveError := true, saveCode := 1 } }).raise 182 0 0 0x402
         (eventData [(1, 1)]))) ∧
     (next.sum = 64 → (∃ n ∈ next, n = 0) ∨ next.getD 3 0 < 4 → Acts .basinSave s
       (({ s with basin := { s.basin with saveDone := false, saveError := true, saveCode := 2 } }).raise 182 0 0 0x402
         (eventData [(1, 2)]))) ∧
     (s.glen.saveCheck = 0 → Acts .glenSave s
       (({ s with glen := { s.glen with
         stored := some ((List.range 32).map s.glen.nextBank), saveDone := true, saveError := false, saveCode := 0 } }).metaWrite 0)) ∧
     (∀ code : Nat, code ≠ 0 → s.glen.saveCheck = code → Acts .glenSave s
       (({ s with glen := { s.glen with saveDone := false, saveError := true, saveCode := code } }).raise 188 0 0 0x406
         (eventData [(1, code)]))) ∧
     (∀ table : Nat, table ∈ s.glen.restore → Acts (.holeRestore table) s
       { s with glen := { s.glen.setTable (table == 1) (s.glen.build (table == 1)) with
         restore := s.glen.restore.filter fun t => t != table } })) ∧
  (∀ s : State, s.cored = true →
     (s.glen.busy = false → ∀ (op : Nat) (row : Bool → Instr),
       (op, row) ∈ ([(1, Instr.ruleAdd), (2, Instr.ruleRemove), (3, Instr.ruleSetResult)] : List (Nat × (Bool → Instr))) →
       Arrives row s { s with
         glen := { s.glen with busy := true, port := { s.glen.port with op := BitVec.ofNat 2 op } }
         col := { s.col with intake := s.col.intake ++ [.ruleOp op] } }) ∧
     (s.glen.busy = true → ∀ (op : Nat) (row : Bool → Instr),
       (op, row) ∈ ([(1, Instr.ruleAdd), (2, Instr.ruleRemove), (3, Instr.ruleSetResult)] : List (Nat × (Bool → Instr))) →
       Arrives row s (({ s with glen := { s.glen with busyWrite := true } }).badAccess 0 0xFFFF op)) ∧
     (s.update.lockBusy = false → Arrives .lockSubmit s { s with
       update := { s.update with lockBusy := true }, col := { s.col with intake := s.col.intake ++ [.lockSubmit] } }) ∧
     (s.update.lockBusy = true → Arrives .lockSubmit s { s with update := { s.update with busyWrite := true } }))

/-- The TEST block under TEST_MODE: START refuses a block with the offset of its first failing field, and otherwise runs it, lane tests with
no lock yet; STOP and the end of the duration close the run with the results of its targets. A checker's lock and its loss are kept with the
run. Only the test group changes, but for the event of a lost lock where firmware runs. With TEST_MODE low every instruction but IDCODE acts
as BYPASS (code 0xFF), and, where firmware runs, raises source 227 with its code unless it is BYPASS itself; with TEST_MODE high the codes
of the table act, and every other code acts as BYPASS. -/
def Obligations.TestBlockAndTap : Prop :=
  (∀ s : State, s.powered = true →
     (∀ off : Nat, s.pins.straps.test = true → s.test.direct = none → s.blockFail s.testParam true = some off →
       Acts .testStart s { s with test := { s.test with error := true, code := off } }) ∧
     (∀ run : TestRun, s.pins.straps.test = true → s.test.direct = none → s.blockFail s.testParam true = none →
       run.block = s.testParam → run.stamp = none → run.accepted = 0 → run.started = s.grain → run.quiesced = true → run.kind = field s.testParam 0 1 →
       run.duration = field s.testParam 4 4 → run.targets = testTargets s.testParam [] →
       run.locked = (if run.kind = 1 ∨ run.kind = 4 then [] else run.targets) → run.losses = [] →
       Acts .testStart s { s with test := { s.test with error := false, code := 0, done := false, direct := some run } }) ∧
     (∀ (r : TestRun) (ms : Nat) (l : List TestResult), s.pins.straps.test = true → s.test.direct = some r →
       Acts (.testStop ms l) s { s with test := { s.test with direct := none, done := true, result := r.results (min ms r.duration) l } }) ∧
     (∀ (r : TestRun) (l : List TestResult), s.test.direct = some r →
       Acts (.testDurationEnd l) s { s with test := { s.test with direct := none, done := true, result := r.results r.duration l } }) ∧
     (∀ (r : TestRun) (t : Nat), s.test.direct = some r → r.quiesced = true → t ∈ r.targets → t ∉ r.locked →
       Acts (.checkerLock t) s { s with test := { s.test with direct := some { r with locked := t :: r.locked } } }) ∧
     (∀ (r : TestRun) (t n : Nat) (u : State), s.test.direct = some r → t ∈ r.locked → n = min (2 ^ 32 - 1) (mapGet 0 r.losses t + 1) →
       u = { s with test := { s.test with direct := some { r with locked := r.locked.filter (fun k => k != t), losses := mapSet r.losses t n } } } →
       (s.mode.running = false ∨ n ≠ 1 → Acts (.checkerLockLoss t) s u) ∧
       (s.mode.running = true → n = 1 →
         Acts (.checkerLockLoss t) s (u.raiseOnly 225 0 0 (eventData [(1, r.kind), (2, t), (4, 1)]))))) ∧
  (∀ (s : State) (code : BitVec 8), s.powered = true →
     (code = 0x01 → Acts (.tapInstructionLoad code) s { s with test := { s.test with ir := 0x01 } }) ∧
     (s.pins.straps.test = false → code ≠ 0x01 → code ≠ 0xFF → s.mode.running = true →
       Acts (.tapInstructionLoad code) s
         (({ s with test := { s.test with ir := 0xFF } }).raiseOnly 227 0 0 (eventData [(1, code.toNat)]))) ∧
     (s.pins.straps.test = false → code ≠ 0x01 → (code = 0xFF ∨ s.mode.running = false) →
       Acts (.tapInstructionLoad code) s { s with test := { s.test with ir := 0xFF } }) ∧
     (s.pins.straps.test = true → code ∈ ([0x02, 0x00, 0x03, 0x04, 0x05, 0x06, 0x10] : List (BitVec 8)) →
       Acts (.tapInstructionLoad code) s { s with test := { s.test with ir := code } }) ∧
     (s.pins.straps.test = true → code ∉ ([0x01, 0x02, 0x00, 0x03, 0x04, 0x05, 0x06, 0x10] : List (BitVec 8)) →
       Acts (.tapInstructionLoad code) s { s with test := { s.test with ir := 0xFF } }))

/-! ## Commands on their carriers, ring fetch, stamps (R9, R31 to R36, R108 to R114, R138, R339) -/

/-- The submission of a command row, with its row's opcode and operation, and its edge. -/
def Sys2Proof.submissionOf : Instr → Option (Submission × Bool)
  | .get c e => some (withOpcode 0x01 c, e) | .getAsOf c e => some (withOpcode 0x02 c, e)
  | .versions c e => some (withOpcode 0x03 c, e) | .enumerate c e => some (withOpcode 0x04 c, e)
  | .put c e => some (withOpcode 0x10 c, e) | .putIf c e => some (withOpcode 0x11 c, e)
  | .delete c e => some (withOpcode 0x12 c, e) | .deleteSecure c e => some (withOpcode 0x13 c, e)
  | .batch c e => some (withOpcode 0x14 c, e) | .touch c e => some (withOpcode 0x15 c, e)
  | .flush c e => some (withOpcode 0x20 c, e) | .abort c e => some (withOpcode 0x21 c, e) | .nop c e => some (withOpcode 0x22 c, e)
  | .queueCreate c e => some (withOpcode 0x80 c, e) | .queueDelete c e => some (withOpcode 0x81 c, e)
  | .queueReset c e => some (withOpcode 0x82 c, e) | .namespaceSet c e => some (withOpcode 0x88 c, e)
  | .namespaceDelete c e => some (withOpcode 0x89 c, e) | .keyPageLoadLoad c e => some (withOpcode 0x90 (withParam 0x22 0 c), e)
  | .keyPageLoadKek c e => some (withOpcode 0x90 (withParam 0x22 1 c), e) | .keyPageRetire c e => some (withOpcode 0x91 c, e)
  | .sessionOpen c e => some (withOpcode 0x98 c, e) | .sessionClose c e => some (withOpcode 0x99 c, e)
  | .healthGet c e => some (withOpcode 0xA0 c, e) | .timeGet c e => some (withOpcode 0xA1 c, e)
  | .scheduleSet c e => some (withOpcode 0xA2 c, e) | .holdSet c e => some (withOpcode 0xA3 c, e)
  | .holdRelease c e => some (withOpcode 0xA4 c, e) | .timeSetConfigure c e => some (withOpcode 0xA5 (withParam 0x20 0 c), e)
  | .timeSetSetTod c e => some (withOpcode 0xA5 (withParam 0x20 1 c), e)
  | .timeSetReadmit c e => some (withOpcode 0xA5 (withParam 0x20 2 c), e)
  | .recordReadRecords c e => some (withOpcode 0xA8 (withParam 0x20 0 c), e)
  | .recordReadPages c e => some (withOpcode 0xA8 (withParam 0x20 1 c), e) | .recordClear c e => some (withOpcode 0xA9 c, e)
  | .fwDownload c e => some (withOpcode 0xB0 c, e) | .fwActivate c e => some (withOpcode 0xB1 c, e)
  | .fwStatus c e => some (withOpcode 0xB2 c, e) | .fwConfirm c e => some (withOpcode 0xB3 c, e)
  | .roleSet c e => some (withOpcode 0xB8 c, e) | .mapSetIdentity c e => some (withOpcode 0xB9 (withAreaByte 0 c), e)
  | .mapSetMap c e => some (withOpcode 0xB9 (withAreaByte 1 c), e) | .pairStart c e => some (withOpcode 0xBA c, e)
  | .pairEndCancel c e => some (withOpcode 0xBB (withParam 0x22 0 c), e)
  | .pairEndKeepSource c e => some (withOpcode 0xBB (withParam 0x22 1 c), e)
  | .pairEndKeepTarget c e => some (withOpcode 0xBB (withParam 0x22 2 c), e) | .linkTest c e => some (withOpcode 0xC0 c, e)
  | .identifyDevice c e => some (withOpcode 0xC1 (withParam 0x20 0 c), e)
  | .identifyNamespace c e => some (withOpcode 0xC1 (withParam 0x20 1 c), e)
  | .portSetQuad c e => some (withOpcode 0xC2 (withAreaByte 0 c), e) | .portSetPort c e => some (withOpcode 0xC2 (withAreaByte 1 c), e)
  | .portSetUdpPort c e => some (withOpcode 0xC2 (withAreaByte 2 c), e)
  | .apply c e => some (withParam 0x32 1 c, e) | .compare c e => some (withOpcode 0x02 (withParam 0x32 2 c), e)
  | .copyDone c e => some (withOpcode 0x22 (withParam 0x32 3 c), e) | .propose c e => some (withOpcode 0x22 (withParam 0x32 4 c), e)
  | .mark c e => some (withOpcode 0x22 (withParam 0x32 5 c), e)
  | _ => none

/-- Every data and admin command, on whatever carrier, arrives there: it waits for an edge at Col's intake, or has its grain's edge at once,
at which it is stamped and executes. An SPDM vendor-defined request carries RECORD_READ, after the three opening requests. What arriving
means: on a ring that may be fetched, with a pool 0 buffer above the fetch reserve, the descriptor is fetched into that buffer, takes the
ring's next position, and stands last at Col's intake, where it is the ring's turn; the ring's fetch index, and nothing of the ring but it, the tail, the position and
the count of fetched entries, has moved on. On a session, the next sequence within the grant is admitted, where pool 3 holds buffers for its message, and stands last at the intake; a
management request likewise, wherever the cores run. -/
def Obligations.CommandsArrive : Prop :=
  ((∀ (i : Instr) (c : Submission) (edge : Bool) (s : State), submissionOf i = some (c, edge) → s.powered = true →
     ((edge && s.time.running) = false → Acts i s (s.submit c)) ∧
     (edge = true → s.time.running = true → s.nextGrain < Config.maxGrain → ActsAtEdge i s (s.submit c))) ∧
   (∀ (c : Submission) (edge : Bool) (s u : State), s.powered = true → s.firmwareServes = true →
     u = (if s.mgmt.spdm < 3 then s.emit (.mgmt [5, 0x7F, 4]) else s.mgmtRequest { (withOpcode 0xA8 c) with carrier := .mgmt }) →
     ((edge && s.time.running) = false → Acts (.vendorDefinedRequest c edge) s u) ∧
     (edge = true → s.time.running = true → s.nextGrain < Config.maxGrain → ActsAtEdge (.vendorDefinedRequest c edge) s u))) ∧
  (∀ (s : State) (c : Submission),
     (∀ (n : Nat) (r : Ring), c.carrier = .ring n → s.ring? n = some r → s.mayFetch (.data n) = true → s.takesTurn (.data n) = true →
       s.fetchReserve < (s.pool 0).free →
       ∃ h : Handle, h.pool = 0 ∧ (s.submit c).col = { s.col with intake := s.col.intake ++ [.cmd { c := c, pos := r.position, hs := [h] }] } ∧
         (s.submit c).ring? n = some { r with fetch := (r.fetch + 1) % r.sqLen
                                              tail := if r.tail = r.fetch then (r.fetch + 1) % r.sqLen else r.tail
                                              position := r.position + 1, fetched := r.fetched + 1 } ∧
         s.submit c = { s with host := (s.submit c).host, basin := (s.submit c).basin, events := (s.submit c).events,
                               terrace := (s.submit c).terrace, col := (s.submit c).col }) ∧
     (c.carrier = .mgmt → s.romServes = false → s.mode.running = true →
       s.submit c = { s with col := { s.col with intake := s.col.intake ++ [.cmd { c := c }] } }) ∧
     (∀ (n : Nat) (q : BitVec 32) (x : Session), c.carrier = .wire n q → s.session? n = some x → x.state = .open_ → s.mode ≠ .boot →
       (x.seen.find? fun e => e.seqNo = q) = none → seqLt x.grant q = false → seqLt q x.params.initial = false →
       (seqLe q x.highest = true → (x.highest - q).toNat < Config.replayWindow) →
       s.chainLength x.params.port (x.params.overhead + (messageBytes c).length) ≤ (s.pool 3).free →
       (s.submit c).col = { s.col with intake := s.col.intake ++ [.cmd { c := c }] }))

/-- What a turn of a ring with `k` entries to fetch leaves: the first `k` entries stand last at Col's intake, in order, each with the ring's
next position and a pool 0 buffer of its own; the turn is the ring's, and nothing but the host side, the buffers, the events, the recorder
and the intake has changed. -/
def Sys2Proof.Fetched (s u : State) (id : RingId) (carrier : Carrier) (r : Ring) (k : Nat) (entries : List (BitVec 512 × Area)) : Prop :=
  ∃ hs : List Handle, hs.length = k ∧ (∀ h ∈ hs, h.pool = 0) ∧
    u.col = { s.col with intake := s.col.intake ++ ((hs.zip (entries.take k)).zipIdx.map fun e =>
      .cmd { c := { carrier := carrier, desc := Descriptor.ofWord e.1.2.1, area := e.1.2.2 }, pos := r.position + e.2, hs := [e.1.1] }) } ∧
    u.host.turn = ringNumber id ∧
    u = { s with host := u.host, basin := u.basin, events := u.events, terrace := u.terrace, col := u.col }

/-- A turn of a ring takes as many entries as are published, at most 8 in a row and none across the ring's wrap, in ring order, where the
completion ring has room for them and pool 0 holds a buffer for each, on a data ring above the fetch reserve; rings take their turns in
order (by ring number: log entry 125, the model's choice), and a ring whose turn it is not, that may not be fetched, or that has nothing to fetch, is left as it is. A fetch that fails with
published entries stops its ring, raises source 98 toward the function with context and index, and writes a record; a ring HELD for 10 ms
raises source 99 once; fetching held for 1 ms by the fetch reserve raises source 181 once. -/
def Obligations.RingFetch : Prop :=
  (∀ (s : State) (ctx k : Nat) (r : Ring) (entries : List (BitVec 512 × Area)), s.cored = true → s.ring? ctx = some r →
     k = min (min (min 8 r.waiting) (r.sqLen - r.fetch)) entries.length →
     (s.takesTurn (.data ctx) = true → s.mayFetch (.data ctx) = true → 0 < k → r.fetch < r.sqLen → r.tail < r.sqLen →
       r.fetched + r.posted + k < r.cqLen → s.fetchReserve + k ≤ (s.pool 0).free →
       ∃ u : State, Acts (.dataRingFetch ctx entries) s u ∧ Fetched s u (.data ctx) (.ring ctx) r k entries ∧
         u.ring? ctx = some { r with fetch := (r.fetch + k) % r.sqLen, position := r.position + k, fetched := r.fetched + k }) ∧
     (s.takesTurn (.data ctx) = false ∨ s.mayFetch (.data ctx) = false ∨ k = 0 → Acts (.dataRingFetch ctx entries) s s)) ∧
  (∀ (s : State) (fn k : Nat) (r : Ring) (entries : List (BitVec 512 × Area)), s.cored = true → s.ringOf (.admin fn) = some r →
     k = min (min (min 8 r.waiting) (r.sqLen - r.fetch)) entries.length →
     (s.takesTurn (.admin fn) = true → s.mayFetch (.admin fn) = true → 0 < k → r.fetch < r.sqLen → r.tail < r.sqLen →
       r.fetched + r.posted + k < r.cqLen → k ≤ (s.pool 0).free →
       ∃ u : State, Acts (.adminRingFetch fn entries) s u ∧ Fetched s u (.admin fn) (.admin fn) r k entries ∧
         u.fn fn = { s.fn fn with admin :=
           { r with fetch := (r.fetch + k) % r.sqLen, position := r.position + k, fetched := r.fetched + k } }) ∧
     (s.takesTurn (.admin fn) = false ∨ s.mayFetch (.admin fn) = false ∨ k = 0 → Acts (.adminRingFetch fn entries) s s)) ∧
  (∀ s : State, s.cored = true →
     (∀ (ctx status : Nat) (r : Ring), s.ring? ctx = some r → s.mayFetch (.data ctx) = true → r.waiting ≠ 0 →
       Acts (.fetchFailure (.data ctx) status) s ((s.updRing ctx fun r => { r with faulted := true }).raise 98 r.fn 0 0x302
         (eventData [(1, r.fn), (2, ctx), (2, r.fetch), (1, status)]))) ∧
     (∀ (fn status : Nat) (r : Ring), s.ringOf (.admin fn) = some r → s.mayFetch (.admin fn) = true → r.waiting ≠ 0 →
       Acts (.fetchFailure (.admin fn) status) s ((s.updFn fn fun x => { x with admFault := true }).raise 98 fn 0 0x302
         (eventData [(1, fn), (2, 0xFFFF), (2, r.fetch), (1, status)]))) ∧
     (∀ (ctx : Nat) (r : Ring), s.ring? ctx = some r → r.held = true → r.heldRaised = false → r.heldSince + 10000 ≤ s.grain →
       Acts (.heldTimeout ctx) s
         ((s.updRing ctx fun r => { r with heldRaised := true }).raiseOnly 99 r.fn 0 (eventData [(1, r.fn), (2, ctx)]))) ∧
     (∀ g : Nat, s.host.fetchHold = some g → s.host.fetchRaised = false → g + 1000 ≤ s.localUs →
       Acts .fetchHoldTimeout s ((s.updHost fun h => { h with fetchRaised := true }).raise 181 0 0 0x400
         (eventData [(4, (s.pool 0).free), (4, s.fetchReserve)]))))

/-- The happenings that Col stamps reach its intake, last, and change nothing else but that a buffer to be released is zeroed first (R193);
or their grain's edge follows at once. A happening whose time has not come has no effect. -/
def Obligations.HappeningsArrive : Prop :=
  ∀ s : State, s.clocked = true →
    (∀ (id : Nat) (r : DmaResult), Arrives (.dmaDone id r) s (s.arrive (.dmaDone id r))) ∧
    (∀ id : Nat, Arrives (.journalEntryWritten id) s (s.arrive (.journal id))) ∧
    (∀ id : Nat, Arrives (.firstByteReleased id) s (s.arrive (.firstByte id))) ∧
    (∀ (h : Handle) (o : OwnerTag), Arrives (.bufferRelease h o) s ((s.zeroBuffer h o).arrive (.release h o 0))) ∧
    (∀ (id : Nat) (w : Work), s.work? id = some w → w.deadline ≠ 0 → w.deadline ≤ s.grain →
      Arrives (.commandTimeout id) s (s.arrive (.timeout id))) ∧
    (∀ n : Nat, s.keepaliveDue n = true → Arrives (.keepaliveExpiry n) s (s.arrive (.sessionReset n 2))) ∧
    (∀ n : Nat, s.counterDone n = true → Arrives (.frameCounterExhausted n) s (s.arrive (.sessionReset n 3))) ∧
    (∀ fn : Nat, fn ≤ s.host.vfs → Arrives (.functionLevelReset fn) s (s.arrive (.flr fn .function false))) ∧
    (s.mode.running = true →
      (∀ slot : Nat, Arrives (.programDone slot) s (s.arrive (.programDone slot))) ∧
      (∀ slot ch : Nat, Arrives (.programFailure slot ch) s (s.arrive (.programFail slot ch))) ∧
      (∀ c d b : Nat, Arrives (.eraseFailure c d b) s (s.arrive (.eraseFail c d b))) ∧
      (∀ c d b : Nat, Arrives (.eraseDone c d b) s (s.arrive (.eraseDone c d b))) ∧
      (∀ (c d : Nat) (o : CodewordOutcome), Arrives (.codewordReadDone c d o) s (s.arrive (.mediaRead c d o))) ∧
      (∀ id : Nat, Arrives (.xorRebuild id) s (s.arrive (.xorDone id))) ∧
      (∀ (reads : List CodewordOutcome) (lost : Bool), Arrives (.gcStep reads lost) s (s.arrive (.step (.gc lost) reads)) ∧
        Arrives (.foldingStep reads lost) s (s.arrive (.step (.fold lost) reads)) ∧
        Arrives (.refreshStep reads lost) s (s.arrive (.step (.refresh lost) reads))) ∧
      (∀ (g ch p : Nat) (reads : List CodewordOutcome), Arrives (.patrolRead g ch p reads) s (s.arrive (.step (.patrol g ch p reads) []))) ∧
      (∀ (page : Nat) (reads : List CodewordOutcome) (bad : Bool),
        Arrives (.rekeySweepStep page reads bad) s (s.arrive (.step (.rekey page bad) reads))) ∧
      (∀ (id : Nat) (reads : List CodewordOutcome),
        Arrives (.secureDeleteRelocationStep id reads) s (s.arrive (.step (.secure id) reads))) ∧
      (∀ (pair : Nat) (reads : List CodewordOutcome), Arrives (.bulkCopyStep pair reads) s (s.arrive (.step (.copy pair) reads))) ∧
      Arrives .recorderFlushDone s (s.arrive (.step .recorder [])) ∧
      Arrives .retentionSweep s (s.arrive .sweep) ∧
      (∀ pair status : Nat, Arrives (.proposeCompletion pair status) s (s.arrive (.proposeAnswer pair status))) ∧
      (∀ pair : Nat, Arrives (.markCompletion pair) s (s.arrive (.markAnswer pair))) ∧
      (∀ f : PeerFrame, Arrives (.peerSessionFrameReceive f) s (s.arrive (.peerAck f))) ∧
      (s.delta.rateAt + 1000000 ≤ s.localUs → Arrives .patrolRateUpdate s (s.arrive .patrolRate)) ∧
      (∀ (n ch at_ : Nat) (reads : List CodewordOutcome), (n, ch, at_) ∈ s.delta.tracked → at_ + s.patrolPeriod / 4 ≤ s.grain →
        Arrives (.patrolReread n ch reads) s (s.arrive (.patrolReread n ch reads))) ∧
      (s.delta.patrolStart + s.patrolPeriod ≤ s.grain → Arrives .patrolCycleEnd s (s.arrive .patrolEnd)) ∧
      ((∀ g : Nat, s.delta.ckptAt = some g → g + 250000 ≤ s.grain) →
        ∀ lines : List (DramLine × LineOutcome), Arrives (.checkpointTimer lines) s (s.arrive (.checkpoint lines))) ∧
      (∀ edge : Bool, (s.localUs < s.delta.rateAt + 1000000 → exec (.patrolRateUpdate edge) s = .next s) ∧
        (s.grain < s.delta.patrolStart + s.patrolPeriod → exec (.patrolCycleEnd edge) s = .next s) ∧
        (∀ g : Nat, s.delta.ckptAt = some g → s.grain < g + 250000 →
          ∀ lines : List (DramLine × LineOutcome), exec (.checkpointTimer lines edge) s = .next s) ∧
        (∀ w : Nat, s.startDue w = false → exec (.calendarStartEdge w edge) s = .next s) ∧
        (∀ w : Nat, s.endDue w = false → exec (.calendarEndEdge w edge) s = .next s)) ∧
      (∀ w : Nat, s.startDue w = true → Arrives (.calendarStartEdge w) s (s.arrive (.calStart w))) ∧
      (∀ w : Nat, s.endDue w = true → Arrives (.calendarEndEdge w) s (s.arrive (.calEnd w))) ∧
      (∀ p : Nat, 1 ≤ p → p ≤ 3 → Arrives (.idleTimerExpiry p) s (s.arrive (.idle p))) ∧
      (s.trialDue = true → Arrives .trialWindowExpiry s (s.arrive .trial)))

/-- The edge of a grain. Where only one thing waits for a stamp, it takes the grain's slot 0, has its effect there, and the grain ends.
GRAIN_EDGE ends the grain and lets the idle ones pass: the grain number rises by at least one for the edge and one for each idle grain, and
a 52-bit grain number that runs out stops the step with its fault. Settings as written come into force with the end of the grain, for the
decisions of the next. -/
def Obligations.GrainsEnd : Prop :=
  ∀ s : State, s.clocked = true →
    (∀ e : Event, s.quiet = true →
      (s.arrive e).grainEdge = restOfGrain s.grain ((atSlotZero s).applyEvent e (stampOf s.grain 0))) ∧
    (∀ idle : Nat, s.grain + idle + 1 < 2 ^ 52 → ∃ t : State, exec (.grainEdge idle) s = .next t ∧ s.grain + idle + 1 ≤ t.grain ∧
      t.pending = s.pending ∧ (idle = 0 → t = s.keepQueue s.grainEdge)) ∧
    (∀ idle : Nat, 2 ^ 52 ≤ s.grain + idle + 1 → exec (.grainEdge idle) s = .fault .grainNumberExhausted) ∧
    (∀ t : State, exec (.grainEdge 0) s = .next t → t.clocked = true → t.inForce = t.written)

/-! ## Commands at their stamp (R43, R79, R88, R93 to R103) -/

/-- The commands that only answer. NOP completes; ABORT completes with what it found, or caught; the admin reads return their data: time,
health pages, firmware status, identities, records and pages. Data that an admin command returns: an area too small for them is refused with
offset 8; on a ring they are written to host memory first, and the completion follows that; elsewhere the completion follows at once. -/
def Obligations.ReadingCommandsAnswer : Prop :=
  (∀ (s b : State) (c : Submission) (w : Work),
     (Alone s (withOpcode 0x22 c) b w → b.peerPair w.carrier = none → b.cutHolds w = false →
       Executes (.nop c true) s ((b.addWork w).deliver w { commit := w.stamp })) ∧
     (∀ (n d : Nat) (t : State), Alone s (withOpcode 0x21 c) b w → b.cutHolds w = false → w.carrier.context = some n →
       (b.addWork w).abortApply n (w.desc.stampArg.toNat % 65536) w.stamp = (t, d) →
       Executes (.abort c true) s (t.deliver w { commit := w.stamp, detail := d })) ∧
     (Alone s (withOpcode 0xA1 c) b w → Executes (.timeGet c true) s (b.returns w (b.timeData w.stamp) { length := 64 })) ∧
     (∀ data : Bytes, Alone s (withOpcode 0xA0 c) b w → (w.desc.param 0x20 1, data) ∈ ([(0, b.healthSummary), (1, b.delta.health.errors),
         (2, b.delta.health.history), (3, b.healthDies), (4, b.delta.rebuildPage), (5, b.index.holdsPage)] : List (Nat × Bytes)) →
       Executes (.healthGet c true) s (b.returns w data { length := data.length })) ∧
     (∀ x : Session, Alone s (withOpcode 0xA0 c) b w → w.desc.param 0x20 1 = 6 → 160 ≤ w.desc.valLen.toNat →
       b.session? (w.desc.param 0x22 2) = some x → x.state ≠ .resolving → x.fn = w.fn →
       Executes (.healthGet c true) s (b.returns w (x.page (w.desc.param 0x22 2)) { length := (x.page (w.desc.param 0x22 2)).length })) ∧
     (Alone s (withOpcode 0xB2 c) b w → Executes (.fwStatus c true) s (b.returns w b.fwStatusData { length := 64 })) ∧
     (Alone s (withOpcode 0xC1 (withParam 0x20 0 c)) b w →
       Executes (.identifyDevice c true) s (b.returns w b.devicePage { length := 4096 })) ∧
     (∀ n : Namespace, Alone s (withOpcode 0xC1 (withParam 0x20 1 c)) b w → 1 ≤ w.desc.ns.toNat → w.desc.ns.toNat < 1024 →
       b.spaceAt w.desc.ns.toNat w.stamp = some n →
       Executes (.identifyNamespace c true) s (b.returns w (b.nsPage w.desc.ns.toNat n) { length := 4096 })) ∧
     (∀ (bytes : Bytes) (n : Nat), Alone s (withOpcode 0xA8 (withParam 0x20 0 c)) b w → w.fn = 0 → w.desc.stampArg = 0 →
       takeWhole w.desc.valLen.toNat (b.terrace.held.map Record.bytes) = (bytes, n) →
       Executes (.recordReadRecords c true) s (b.returns w bytes { length := bytes.length, detail := n })) ∧
     (∀ (bytes : Bytes) (n : Nat), Alone s (withOpcode 0xA8 (withParam 0x20 1 c)) b w → w.fn = 0 → w.desc.stampArg = 0 →
       16384 ≤ w.desc.valLen.toNat → b.terrace.pages ≠ [] → takeWhole w.desc.valLen.toNat (b.terrace.pages.map RecPage.bytes) = (bytes, n) →
       Executes (.recordReadPages c true) s (b.returns w bytes { length := bytes.length, detail := n }))) ∧
  (∀ (s : State) (w : Work) (data : Bytes) (r : Result),
     (w.desc.valLen.toNat < data.length →
       s.returns w data r = s.deliver w { status := .invalidField, detail := 8, commit := w.stamp }) ∧
     (data.length ≤ w.desc.valLen.toNat → w.carrier = .mgmt →
       s.returns w data r = s.deliver { w with data := data } { r with commit := w.stamp }) ∧
     (∀ (f : Nat) (p : List (Nat × Nat)), data.length ≤ w.desc.valLen.toNat → w.carrier = .admin f → valuePieces w.sub w.desc.valLen.toNat = .ok p →
       s.returns w data r = s.addWork { w with phase := .dma, data := data, ponr := true, result := { r with commit := w.stamp } }))

/-- Queue contexts and sessions. QUEUE_CREATE binds a free context to a ring that is empty; QUEUE_RESET and QUEUE_DELETE decide the
context's commands, take its ring to its tail, and wait for the context to be quiet; SESSION_OPEN binds a session, which
opens at once where its client's address is held, and otherwise asks for it and waits; SESSION_CLOSE closes an open one of the same function. -/
def Obligations.ContextAndSessionCommands : Prop :=
  ∀ (s b : State) (c : Submission) (w : Work) (d : Descriptor), d = w.desc →
    (∀ (n : Nat) (r : Ring), Alone s (withOpcode 0x80 c) b w → d.stampArg.toNat % 4096 = 0 → d.valAddr.toNat % 4096 = 0 →
      4 ≤ d.param 0x22 1 → d.param 0x22 1 ≤ 16 → 4 ≤ d.param 0x23 1 → d.param 0x23 1 ≤ 16 → d.param 0x24 2 ≤ maxVector w.fn →
      d.param 0x26 2 < 2 → d.param 0x28 24 = 0 → (d.param 0x20 2 = n ∧ n < 4096 ∨ d.param 0x20 2 = 0xFFFF ∧ b.freeContext = some n) →
      b.contextUsed n = false → r = { fn := w.fn, sqBase := d.stampArg.toNat, cqBase := d.valAddr.toNat, sqSize := d.param 0x22 1
                                      cqSize := d.param 0x23 1, vector := d.param 0x24 2, intr := d.param 0x26 2 = 1 } →
      Executes (.queueCreate c true) s
        (((b.clearCounts n).updHost fun h => { h with rings := mapSet h.rings n r }).deliver w { commit := w.stamp, length := n })) ∧
    (∀ (r : Ring) (t : State), b.ring? (d.param 0x20 2) = some r → r.fn = w.fn →
      t = ((b.resetContext (d.param 0x20 2) w.stamp).updRing (d.param 0x20 2) fun r =>
        { r with discard := r.fetch, resume := r.tail, fetch := r.tail, faulted := false, held := false }).addWork { w with phase := .admin } →
      (Alone s (withOpcode 0x82 c) b w → Executes (.queueReset c true) s t) ∧
      (Alone s (withOpcode 0x81 c) b w → Executes (.queueDelete c true) s t)) ∧
    (∀ (block : Bytes) (n : Nat) (p : SessionParams) (x : Session) (t : State), Alone s (withOpcode 0x98 c) b w → w.block 128 = .ok block →
      b.sessionBlockFail block = none → bitOf (field block 1 1) 0 = false → b.freeContext = some n →
      p = sessionParams block (((b.fn w.fn).kek.bind fun k => Config.unwrapKey k (slice block 0x38 40)).getD 0) →
      x = { state := .resolving, fn := w.fn, params := p, seg := p.segment (b.port p.port).config.maxFrame, closer := some w.stamp } →
      t = ((b.clearCounts n).updWire fun k => { k with sessions := mapSet k.sessions n x }).addWork { w with phase := .admin } →
      (b.macOf p.port p.dstIp p.srcIp = none →
        Executes (.sessionOpen c true) s (t.neighbourRequest p.port p.dstIp (b.nextHop p.port p.dstIp p.srcIp))) ∧
      (∀ m : BitVec 48, b.macOf p.port p.dstIp p.srcIp = some m → Executes (.sessionOpen c true) s (t.openSession n))) ∧
    (∀ x : Session, Alone s (withOpcode 0x99 c) b w → b.session? (d.param 0x20 2) = some x → x.fn = w.fn → x.state = .open_ →
      Executes (.sessionClose c true) s
        ((b.addWork { w with phase := .admin }).closeSession (d.param 0x20 2) 4 w.stamp (some w.stamp)))

/-- Namespaces and hold points. NAMESPACE_SET creates a namespace with its key page, or changes the parameters whose valid bits are set;
NAMESPACE_DELETE takes it from every later command and from every hold; HOLD_SET holds every namespace at its own stamp, or those that still
reach an earlier one; HOLD_RELEASE lets it go. -/
def Obligations.NamespaceAndHoldCommands : Prop :=
  ∀ (s b : State) (c : Submission) (w : Work) (ns : Nat), ns = w.desc.ns.toNat →
    (∀ p : NsParams, Alone s (withOpcode 0x88 c) b w → ns ≠ 0 → ns < 1024 → mapGet? b.index.removing ns = none → b.space? ns = none →
      b.nsSetFail w none = none → p = nsParamsAfter w.desc { owner := w.fn } →
      Executes (.namespaceSet c true) s ((((b.updIndex fun i => { i with
        spaces := mapSet i.spaces ns { created := w.stamp, params := p, floor := 0 } }).nsRecord ns none (some p) w.stamp).metaWrite 0).deliver w { commit := w.stamp, length := 1 })) ∧
    (∀ (n m : Namespace), Alone s (withOpcode 0x88 c) b w → ns ≠ 0 → ns < 1024 → mapGet? b.index.removing ns = none →
      b.space? ns = some n → n.params.owner = w.fn → b.nsSetFail w (some n) = none → m.params = nsParamsAfter w.desc n.params →
      m = { n with params := m.params, refused := n.refused && m.params.quota != 0 && decide (m.params.quota ≤ b.quotaCount ns), floor := (if n.params.horizon = m.params.horizon then n.floor
        else max n.floor (boundB n.params.horizon (grainOf w.stamp))) } →
      Executes (.namespaceSet c true) s ((((b.updIndex fun i => { i with spaces := mapSet i.spaces ns m }).nsRecord ns
        (some n.params) (some m.params) w.stamp).metaWrite 0).deliver w { commit := w.stamp, length := 0 })) ∧
    (∀ n : Namespace, Alone s (withOpcode 0x89 c) b w → b.update.active = none → b.nsFail 0x89 ns = none → b.space? ns = some n →
      n.params.owner = w.fn →
      Executes (.namespaceDelete c true) s (((b.updIndex fun i => { i with
        spaces := mapErase i.spaces ns, removing := mapSet i.removing ns (n, some w.stamp)
        holds := i.holds.map fun h => { h with ns := h.ns.filter (· != ns) } }).metaWrite 0).addWork { w with phase := .admin })) ∧
    (Alone s (withOpcode 0xA3 c) b w → w.desc.stampArg = 0 → (∀ x ∈ b.index.holds, x.stamp ≠ w.stamp) → b.index.spaces ≠ [] →
      b.index.holds.length < Config.holdPoints →
      Executes (.holdSet c true) s ((((b.addHold w.stamp (b.index.spaces.map Prod.fst)).holdRecord w.stamp 0 0 b.index.spaces.length
        w.stamp).metaWrite 0).deliver w { commit := w.stamp, length := b.index.spaces.length, version := w.stamp })) ∧
    (∀ h : Nat, Alone s (withOpcode 0xA3 c) b w → h = w.desc.stampArg.toNat → h ≠ 0 →
      (w.stamp < h → Executes (.holdSet c true) s (b.deliver w { status := .futureStamp, commit := w.stamp })) ∧
      (h ≤ w.stamp → (∀ x ∈ b.index.holds, x.stamp ≠ h) → b.protectable h w.stamp = [] →
        Executes (.holdSet c true) s (b.deliver w { status := .beyondHorizon, commit := w.stamp })) ∧
      (h ≤ w.stamp → (∀ x ∈ b.index.holds, x.stamp ≠ h) → b.protectable h w.stamp ≠ [] → b.index.holds.length < Config.holdPoints →
        Executes (.holdSet c true) s ((((b.addHold h (b.protectable h w.stamp)).holdRecord h 0 0 (b.protectable h w.stamp).length
          w.stamp).metaWrite 0).deliver w { commit := w.stamp, length := (b.protectable h w.stamp).length, version := h }))) ∧
    (∀ x : Hold, Alone s (withOpcode 0xA4 c) b w → (b.index.holds.find? fun x => x.stamp = w.desc.stampArg.toNat) = some x →
      Executes (.holdRelease c true) s ((((b.updIndex fun i => { i with holds := i.holds.filter fun y => y.stamp != w.desc.stampArg.toNat }).holdRecord w.desc.stampArg.toNat 2 0 x.ns.length
        w.stamp).metaWrite 0).deliver w { commit := w.stamp }))

/-- Keys and the recorder. A KEY_PAGE_LOAD that finds the function's KEK, material that it opens, a limit in range and no previous
generation makes the next generation of its page, with the old one as the previous, and clears the staged material, as one that finds no KEK
or no random number generator does; KEK, RETIRE and CLEAR have their own effect, and CLEAR's refusal its own event. RETIRE ends a sweep that
still runs with nothing left to rewrite. CLEAR lets the sealed slots out that a full recorder area held back, before its own record. -/
def Obligations.KeyCommands : Prop :=
  ∀ (s b : State) (c : Submission) (w : Work) (f page : Nat) (m : Bytes), f = w.fn → page = w.desc.param 0x20 2 →
    m = padTo 4096 (b.fn f).stage →
    (∀ (key : BitVec 256) (gen : Generation), Alone s (withOpcode 0x90 (withParam 0x22 0 c)) b w → page ≤ 255 →
      ((b.fn f).kek.bind fun k => Config.unwrapKey k (slice m 0 40)) = some key → 20 ≤ field m 0x28 1 → field m 0x28 1 ≤ 40 →
      allZero (slice m 0x29 7) = true → b.drbgReady = true → gen.key = key → gen.salt = Config.drbg32 b.free → gen.uses = 0 →
      gen.warned = false → gen.limit = field m 0x28 1 → gen.force = gen.limit → gen.kept = gen.limit →
      (b.keyPage? page = none → gen.number = 1 → ∃ t : State, Executes (.keyPageLoadLoad c true) s (t.deliver w { commit := w.stamp, length := 1 }) ∧
        t.keyPage? page = some { owner := f, current := gen } ∧ (t.fn f).stage = [] ∧ t.free = b.free + 1 ∧
        (∀ g, g ≠ f → t.fn g = b.fn g) ∧ (∀ q, q ≠ page → t.keyPage? q = b.keyPage? q) ∧
        t.delta = (b.metaWrite 0).delta ∧
        t = { b with host := t.host, gorge := t.gorge, free := t.free, events := t.events, terrace := t.terrace, delta := t.delta }) ∧
      (∀ p : KeyPage, b.keyPage? page = some p → p.owner = f → p.previous = none →
        gen.number = (if p.current.number = 255 then 1 else p.current.number + 1) →
        ∃ t : State, Executes (.keyPageLoadLoad c true) s (t.deliver w { commit := w.stamp, length := gen.number }) ∧
          t.keyPage? page = some ({ p with
            current := gen, previous := some p.current, sweep := true, rewritten := 0, refused := false }) ∧ (t.fn f).stage = [])) ∧
    (Alone s (withOpcode 0x90 (withParam 0x22 0 c)) b w → (b.fn f).kek = none → page ≤ 255 → b.keyPage? page = none →
      Executes (.keyPageLoadLoad c true) s
        ((b.updFn f fun x => { x with stage := [] }).deliver w { status := .conditionFailed, commit := w.stamp })) ∧
    (∀ (k : BitVec 256) (v : Nat), Alone s (withOpcode 0x90 (withParam 0x22 1 c)) b w → b.drbgReady = true → b.kekCheck f m = .ok (k, v) →
      ∃ t : State, Executes (.keyPageLoadKek c true) s (t.deliver w { commit := w.stamp }) ∧
        t.fn f = { b.fn f with kek := some k, kekVersion := v, nonce := Config.drbg64 b.free, stage := [] } ∧ t.free = b.free + 1 ∧
        t.delta = (b.metaWrite 0).delta ∧
        t = { b with host := t.host, gorge := t.gorge, free := t.free, events := t.events, terrace := t.terrace, delta := t.delta }) ∧
    (Alone s (withOpcode 0x90 (withParam 0x22 1 c)) b w → b.drbgReady = false →
      Executes (.keyPageLoadKek c true) s
        ((b.updFn f fun x => { x with stage := [] }).deliver w { status := .busyRetry, detail := 10000, commit := w.stamp })) ∧
    (∀ p : KeyPage, Alone s (withOpcode 0x91 c) b w → page ≤ 255 → b.keyPage? page = some p → p.owner = f →
      (∀ g : Generation, p.previous = some g → b.sweepLeft page = 0 → b.works = [] → Executes (.keyPageRetire c true) s
        (((((if p.sweep then b.sweepDone page p else b).updPage page fun p => { p with previous := none, sweep := false }).metaWrite
          0).pageEvent f page g.number 2 w.stamp).deliver w { commit := w.stamp })) ∧
      (p.previous = none → b.pageNamespaces page = 0 → Executes (.keyPageRetire c true) s
        ((((b.updGorge fun g => { g with pages := mapErase g.pages page }).metaWrite 0).pageEvent f page p.current.number 3 w.stamp).deliver w
          { commit := w.stamp })) ∧
      (p.previous = none → b.pageNamespaces page ≠ 0 → Executes (.keyPageRetire c true) s
        (b.deliver w { status := .conditionFailed, commit := w.stamp }))) ∧
    (∀ (t : Bytes) (fail : Fail) (u : State), Alone s (withOpcode 0xA9 c) b w → w.carrier = .admin 0 → w.block 144 = .ok t →
      b.clearFail t = some fail → u = b.drbg.updTerrace (fun x => { x with clearNonce := Config.drbg64 b.free }) →
      Executes (.recordClear c true) s ((u.raise 211 0 w.stamp 5 (eventData [(2, fail.1.code), (4, 0)])).deliver w
        { status := fail.1, detail := fail.2, commit := w.stamp })) ∧
    (∀ (t : Bytes) (u v x : State) (gone : List RecPage), Alone s (withOpcode 0xA9 c) b w → w.carrier = .admin 0 → w.block 144 = .ok t →
      b.clearFail t = none → u = b.drbg.updTerrace (fun x => { x with clearNonce := Config.drbg64 b.free }) →
      gone = u.terrace.pages.take (field t 0x10 4) →
      v = u.updTerrace (fun x => { x with pages := x.pages.drop (field t 0x10 4), ring := field t 4 1 = 1, notKept := 0 }) →
      x = (if Config.recorderPages ≤ u.terrace.pages.length ∧ u.recorderWrites = true then v.flushSealed else v) →
      Executes (.recordClear c true) s (((x.raiseOnly 211 0 w.stamp (eventData [(2, 0), (4, gone.length)])).record 3 w.stamp
        (clearPayload gone t)).deliver w { commit := w.stamp, length := (gone.map fun p => p.recs.length).sum }))

/-- Firmware. FW_DOWNLOAD writes its bytes into the staging range, whole sectors erased first; FW_ACTIVATE begins its preparation, or is
refused with the first reason of R361; FW_CONFIRM ends the trial: the update state is CONFIRMED, the revocation target the running image's
security version. -/
def Obligations.FirmwareCommands : Prop :=
  ∀ (s b : State) (c : Submission) (w : Work),
    (∀ data : Bytes, Alone s (withOpcode 0xB0 c) b w → b.update.active = none → b.update.quiesce = 0 → 1 ≤ w.desc.valLen.toNat →
      w.desc.valLen.toNat ≤ 1048576 → w.desc.stampArg.toNat % 4096 = 0 → w.desc.stampArg.toNat + w.desc.valLen.toNat ≤ Config.stagingSize →
      w.block w.desc.valLen.toNat = .ok data → ∀ base : Nat, base = Config.stagingBase + w.desc.stampArg.toNat →
      Executes (.fwDownload c true) s ((b.updSpi fun p => { p with
        mem := spiWrite (spiErase p.mem base (ceilDiv data.length 4096 * 4096)) base data }).deliver w
          { commit := w.stamp, length := data.length })) ∧
    (Alone s (withOpcode 0xB1 c) b w → b.update.active = none → b.update.quiesce = 0 → b.inTrial = false →
      (b.activateRefusal = none → Executes (.fwActivate c true) s
        (({ b with update := { b.update with active := some w.stamp, preparing := true, progress := 0 } }).addWork
          { w with phase := .admin })) ∧
      (∀ reason : Nat, b.activateRefusal = some reason → Executes (.fwActivate c true) s
        ((b.raise 209 0 w.stamp 0xC00 (eventData [(1, reason), (1, b.update.running)])).deliver w
          { status := .updateRefused, detail := reason, commit := w.stamp }))) ∧
    ((b.spi.lock = true → b.activateRefusal = some 2) ∧ (b.spi.lock = false → b.test.run ≠ none → b.activateRefusal = some 4) ∧
      (b.spi.lock = false → b.test.run = none → b.cluster.pairs ≠ [] → b.activateRefusal = some 3) ∧
      (b.spi.lock = false → b.test.run = none → b.cluster.pairs = [] → b.pins.holdupStable = false → b.activateRefusal = some 1) ∧
      (b.spi.lock = false → b.test.run = none → b.cluster.pairs = [] → b.pins.holdupStable = true → b.activateRefusal = none)) ∧
    (b.update.active ≠ none ∨ b.update.quiesce ≠ 0 ∨ b.inTrial = true → Alone s (withOpcode 0xB1 c) b w →
      Executes (.fwActivate c true) s (b.deliver w { status := .conditionFailed, commit := w.stamp })) ∧
    (∀ (target : Nat) (u : State), Alone s (withOpcode 0xB3 c) b w → b.inTrial = true → b.update.expired = false →
      target = field (b.manifestAt (slotBase b.update.running)) 8 4 →
      u = ((b.writeUp fun u => { u with state := .confirmed, outcome := 2, target := target, deadline := 0 }).updUpdate
        fun u => { u with outcome := 2 }).fuseAdvance true →
      Executes (.fwConfirm c true) s
        ((u.raise 214 0 w.stamp 0xC02 (eventData [(1, b.update.running), (4, target)])).deliver w { commit := w.stamp })) ∧
    (Alone s (withOpcode 0xB3 c) b w → b.inTrial = false →
      Executes (.fwConfirm c true) s (b.deliver w { status := .conditionFailed, commit := w.stamp }))

/-- Between the stamp of a FW_ACTIVATE and its completion, a FW_DOWNLOAD completes BUSY_RETRY with no effect. -/
def Obligations.DownloadsWaitForActivation : Prop :=
  ∀ (s b : State) (c : Submission) (w : Work), Alone s (withOpcode 0xB0 c) b w → b.update.active ≠ none →
    ∃ (t : State) (r : Nat), b.retryAfter 1 = (t, r) ∧
      Executes (.fwDownload c true) s (t.deliver w { status := .busyRetry, detail := r, commit := w.stamp }) ∧
      t = { b with free := t.free }

/-- Time and calendar. TIME_SET CONFIGURE changes the configuration, and starts the search for a reference anew where the source, the time
port or the domain changes; SET_TOD names the second of the next PPS edge; READMIT ends a LOST that has relocked. SCHEDULE_SET sets a
window, whose edges of this grain follow in this grain. -/
def Obligations.TimeCommands : Prop :=
  ∀ (s b : State) (c : Submission) (w : Work) (old new : TimeConfig), old = b.time.config → new = timeConfigOf w.desc old →
    (Alone s (withOpcode 0xA5 (withParam 0x20 0 c)) b w → b.timeSetFail w.desc = none →
      (old.source = new.source → old.timePort = new.timePort → old.profile = new.profile → old.domain = new.domain →
        old.transport = new.transport → old.backup = new.backup →
        Executes (.timeSetConfigure c true) s
          ((({ b with time := { b.time with config := new } }).metaWrite 0).deliver w { commit := w.stamp })) ∧
      (old.source ≠ new.source ∨ old.timePort ≠ new.timePort ∨ old.domain ≠ new.domain → Executes (.timeSetConfigure c true) s
        (((b.refChange w.stamp fun t => { t with
          config := new, mainMaster := none, backMaster := none, inUse := 255, masterId := 0, todPending := none, todApplied := false
          ppsMissing := false }).metaWrite 0).deliver w { commit := w.stamp })) ∧
      (old.source = new.source → old.timePort = new.timePort → old.profile = new.profile → old.domain = new.domain →
        old.transport = new.transport → old.backup ≠ new.backup → Executes (.timeSetConfigure c true) s
          (((b.mastersChange w.stamp fun t => { t with config := new, backMaster := none }).metaWrite 0).deliver w { commit := w.stamp }))) ∧
    (Alone s (withOpcode 0xA5 (withParam 0x20 1 c)) b w → b.timeSetFail w.desc = none → Executes (.timeSetSetTod c true) s
      (({ b with time := { b.time with todPending := some w.desc.stampArg.toNat } }).deliver w { commit := w.stamp })) ∧
    (Alone s (withOpcode 0xA5 (withParam 0x20 2 c)) b w → b.timeSetFail w.desc = none →
      (b.time.quality = .lost → b.time.relocked = true → Executes (.timeSetReadmit c true) s
        (((b.recordEvent 16 w.stamp 0x106 (b.qualityData .lost .locked)).setQuality .locked w.stamp).deliver w { commit := w.stamp })) ∧
      (b.time.quality ≠ .lost → Executes (.timeSetReadmit c true) s
        (b.deliver w { status := .timeUnlocked, detail := b.time.quality.code, commit := w.stamp }))) ∧
    (∀ (n g : Nat) (x before : Window), Alone s (withOpcode 0xA2 c) b w → scheduleFail w.desc = none → n = w.desc.param 0x20 1 →
      g = grainOf w.stamp → before = mapGet {} b.time.windows n →
      x = { enable := w.desc.param 0x21 1 = 1, period := w.desc.stampArg.toNat, start := w.desc.param 0x28 8, duration := w.desc.param 0x30 8
            gc := w.desc.param 0x22 1, patrol := w.desc.param 0x23 1, floor := w.desc.param 0x24 1, hold := w.desc.param 0x25 1 = 1
            started := x.started, ended := g, endOwed := before.active g && !x.active g } →
      x.started = (if (!before.enable || x.period != before.period || x.start != before.start) && x.active g && !before.active g
        then x.lastEdge g else g) →
      Executes (.scheduleSet c true) s (((({ b with time := { b.time with windows := mapSet b.time.windows n x } }).updCol fun k =>
        { k with intake := k.intake ++ (if x.endDue g then [Event.calEnd n] else []) ++ (if x.startDue g then [Event.calStart n] else []) }).metaWrite
          0).deliver w { commit := w.stamp }))

/-- The cluster and the ports. ROLE_SET changes the role in SERVICE without a pair; MAP_SET IDENTITY and MAP take their block; PAIR_END
CANCEL fails its pair, KEEP_SOURCE and KEEP_TARGET end an UNCERTAIN one on the side they name; PORT_SET sets a quad's mode with every port
of it disabled, a port, or the UDP port with no session open. -/
def Obligations.ClusterAndPortCommands : Prop :=
  ∀ (s b : State) (c : Submission) (w : Work),
    (∀ role : Nat, Alone s (withOpcode 0xB8 c) b w → role = w.desc.param 0x20 1 → role < 3 → b.mode = .service → b.cluster.pairs = [] →
      Executes (.roleSet c true) s ((({ b with cluster := { b.cluster with role := roleOf role, roleStored := some (roleOf role) } }).record
        0x803 w.stamp ([BitVec.ofNat 8 b.cluster.role.code, BitVec.ofNat 8 role] ++ zeros 6)).deliver w { commit := w.stamp })) ∧
    (Alone s (withOpcode 0xB8 c) b w → w.desc.param 0x20 1 < 3 → b.mode ≠ .service ∨ b.cluster.pairs ≠ [] →
      Executes (.roleSet c true) s (b.deliver w { status := .conditionFailed, commit := w.stamp })) ∧
    (∀ (h : Bytes) (id : Identity), Alone s (withOpcode 0xB9 (withAreaByte 0 c)) b w → w.block 64 = .ok h → field h 0 1 = 0 →
      b.cluster.role ≠ .standalone → b.identityFail h = none → b.index.keys = [] → b.cluster.pairs = [] →
      id = { v6 := field h 1 1 = 6, device := field h 2 2, manager := field h 4 2, udp := field h 6 2, port := field h 8 1
             group := BitVec.ofNat 128 (fieldBe h 0x20 16), address := BitVec.ofNat 128 (fieldBe h 0x30 16) } →
      Executes (.mapSetIdentity c true) s ((((({ b with
        cluster := { b.cluster with identity := some id }, index := { b.index with fpKey := some (BitVec.ofNat 128 (field h 0x10 16)) } }).metaWrite
          0).mapEvent 0 b.cluster.epoch id.manager w.stamp)).deliver w { commit := w.stamp })) ∧
    (∀ h m : Bytes, Alone s (withOpcode 0xB9 (withAreaByte 1 c)) b w → w.block 64 = .ok h → field h 0 1 = 1 → w.block 65600 = .ok m →
      b.cluster.role = .manager → mapFail m = none → b.cluster.epoch < field m 0x0C 4 → b.cluster.pairs = [] →
      Executes (.mapSetMap c true) s ((((b.installMap m (field m 0x0C 4) w.stamp w.stamp).metaWrite 0).mapEvent 1 (field m 0x0C 4)
        b.deviceNumber w.stamp).publish.deliver w { commit := w.stamp })) ∧
    (∀ h m : Bytes, Alone s (withOpcode 0xB9 (withAreaByte 1 c)) b w → w.block 64 = .ok h → field h 0 1 = 1 → w.block 65600 = .ok m →
      b.cluster.role = .manager → mapFail m = none → field m 0x0C 4 ≤ b.cluster.epoch →
      Executes (.mapSetMap c true) s (b.deliver w { status := .conditionFailed, commit := w.stamp })) ∧
    (∀ p : Pair, (b.cluster.pairs.find? fun p => p.number = w.desc.param 0x20 2) = some p → p.fn = w.fn →
      (Alone s (withOpcode 0xBB (withParam 0x22 0 c)) b w →
        Executes (.pairEndCancel c true) s (((b.pairFail p 1 w.stamp).metaWrite 0).deliver w { commit := w.stamp })) ∧
      (p.state = .uncertain → p.target = false →
        (Alone s (withOpcode 0xBB (withParam 0x22 1 c)) b w → Executes (.pairEndKeepSource c true) s
          ((((b.removePair p.number).pairEvent p 0 1 w.stamp).metaWrite 0).deliver w { commit := w.stamp })) ∧
        (Alone s (withOpcode 0xBB (withParam 0x22 2 c)) b w → Executes (.pairEndKeepTarget c true) s
          ((((((b.overrideOwner p p.peer).dropSlices p).removePair p.number).pairEvent p 0 1 w.stamp).metaWrite 0).deliver w
            { commit := w.stamp }))) ∧
      (p.state = .uncertain → p.target = true →
        (Alone s (withOpcode 0xBB (withParam 0x22 1 c)) b w → Executes (.pairEndKeepSource c true) s
          (((((b.dropCopies p).removePair p.number).pairEvent p 0 1 w.stamp).metaWrite 0).deliver w { commit := w.stamp })) ∧
        (Alone s (withOpcode 0xBB (withParam 0x22 2 c)) b w → Executes (.pairEndKeepTarget c true) s
          (((((b.overrideOwner p b.deviceNumber).removePair p.number).pairEvent p 0 1 w.stamp).metaWrite 0).deliver w
            { commit := w.stamp })))) ∧
    (∀ (k : Bytes) (q m : Nat), Alone s (withOpcode 0xC2 (withAreaByte 0 c)) b w → w.block 0xA0 = .ok k → field k 0 1 = 0 →
      q = field k 1 1 → m = field k 2 1 → q < 4 → m < 5 ∨ m = 255 → allZero (slice k 0xC 4) = true → allZero (slice k 0x88 24) = true →
      (∀ p ∈ quadPorts q, (b.port p).config.enable = false) →
      Executes (.portSetQuad c true) s ((({ b with ports := { b.ports with
        quads := b.ports.quads.set q m, stQuads := some (b.ports.quads.set q m) } }).metaWrite 0).deliver w { commit := w.stamp })) ∧
    (∀ (k : Bytes) (p : Nat) (cfg : PortConfig), Alone s (withOpcode 0xC2 (withAreaByte 1 c)) b w → w.block 0xA0 = .ok k → field k 0 1 = 1 →
      p = field k 1 1 → b.portFail k = none → cfg = portConfigOf k → b.portRefused p cfg = false →
      Executes (.portSetPort c true) s (((b.portApply p cfg).updPorts fun x => { x with stPorts := mapSet x.stPorts p cfg }).metaWrite
        0 |>.deliver w { commit := w.stamp })) ∧
    (∀ (k : Bytes) (u : Nat), Alone s (withOpcode 0xC2 (withAreaByte 2 c)) b w → w.block 0xA0 = .ok k → field k 0 1 = 2 → u = field k 4 2 →
      u ≠ 0 → u ≠ 319 → u ≠ 320 → allZero (slice k 0xC 4) = true → allZero (slice k 0x88 24) = true → b.wire.sessions = [] →
      Executes (.portSetUdpPort c true) s
        ((({ b with ports := { b.ports with udp := u, stUdp := u } }).metaWrite 0).deliver w { commit := w.stamp }))

/-- PAIR_START and LINK_TEST. A pair whose block is in range starts copying, with the mode PAIRED, source 194, and, at the source, a PING
that learns the peer's credit (behind the request for its address where none is held); the target's side starts with no frame; a block that a rule of R311 refuses changes nothing. A LINK_TEST in SERVICE takes the device to MAINTENANCE,
and its test waits for the earlier commands; elsewhere it is refused. A LINK_TEST still waiting for earlier commands after 300 ms catches
those that wait; a test that has run its duration ends: its ports restart, the mode returns to SERVICE, or SEALED on sealed media, source
224 tells kind, targets and failures, and the command completes with the results. -/
def Obligations.PairStartAndLinkTest : Prop :=
  (∀ (s b : State) (c : Submission) (w : Work),
     (∀ (h k : Bytes) (p : Pair) (own : IpEntry) (key : Option (BitVec 256)), Alone s (withOpcode 0xBA c) b w → w.block 0x270 = .ok h → b.pairBlockFail h = none →
       w.block (0x270 + 2 * field h 6 2) = .ok k → (∀ i ∈ pairSlices k (field k 6 2), i < Config.slices) → field k 1 1 = 0 →
       key = ((b.fn w.fn).kek.bind fun x => Config.unwrapKey x (slice k 0x30 40)) → (bitOf (field k 0x15 1) 0 = true → key.isSome = true) →
       b.pairRefused k = false → b.index.holds.length ≤ Config.holdPoints →
       p = { number := b.pairSlot + 1, kind := field k 0 1, target := false, peer := field k 2 2, session := field k 4 2
             slices := pairSlices k (field k 6 2), slot := b.pairSlot, fn := w.fn, rate := if field k 8 4 = 0 then 2000 else field k 8 4
             lead := if field k 0xC 4 = 0 then 1000 else field k 0xC 4, sample := field k 0x14 1, t0 := w.stamp, startedAt := b.localUs
             nextSeq := BitVec.ofNat 32 (field k 0x10 4), credit := BitVec.ofNat 32 (field k 0x10 4) - 1, params := p.params } →
       own = ((b.port (field k 0x16 1)).config.entries.find? fun e => e.version = if field k 0x17 1 = 6 then 6 else 4).getD {} →
       p.params = { v6 := field k 0x17 1 = 6, secure := bitOf (field k 0x15 1) 0, port := field k 0x16 1, srcPort := BitVec.ofNat 16 (field k 0x28 2)
                    vlan := own.vlan, srcIp := BitVec.ofNat 128 (fieldBe k 0x18 16), dstIp := own.addr, tci := own.vlan.getD 0
                    salt := BitVec.ofNat 32 (field k 0x2C 4), key := key.getD 0, initial := BitVec.ofNat 32 (field k 0x10 4) } →
       ∃ t u : State, t = ({ b with cluster := { b.cluster with pairs := b.cluster.pairs ++ [p] } }) ∧
         u = (if b.mode = .paired then t else t.enterMode .paired).raise 194 0 w.stamp 0x801
           (eventData [(1, p.number), (1, p.kind), (1, 0), (2, p.peer), (2, p.slices.length)]) ∧
         Executes (.pairStart c true) s ((((if (b.macOf p.params.port p.params.dstIp p.params.srcIp).isSome then u else
             u.neighbourRequest p.params.port p.params.dstIp (b.nextHop p.params.port p.params.dstIp p.params.srcIp)).peerFrame p 6 false 0 0 0
               (beBytes 8 b.nowNs)).metaWrite 0).deliver w { commit := w.stamp, length := p.number })) ∧
     (∀ (h k : Bytes) (p : Pair) (own : IpEntry), Alone s (withOpcode 0xBA c) b w → w.block 0x270 = .ok h → b.pairBlockFail h = none →
       w.block (0x270 + 2 * field h 6 2) = .ok k → (∀ i ∈ pairSlices k (field k 6 2), i < Config.slices) → field k 1 1 = 1 →
       b.pairRefused k = false → b.newHolds k = [] → b.index.holds.length ≤ Config.holdPoints →
       own = ((b.port (field k 0x16 1)).config.entries.find? fun e => e.version = if field k 0x17 1 = 6 then 6 else 4).getD {} →
       p = { number := b.pairSlot + 1, kind := field k 0 1, target := true, peer := field k 2 2, session := field k 4 2
             slices := pairSlices k (field k 6 2), slot := b.pairSlot, fn := w.fn, rate := if field k 8 4 = 0 then 2000 else field k 8 4
             lead := if field k 0xC 4 = 0 then 1000 else field k 0xC 4, sample := field k 0x14 1, t0 := w.stamp, startedAt := b.localUs
             nextSeq := BitVec.ofNat 32 (field k 0x10 4), credit := BitVec.ofNat 32 (field k 0x10 4) - 1
             params := { v6 := field k 0x17 1 = 6, secure := false, port := field k 0x16 1, srcPort := BitVec.ofNat 16 (field k 0x28 2)
                         vlan := own.vlan, srcIp := BitVec.ofNat 128 (fieldBe k 0x18 16), dstIp := own.addr, tci := own.vlan.getD 0
                         salt := BitVec.ofNat 32 (field k 0x2C 4)
                         key := ((b.fn w.fn).kek.bind fun x => Config.unwrapKey x (slice k 0x30 40)).getD 0
                         initial := BitVec.ofNat 32 (field k 0x10 4) } } →
       ∃ t : State, t = ({ b with cluster := { b.cluster with pairs := b.cluster.pairs ++ [p] } }) ∧
         Executes (.pairStart c true) s ((((if b.mode = .paired then t else t.enterMode .paired).raise 194 0 w.stamp 0x801
           (eventData [(1, p.number), (1, p.kind), (1, 1), (2, p.peer), (2, p.slices.length)])).metaWrite 0).deliver w
             { commit := w.stamp, length := p.number })) ∧
     (∀ h k : Bytes, Alone s (withOpcode 0xBA c) b w → w.block 0x270 = .ok h → b.pairBlockFail h = none →
       w.block (0x270 + 2 * field h 6 2) = .ok k → (∀ i ∈ pairSlices k (field k 6 2), i < Config.slices) → bitOf (field k 0x15 1) 0 = false →
       b.pairRefused k = true → Executes (.pairStart c true) s (b.deliver w { status := .conditionFailed, commit := w.stamp })) ∧
     (∀ (k : Bytes) (r : TestRun), Alone s (withOpcode 0xC0 c) b w → b.mode = .service → w.block 32 = .ok k → b.blockFail k false = none →
       16 + 32 * (testTargets k b.delta.inUse).length ≤ w.desc.valLen.toNat → b.testConflict w k = false →
       r = { block := k, stamp := some w.stamp, accepted := b.localUs, kind := field k 0 1, duration := field k 4 4
             targets := testTargets k b.delta.inUse } →
       Executes (.linkTest c true) s
         (((({ b with test := { b.test with run := some r } }).addWork { w with phase := .admin }).enterMode .maintenance).beginExit)) ∧
     (Alone s (withOpcode 0xC0 c) b w → b.mode ≠ .service →
       Executes (.linkTest c true) s (b.deliver w { status := .conditionFailed, commit := w.stamp }))) ∧
  (∀ (s : State) (r : TestRun), s.cored = true → s.test.run = some r →
     (r.quiesced = false → r.accepted + 300000 ≤ s.localUs → Acts .linkTestQuiesceTimeout s s.catchWaiting) ∧
     (r.quiesced = true ∨ s.localUs < r.accepted + 300000 → Acts .linkTestQuiesceTimeout s s) ∧
     (∀ (l : List TestResult) (st : Stamp) (w : Work) (t u : State), r.quiesced = true → r.started + 1000 * r.duration ≤ s.grain →
       r.stamp = some st → t = { s with test := { s.test with run := none, result := r.results r.duration l, done := true } } →
       u = ((if r.kind = 1 then t.restartPorts r.targets else t).enterMode
           (if s.delta.sealed then .sealed else .service)).raiseOnly 224 0 0 (eventData [(1, r.kind), (2, r.targets.length),
             (2, (r.targets.filter fun t => l.any fun x => x.target = t && x.errors != 0).length)]) →
       u.work? st = some w →
       Acts (.linkTestEnd l) s (u.returns w (r.results r.duration l) { length := (r.results r.duration l).length })))

/-- The messages of a peer to a target pair. COPY_DONE ends the copy; PROPOSE is accepted while the pair copies, two grains or more ahead of
its stamp and with the clock LOCKED; MARK completes the cutover of the grain it names; anything else is refused. APPLY and COMPARE start
like the write and the read that they are; that no cutover holds a message of the pair, and that a COMPARE meets the access rules but no
slice check, is the model's reading (log entry 130). -/
def Obligations.PairMessages : Prop :=
  ∀ (s b : State) (c : Submission) (w : Work) (p : Pair) (u : State) (cut : Nat), b.peerPair w.carrier = some p → u = b.addWork w →
    cut = grainOf (w.desc.param 0x38 8) →
    (Alone s (withOpcode 0x22 (withParam 0x32 3 c)) b w → Executes (.copyDone c true) s
      ((u.updPair p.number fun p => { p with copyDone := true }).deliver w { commit := w.stamp })) ∧
    (Alone s (withOpcode 0x22 (withParam 0x32 4 c)) b w →
      (p.state = .copying → p.kind ≠ 2 → grainOf w.stamp + 2 ≤ cut → b.time.quality = .locked → Executes (.propose c true) s
        (((u.updPair p.number fun p => { p with state := .committed, cutover := cut }).metaWrite 0).deliver w { commit := w.stamp })) ∧
      (p.state ≠ .copying ∨ p.kind = 2 ∨ cut < grainOf w.stamp + 2 ∨ b.time.quality ≠ .locked → Executes (.propose c true) s
        (u.deliver w { status := .conditionFailed, commit := w.stamp }))) ∧
    (Alone s (withOpcode 0x22 (withParam 0x32 5 c)) b w →
      (p.state = .committed → p.cutover = cut → Executes (.mark c true) s
        (((u.deliver w { commit := w.stamp }).cutover p w.stamp).metaWrite 0)) ∧
      (p.state ≠ .committed ∨ p.cutover ≠ cut → Executes (.mark c true) s
        (u.deliver w { status := .conditionFailed, commit := w.stamp }))) ∧
    (Alone s (withOpcode 0x02 (withParam 0x32 2 c)) b w → Executes (.compare c true) s (u.admitRead w)) ∧
    (∀ op : Nat, op ∈ [0x10, 0x12, 0x13, 0x14] → w.op = op → (op = 0x13 → b.update.active = none) → Alone s (withParam 0x32 1 c) b w →
      Executes (.apply c true) s (u.admitWrite w))

/-- Writes reach the gate at their stamp: PUT, PUT_IF, DELETE, DELETE_SECURE, BATCH and TOUCH take the counter values of their records, or
complete KEY_EXHAUSTED; they join the list of each of their keys, and proceed at once where they head every list and nothing holds them. A
stalled gate, and one that cannot take them, holds them outside, with no counter value taken. Reads reach the gate at their stamp: GET, GET_AS_OF, VERSIONS and ENUMERATE proceed where no earlier write
that they must see is pending, and otherwise wait there and are counted. FLUSH forces what holds the writes that it covers (R91) and waits until
their records are programmed. -/
def Obligations.DataCommandsEnterTheGate : Prop :=
  (∀ (s b u : State) (c : Submission) (w : Work) (op : Nat) (row : Submission → Bool → Instr),
     (op, row) ∈ ([(0x10, Instr.put), (0x11, Instr.putIf), (0x12, Instr.delete), (0x13, Instr.deleteSecure), (0x14, Instr.batch),
       (0x15, Instr.touch)] : List (Nat × (Submission → Bool → Instr))) →
     Alone s (withOpcode op c) b w → b.peerPair w.carrier = none → b.cutHolds w = false → (op = 0x13 → b.update.active = none) →
     u = b.addWork w →
     (u.gateStalled w.stamp = true → Executes (row c true) s (u.updWork w.stamp fun w => { w with phase := .ordered })) ∧
     (u.gateStalled w.stamp = false →
       (∀ v : State, u.takeUses w.page w.gen w.writeUnits (op = 0x12 || op = 0x13) w.stamp = (v, none) →
         Executes (row c true) s (v.failWork w (.keyExhausted, 0))) ∧
       (∀ (v z y : State) (first : Nat) (x : Work), u.takeUses w.page w.gen w.writeUnits (op = 0x12 || op = 0x13) w.stamp = (v, some first) →
         v.gateJoin w.desc.ns.toNat w.fps w.stamp = (z, true) →
         x = { w with phase := .gate, gen := ((u.keyPage? w.page).map fun p => (p.generation w.gen).1.number).getD w.gen
                      items := (w.items.foldl (fun (acc : List Item × Nat) i => (acc.1 ++ [{ i with counter := acc.2 }], acc.2 + i.workUnits))
                        ([], first)).1 } →
         y = z.updWork w.stamp (fun _ => x) →
         (y.writeMayGo x = true → Executes (row c true) s (y.proceedWrite x)) ∧
         (y.writeMayGo x = false → Executes (row c true) s y)) ∧
       (∀ (v z : State) (first : Nat), u.takeUses w.page w.gen w.writeUnits (op = 0x12 || op = 0x13) w.stamp = (v, some first) →
         v.gateJoin w.desc.ns.toNat w.fps w.stamp = (z, false) → Executes (row c true) s
           ((u.gateJoin w.desc.ns.toNat w.fps w.stamp).1.updWork w.stamp fun x => { x with phase := .ordered })))) ∧
  (∀ (s b u : State) (c : Submission) (w : Work), b.peerPair w.carrier = none → b.cutHolds w = false → u = b.addWork w →
     (∀ (op : Nat) (row : Submission → Bool → Instr), (op, row) ∈ ([(1, Instr.get), (2, Instr.getAsOf), (3, Instr.versions),
         (4, Instr.enumerate)] : List (Nat × (Submission → Bool → Instr))) → Alone s (withOpcode op c) b w →
       (u.gateStalled w.stamp = true → Executes (row c true) s (u.updWork w.stamp fun w => { w with phase := .ordered })) ∧
       (u.gateStalled w.stamp = false → u.readMayGo w = true → Executes (row c true) s (u.proceedRead { w with phase := .gate })) ∧
       (u.gateStalled w.stamp = false → u.readMayGo w = false → Executes (row c true) s
         (({ u with glen := { u.glen with waits := inc64 u.glen.waits } }).updWork w.stamp fun w => { w with phase := .gate }))) ∧
     (Alone s (withOpcode 0x20 c) b w → Executes (.flush c true) s
       (((u.updWork w.stamp fun w => { w with phase := .flush }).forceFlush w.desc.ns.toNat w.stamp).settleOne { w with phase := .flush })))

/-- What the gate lets through: a read chooses its version at its bound, or completes NOT_FOUND with the reason and the stamp of what is
there, and a list is built; a PUT_IF whose expected stamp differs completes CONDITION_FAILED with the visible stamp; a DELETE or TOUCH of a
key that is not visible completes NOT_FOUND; a write over quota or over the index reserve completes NO_SPACE; each without effect. A DELETE, a
DELETE_SECURE or an APPLY meets neither, but an index area without room for its entries refuses it too (log entry 110: the model's choice).
Otherwise the write is charged and asks for its buffer. A read of a poisoned entry completes POISONED; a version on the lost-record list ends
its read MEDIA_UNREADABLE. -/
def Obligations.GateDecides : Prop :=
  ∀ (s : State) (id ns : Nat) (w : Work), s.clocked = true → s.work? id = some w → w.phase = .gate → ns = w.desc.ns.toNat →
    (s.orderHeld w = false → s.readMayGo w = true → isReadOp w.op = true →
      ((s.spaceAt ns w.stamp).isNone = true → Acts (.gateProceed id) s (s.deliver w { status := .namespaceUnknown, commit := w.stamp })) ∧
      ((s.spaceAt ns w.stamp).isSome = true → w.op ≠ 4 → (s.keyEntry ns w.key).any KeyEntry.poisoned = true → Acts (.gateProceed id) s
        ((s.poisonUsed (s.lineAt (Config.bucketLine w.fp)) 1 w.stamp).deliver { w with diverted := true } { status := .poisoned, commit := w.stamp })) ∧
      ((s.spaceAt ns w.stamp).isSome = true → (s.keyEntry ns w.key).any KeyEntry.poisoned = false → w.op = 3 →
        Acts (.gateProceed id) s (s.listReady (s.versionsResult w))) ∧
      ((s.spaceAt ns w.stamp).isSome = true → w.op = 4 → ∀ (own : State) (area : Bytes × Nat),
        own = s.updIndex (fun i => { i with keys := i.keys.filter fun k => s.owns (sliceOf k.fp) }) →
        area = own.enumerate ns (cursorOf ((w.items.head?.map Item.value).getD [])) w.key w.desc.stampArg.toNat w.stamp w.desc.aux.toNat
          w.desc.valLen.toNat →
        Acts (.gateProceed id) s (s.listReady { w with data := area.1, result := { commit := w.stamp, length := area.2, version := w.bound } })) ∧
      ((s.spaceAt ns w.stamp).isSome = true → (s.keyEntry ns w.key).any KeyEntry.poisoned = false → w.op = 1 ∨ w.op = 2 →
        ∀ (x : Work) (seen : Look), x = { w with diverted := w.diverted || decide (64 < walkLength (s.chain ns w.key) w.bound) } →
        seen = look (s.chain ns w.key) w.bound (if w.desc.stampArg.toNat ≠ 0 then grainOf w.desc.stampArg.toNat else grainOf w.stamp) w.stamp →
        (∀ r st : Nat, seen = .missing r st →
          Acts (.gateProceed id) s (s.deliver x { status := .notFound, commit := w.stamp, detail := r, version := st })) ∧
        (∀ (v : Version) (data : Bytes) (y : Work), seen = .found v → data = v.value.take w.desc.valLen.toNat →
          y = { x with data := data, loc := v.loc, page := v.page, gen := v.gen, unit := 0, units := 1 + ceilDiv data.length 65536
                       result := { commit := w.stamp, length := v.value.length, version := v.stamp
                                   detail := b2n (decide (w.desc.valLen.toNat < v.value.length)) } } →
          (v.loc = none → Acts (.gateProceed id) s (s.withBuffer y (y.unitNeed.getD 1) .cipher)) ∧
          (∀ l : Loc, v.loc = some l → s.inBasin l (recordUnits w.key.length v.value.length) = true →
            Acts (.gateProceed id) s (s.withBuffer y (y.unitNeed.getD 1) .cipher)) ∧
          (∀ l : Loc, v.loc = some l → s.inBasin l (recordUnits w.key.length v.value.length) = false →
            ((s.delta.lostList.any fun e => e.1 = ns && e.2.1 = w.fp && e.2.2 = v.stamp) = true → Acts (.gateProceed id) s (s.unreadable y l)) ∧
            ((s.delta.lostList.any fun e => e.1 = ns && e.2.1 = w.fp && e.2.2 = v.stamp) = false →
              Acts (.gateProceed id) s (s.withBuffer y (y.unitNeed.getD 1) .media)))))) ∧
    (isWriteOp w.op = true → s.writeMayGo w = true →
      (∀ (i : Item) (look : Look), w.items = [i] → w.isApply = false → look = s.itemLook w i → w.op = i.opcode →
        (s.keyEntry ns i.key).any KeyEntry.poisoned = false →
        (∀ seen : Nat, i.opcode = 0x11 → (seen = 0 ∧ ∃ r st, look = .missing r st) ∨ (∃ v, look = .found v ∧ seen = v.stamp) → i.arg ≠ seen →
          Acts (.gateProceed id) s (s.endWithout w { status := .conditionFailed, commit := w.stamp, version := seen })) ∧
        (∀ r st : Nat, i.opcode = 0x12 ∨ i.opcode = 0x15 → look = .missing r st →
          Acts (.gateProceed id) s (s.endWithout w { status := .notFound, commit := w.stamp, detail := r, version := st }))) ∧
      (∀ (items : List Item) (m n : Namespace) (charge count : Nat) (x : Work) (grows : Bool), s.itemsDecide w w.items 0 = .ok items →
        x = { w with items := items } → s.spaceAt ns w.stamp = some m → n = { m with params := (w.space.getD m).params } →
        grows = (!w.isApply && w.op != 0x12 && w.op != 0x13) → charge = (items.map Item.charge).sum → count = s.quotaCount ns →
        (s.applyVoid x = true → Acts (.gateProceed id) s (s.endWithout x.chargeless { commit := w.stamp })) ∧
        (s.applyVoid x = false →
          (grows = true → n.params.quota ≠ 0 → n.params.quota < count + charge →
            Acts (.gateProceed id) s ((s.quotaRefused ns n count w.stamp).endWithout x.chargeless
              { status := .noSpace, commit := w.stamp, detail := 3 })) ∧
          (grows = true → n.params.quota = 0 ∨ count + charge ≤ n.params.quota → s.freeEntries ≤ Config.indexReserve →
            (∃ i ∈ items, s.indexNeed ns i.key (x.version i 0) = true) →
            Acts (.gateProceed id) s (s.endWithout x.chargeless { status := .noSpace, commit := w.stamp, detail := 2 })) ∧
          (grows = false ∨ (n.params.quota = 0 ∨ count + charge ≤ n.params.quota) ∧
              (Config.indexReserve < s.freeEntries ∨ ∀ i ∈ items, s.indexNeed ns i.key (x.version i 0) = false) →
            (s.indexFull x items = true →
              Acts (.gateProceed id) s (s.endWithout x.chargeless { status := .noSpace, commit := w.stamp, detail := 2 })) ∧
            (s.indexFull x items = false → ∀ y : Work, y = { x with units := x.writeUnits, unit := 0 } →
              Acts (.gateProceed id) s ((s.updSpace ns fun n =>
                { n with charged := n.charged + charge, refused := n.refused && decide (n.params.quota ≤ count) }).withBuffer
                  y (y.unitNeed.getD 1) .cipher))))))

/-- The pipeline at its stamps, where nothing else is stamped in the grain: data that a DMA has written to host memory complete their
command; an area that could not be read fails it; a journal entry written is a write's point of no return; a read's first byte released lets
its data go; a deadline catches a command that waits and no other; a buffer released by its owner is free, and a release that a check of
R188 fails is reported. -/
def Obligations.PipelineActsAtItsStamps : Prop :=
  ∀ s x : State, s.clocked = true → s.quiet = true → s.nextGrain < Config.maxGrain → x = atSlotZero s →
    (∀ (id : Nat) (w : Work), s.work? id = some w →
      (w.phase = .dma → w.dropped = false → Executes (.dmaDone id .done true) s ((x.writeHost w).deliver w w.result)) ∧
      (w.phase = .dma → w.dropped = true → Executes (.dmaDone id .done true) s (x.deliver w w.result)) ∧
      (∀ off : Nat, w.ponr = false → w.posted = false → w.phase ≠ .dma →
        Executes (.dmaDone id (.readFailed off) true) s (x.endWithout w { status := .invalidField, detail := off, commit := w.stamp })) ∧
      (w.phase = .journal → s.journalRoom w.items.length = true → w.op ≠ 0x13 → w.isApply = false →
        Executes (.journalEntryWritten id true) s ((x.journalPut w.journal).updWork w.stamp fun _ =>
          { w with ponr := true, result := w.writeResult 0, phase := .program })) ∧
      (w.phase = .journal → s.journalRoom w.items.length = true → w.op = 0x13 ∨ w.isApply = true →
        Executes (.journalEntryWritten id true) s ((x.journalPut w.journal).updWork w.stamp fun _ =>
          { w with ponr := true, result := w.writeResult 0, phase := .index })) ∧
      (∀ y : Work, w.ponr = false → w.data ≠ [] → isReadOp w.op = true → y = { w with ponr := true } →
        (w.phase = .cipher → (if w.early then 1 else 2) ≤ w.unit →
          Executes (.firstByteReleased id true) s (((x.updWork w.stamp fun _ => y).stream y).firstSegment id (some w))) ∧
        (w.phase = .release → Executes (.firstByteReleased id true) s
          ((((x.updWork w.stamp fun _ => y).stream y).readReady y).firstSegment id (some w)))) ∧
      (w.deadline ≠ 0 → w.deadline ≤ s.grain →
        (w.catchable = true → s.waits w = true →
          Executes (.commandTimeout id true) s (x.endWithout w { status := .timedOut, commit := w.stamp })) ∧
        (w.catchable = false ∨ s.waits w = false → Executes (.commandTimeout id true) s x))) ∧
    (∀ (h : Handle) (o : OwnerTag),
      (s.checkHandle h o none = 0 → ∃ t : State, Executes (.bufferRelease h o true) s t ∧ t = { s with basin := t.basin, col := x.col } ∧
        t.pool h.pool = { s.pool h.pool with
          buffers := (s.pool h.pool).buffers.map fun e => if e.1 = h.index then (e.1, { e.2 with alloc := false, bytes := [], poisoned := false }) else e
          free := (s.pool h.pool).free + 1, releases := inc64 (s.pool h.pool).releases } ∧
        ∀ p : Nat, p ≠ h.pool → t.pool p = s.pool p) ∧
      (∀ k : Nat, k ≠ 0 → s.checkHandle h o none = k → Executes (.bufferRelease h o true) s (x.handleFault h o 2 k)))

/-- Gorge, Vale and Basin between stamps: a free cipher pair takes a work unit of the command whose turn it is, through the command's buffer;
the next unit follows, where it needs a buffer of its own after the request for it; the last unit of a write is followed by its place on
media, that of a read by its data's release; a tag failure ends a read, poisoned bytes end either; an index update puts a write's versions
into the index, frees its keys' lists and ends it; the first waiter of a pool that meets its limit gets its buffer, and no other; a wait list non-empty for 10 ms raises source 177 once; the random number generator stops at a failed
health test and comes back with a passed start-up test, but for a third failure in a row. -/
def Obligations.PipelineMovesOn : Prop :=
  ∀ s : State, s.clocked = true →
    (∀ w : Work, s.gorge.rx = [] → s.nextUnit = some w → s.pairs ≠ [] →
      (∀ (u y z : State) (x : Work), s.bufferPoisoned w = false → s.unitAccess w = (u, true) → x = { w with unit := w.unit + 1 } →
        y = (u.unitRun true 1 w.unitBlocks).stream x →
        z = (u.unitRun false 1 w.unitBlocks).stream x →
        (isWriteOp w.op = true →
          (w.units ≤ x.unit → Acts (.gorgeWorkUnit .none) s (y.placeWork x)) ∧
          (x.unit < w.units → x.unitNeed = none → Acts (.gorgeWorkUnit .none) s (y.updWork w.stamp fun _ => x)) ∧
          (∀ n : Nat, x.unit < w.units → x.unitNeed = some n → Acts (.gorgeWorkUnit .none) s (y.withBuffer x n .cipher))) ∧
        (isWriteOp w.op = false →
          (w.units ≤ x.unit → Acts (.gorgeWorkUnit .none) s (z.readReady x)) ∧
          (x.unit < w.units → x.unitNeed = none → Acts (.gorgeWorkUnit .none) s (z.updWork w.stamp fun _ => x)) ∧
          (∀ n : Nat, x.unit < w.units → x.unitNeed = some n → Acts (.gorgeWorkUnit .none) s (z.withBuffer x n .cipher)) ∧
          Acts (.gorgeWorkUnit .tagFailed) s ((u.unitRun false 1 w.unitBlocks).tagFailed w))) ∧
      (s.bufferPoisoned w = true → Acts (.gorgeWorkUnit .none) s (s.unitPoisoned w)) ∧
      (∀ (h : Handle) (b : Buffer), w.buf = some h → mapGet? (s.pool h.pool).buffers h.index = some b →
        Acts (.gorgeWorkUnit .poisoned) s
          (((s.sramRead 1 (handleWord h) .doubleBit).updBuffer h fun b => { b with poisoned := true }).unitPoisoned w))) ∧
    (∀ (f : LfFrame) (rest : List LfFrame), s.gorge.rx = f :: rest → s.pairs ≠ [] → Acts (.gorgeWorkUnit .none) s
      ((({ s with gorge := { s.gorge with rx := rest } }).frameUnit f.payload.length).checkSecure f)) ∧
    (∀ (id : Nat) (w : Work) (poisoned : Bool) (u v : State), s.work? id = some w → w.phase = .index → w.ponr = true →
      u = ((s.indexLine w).uncharge w).indexItems w →
      v = (if poisoned then
          (u.poisonUsed (u.lineAt (Config.bucketLine ((w.items.head?.map Item.fp).getD 0))) 3 w.stamp).updIndex fun i =>
            { i with keys := i.keys.map fun k =>
                { k with poisoned := k.poisoned || (w.items.any (fun x => x.key = k.key) && k.ns = w.desc.ns.toNat) } }
        else u).gateLeave w.stamp →
      (w.posted = true → Acts (.indexUpdateDone id poisoned) s (v.dropWork w.stamp)) ∧
      (w.posted = false → w.op = 0x13 →
        Acts (.indexUpdateDone id poisoned) s (v.updWork w.stamp fun _ => { w.chargeless with phase := .erase })) ∧
      (w.posted = false → w.op ≠ 0x13 → Acts (.indexUpdateDone id poisoned) s (v.deliver w.chargeless w.result))) ∧
    (∀ (p : Nat) (w : Waiter) (rest : List Waiter) (t : State) (h : Handle), (s.pool p).waiters = w :: rest → s.grantable p w.owner = true →
      (s.updPool p fun pl => { pl with waiters := rest }).takeBuffer p w.owner = (t, h) →
      (∀ (id : Stamp) (x : Work), w.wants = .work id → s.work? id = some x → Acts (.bufferGrant p) s (t.bufferGranted x h)) ∧
      (∀ id : Stamp, w.wants = .work id → s.work? id = none → Acts (.bufferGrant p) s (t.presentRelease h w.owner 0)) ∧
      (∀ seg : Nat, w.wants = .page seg → Acts (.bufferGrant p) s (t.addPage seg h)) ∧
      (∀ id : Nat, w.wants = .step id → Acts (.bufferGrant p) s (t.updStep id fun x => { x with handle := some h }))) ∧
    (∀ p : Nat, ((s.pool p).waiters = [] ∨ ∃ w rest, (s.pool p).waiters = w :: rest ∧ s.grantable p w.owner = false) →
      Acts (.bufferGrant p) s s) ∧
    (s.mode.running = true → ∀ (p : Nat) (w : Waiter) (rest : List Waiter), (s.pool p).waiters = w :: rest → (s.pool p).waitRaised = false →
      (s.pool p).waitSince + 10000 ≤ s.localUs → Acts (.waitListTimeout p) s
        ((s.updPool p fun pl => { pl with waitRaised := true }).raiseLimited 177 0 0 w.stamp (some 0x400) fun n =>
          eventData [(1, p), (2, (w :: rest).length), (4, n)])) ∧
    (s.mode.running = true → ∀ test n st : Nat, n = s.gorge.consecutive + 1 → st = (if 3 ≤ n ∨ s.gorge.drbg = 3 then 3 else 2) →
      Acts (.entropyTestFailure test) s (({ s with gorge := { s.gorge with
        entropyFails := inc64 s.gorge.entropyFails, consecutive := n, drbg := st } }).raise 165 0 0 0x705
          (eventData [(1, test), (4, n), (1, st)]))) ∧
    (s.mode.running = true → s.gorge.drbg = 2 →
      Acts .entropyStartupTestPass s { s with gorge := { s.gorge with drbg := 1, consecutive := 0 } }) ∧
    (s.mode.running = true → s.gorge.drbg = 3 → Acts .entropyStartupTestPass s s)

/-- Other happenings at their stamps, where nothing else is stamped in the grain: a session whose client is silent, or whose frame counter
is used up, closes; a function's reset frees its rings and returns its page to reset values, all but KEK, nonce and configuration space; the checkpoint timer
goes to the next slice; a calendar window opens and closes; an idle timer takes the device into its state; a trial that runs out asks for
the revert and quiesces; a rule operation is applied at its stamp, which it records, and clears BUSY; a lock token draws the next nonce, and
locks or unlocks if it passes. -/
def Obligations.HappeningsActAtTheirStamps : Prop :=
  ∀ (s x : State) (st : Nat), s.clocked = true → s.quiet = true → s.nextGrain < Config.maxGrain → st = stampOf s.grain 0 → x = atSlotZero s →
    (∀ n : Nat, s.keepaliveDue n = true → Executes (.keepaliveExpiry n true) s (x.closeSession n 2 st none)) ∧
    (∀ n : Nat, s.counterDone n = true → Executes (.frameCounterExhausted n true) s (x.closeSession n 3 st none)) ∧
    (∀ fn : Nat, fn ≤ s.host.vfs → s.works = [] → ∃ t : State, Executes (.functionLevelReset fn true) s t ∧
      t.fn fn = { pci := (s.fn fn).pci, kek := (s.fn fn).kek, kekVersion := (s.fn fn).kekVersion, nonce := (s.fn fn).nonce } ∧
      (∀ g, g ≠ fn → t.fn g = s.fn g) ∧ t.host.rings = s.host.rings.filter (fun r => r.2.fn != fn) ∧
      { fn := fn, source := 100, stamp := st, data := eventData [(1, fn), (4, 0), (4, 0)] } ∈ t.events.raises) ∧
    (s.mode.running = true →
      (∀ (k : Nat) (lines : List (DramLine × LineOutcome)) (y : State), (∀ g : Nat, s.delta.ckptAt = some g → g + 250000 ≤ s.grain) → k = s.index.ckptNext →
        y = (x.updIndex fun i => { i with ckptNext := (k + 1) % 240 }).updDelta (fun d => { d with ckptAt := some s.grain }) →
        (k ∈ s.index.heldSlices ∨ s.delta.sealed = true ∨ s.delta.total = 0 → Executes (.checkpointTimer lines true) s y) ∧
        (k ∉ s.index.heldSlices → s.delta.sealed = false → s.delta.total ≠ 0 →
          (k ∈ s.index.ckptDirty ∨ mapGet? s.delta.images k = none →
            Executes (.checkpointTimer lines true) s (y.arrive (.step (.checkpoint k s.index.wseq lines) []))) ∧
          (k ∉ s.index.ckptDirty → (mapGet? s.delta.images k).isSome = true → Executes (.checkpointTimer lines true) s
            (((y.updIndex fun i => { i with ckptW := mapSet i.ckptW k s.index.wseq }).metaWrite 32).releaseJournal)))) ∧
      (∀ (w : Nat) (win : Window), win = mapGet {} s.time.windows w → s.time.isSet = true →
        (win.startDue s.grain = true → win.hold = false → Executes (.calendarStartEdge w true) s
          (x.updTime fun t => { t with windows := mapSet t.windows w { win with started := win.lastEdge s.grain + 1 } })) ∧
        (win.startDue s.grain = true → win.hold = true → Executes (.calendarStartEdge w true) s
          ((x.updTime fun t => { t with
            windows := mapSet t.windows w { win with started := win.lastEdge s.grain + 1 } }).calendarHold w st)) ∧
        (win.endDue s.grain = true → Executes (.calendarEndEdge w true) s
          (x.updTime fun t => { t with windows := mapSet t.windows w { win with ended := win.lastEnd s.grain + 1, endOwed := false } }))) ∧
      (∀ p : Nat, 1 ≤ p → s.outstanding = false → s.host.exiting = none → s.host.power < p → p ≤ s.powerLimit →
        s.idleLong p = true →
        (p = 1 → Executes (.idleTimerExpiry 1 true) s (x.updHost fun h => { h with power := 1 })) ∧
        (p = 2 → Executes (.idleTimerExpiry 2 true) s (x.updHost fun h => { h with power := 2 }).creditAll) ∧
        (p = 3 → Executes (.idleTimerExpiry 3 true) s
          (((x.programAll.updHost fun h => { h with power := 3 }).raise 103 0 st 0x305 (eventData [(1, s.host.power), (1, 3)])).creditAll))) ∧
      (s.trialDue = true → Executes (.trialWindowExpiry true) s
        (((x.writeUp fun u => { u with state := .revertRequested }).updUpdate fun u => { u with
          expired := true, revert := true }).beginQuiesce)) ∧
      (∀ (op : Nat) (row : Bool → Instr) (t : State), (op, row) ∈ ([(1, .ruleAdd), (2, .ruleRemove), (3, .ruleSetResult)] :
          List (Nat × (Bool → Instr))) → s.glen.busy = false →
        t = ({ x with glen := { x.glen with busy := true, port := { x.glen.port with op := BitVec.ofNat 2 op } } }).ruleApply op st →
        Executes (row true) s t ∧ t.glen.busy = false ∧ t.glen.ruleStamp = st ∧ t.glen.busyWrite = false) ∧
      (∀ (t : State) (code : Nat), s.update.lockBusy = false → s.update.busyWrite = false → code = s.lockCheck s.lockToken →
        t = ({ x with update := { x.update with lockBusy := true } }).lockApply st →
        Executes (.lockSubmit true) s t ∧ t.update.lockBusy = false ∧ t.update.lockCode = code ∧ t.update.lockError = (code != 0) ∧
        t.update.nonce = Config.drbg64 s.free ∧ (code ≠ 0 → t.spi = s.spi) ∧
        (code = 0 → t.spi = s.spi.lockWrite (field s.lockToken 4 1 = 1))))

/-! ## Ethernet ports (R165 to R184) -/

/-- Link states: an auto-negotiation page takes a DOWN CR or KR port to TRAINING, training or C2M alignment takes a port UP with its link
event, 3 s of TRAINING or a link fault takes it DOWN, its queue discarded, and a link event follows an exit from UP. A fault condition of an
enabled port counts once as it is entered. No other port changes. -/
def Obligations.LinkStates : Prop :=
  ∀ (s up : State) (p : Nat) (taps : BitVec 24), s.clocked = true →
    up = ((((s.updPort p fun x => { x with
      link := .up, since := s.localUs, restartAt := 0, localFault := false, remoteFault := false, preemptOn := false
      verifying := x.config.preempt, threshold := x.config.base, clean := 0, taps := taps, trained := true }).forgetLimit (34 + 4 * p) 0).forgetLimit (35 + 4 * p) 0).raise
        (32 + 4 * p) 0 0 0x308 (eventData [(1, 3), (1, s.portRate p), (1, 1), (1, 0)])) →
    ((s.port p).link = .down → (s.port p).config.type ≠ 2 → (s.port p).restartAt ≤ s.localUs →
      Acts (.autonegPageReceived p) s (s.updPort p fun x => { x with link := .training, since := s.localUs, restartAt := 0 })) ∧
    ((s.port p).link ≠ .down ∨ (s.port p).config.type = 2 ∨ s.localUs < (s.port p).restartAt → Acts (.autonegPageReceived p) s s) ∧
    ((s.port p).link = .training → Acts (.linkTrainingDone p taps) s up) ∧
    ((s.port p).link ≠ .training → Acts (.linkTrainingDone p taps) s s) ∧
    ((s.port p).link = .down → (s.port p).config.type = 2 → Acts (.c2mLinkUp p taps) s up) ∧
    ((s.port p).link ≠ .down ∨ (s.port p).config.type ≠ 2 → Acts (.c2mLinkUp p taps) s s) ∧
    ((s.port p).link = .training → (s.port p).since + 3000000 ≤ s.localUs → ∃ t : State, Acts (.trainingTimeout p) s t ∧
      (t.port p).link = .down ∧ (t.port p).since = s.localUs ∧ (t.port p).queue = [] ∧ (t.port p).sending = none ∧
      (t.port p).restartAt = s.localUs + 500000 ∧ (t.port p).config = (s.port p).config ∧
      (∀ q, q ≠ p → t.port q = s.port q) ∧ t = { s with ports := t.ports, events := t.events }) ∧
    ((s.port p).link ≠ .training ∨ s.localUs < (s.port p).since + 3000000 → Acts (.trainingTimeout p) s s) ∧
    ((s.port p).link = .down → (s.port p).restartAt ≠ 0 → (s.port p).restartAt ≤ s.localUs →
      Acts (.autonegRestart p) s (s.updPort p fun x => { x with restartAt := 0 })) ∧
    (∀ cause : Nat, (s.port p).link = .up → 2 ≤ cause → cause ≤ 4 → ∃ t : State, Acts (.linkFault p cause) s t ∧
      (t.port p).link = .down ∧ (t.port p).queue = [] ∧ (t.port p).sending = none ∧ (t.port p).preemptOn = false ∧
      (t.port p).verifying = false ∧ (t.port p).lpiRx = false ∧ (t.port p).partnerTw = none ∧
      (t.port p).localFault = ((s.port p).localFault || cause == 3) ∧ (t.port p).remoteFault = ((s.port p).remoteFault || cause == 4) ∧
      mapGet 0 (t.port p).cnt 83 = (mapGet 0 (s.port p).cnt 83 + 1) % 2 ^ 40 ∧ (∀ q, q ≠ p → t.port q = s.port q) ∧
      t = { s with ports := t.ports, events := t.events, terrace := t.terrace, time := t.time, update := t.update }) ∧
    ((s.port p).link ≠ .up → (s.port p).link ≠ .disabled →
      ((s.port p).localFault = false → Acts (.linkFault p 3) s ((s.updPort p fun x => { x with localFault := true }).count p 84 1)) ∧
      ((s.port p).remoteFault = false → Acts (.linkFault p 4) s ((s.updPort p fun x => { x with remoteFault := true }).count p 85 1)) ∧
      ((s.port p).localFault = true → Acts (.linkFault p 3) s s) ∧ ((s.port p).remoteFault = true → Acts (.linkFault p 4) s s))

/-- Preemption and low-power idle: a running verify that ends well turns preemption on, one that fails is counted and leaves it off, and
without a running verify nothing happens; LPI begins where R174 allows it, and receive LPI is entered and left with its counts. On a port
that is UP an LLDP frame with the port's TLVs is queued, a request for a local address is answered, an echo request to one is answered 100
times a second, and what a partner's LLDP frame says is kept. What those frames hold is the model's (log entry 127). -/
def Obligations.PortUpkeep : Prop :=
  ∀ (s : State) (p : Nat) (x : Port), s.clocked = true → x = s.port p →
    (x.link = .up → x.verifying = true →
      Acts (.preemptVerifyDone p true) s (s.updPort p fun x => { x with preemptOn := true, verifying := false }) ∧
      Acts (.preemptVerifyDone p false) s ((s.updPort p fun x => { x with preemptOn := false, verifying := false }).count p 69 1)) ∧
    (x.link ≠ .up ∨ x.verifying = false → ∀ ok : Bool, Acts (.preemptVerifyDone p ok) s s) ∧
    (s.mayLpi p = true → Acts (.lpiEntry p) s ((s.updPort p fun x => { x with lpiTx := true, lpiTxAt := s.localUs }).count p 70 1)) ∧
    (s.mayLpi p = false → Acts (.lpiEntry p) s s) ∧
    (x.link = .up → x.config.lpi = true → x.config.type ≠ 2 → s.portRate p ≤ 3 →
      (x.lpiRx = false → Acts (.receiveLpi p true) s ((s.updPort p fun x => { x with lpiRx := true, lpiRxAt := s.localUs }).count p 43 1)) ∧
      (x.lpiRx = true → Acts (.receiveLpi p false) s ((s.updPort p fun x => { x with lpiRx := false }).count p 44 (s.localUs - x.lpiRxAt)))) ∧
    (x.link = .up → s.mode.running = true →
      Acts (.lldpTransmit p) s (s.enqueue p { kind := .control, len := max 64 (18 + (s.lldpBody p).length), cast := 1, etherType := 0x88CC
                                              dst := 0x0180C200000E#48, payload := s.lldpBody p }) ∧
      (∀ (e : IpEntry) (ip asker : BitVec 128) (mac : BitVec 48), s.entryOf p ip = some e →
        (e.version ≠ 6 → Acts (.controlFrameReceive p (.addressRequest ip asker mac)) s
          (s.enqueue p (controlTx 0x0806 e.vlan 0 mac none (arpBody 2 (s.macOwn p) ip mac asker)))) ∧
        (e.version = 6 → Acts (.controlFrameReceive p (.addressRequest ip asker mac)) s
          (s.enqueue p (controlTx 0x86DD e.vlan 0 mac (some { v6 := true, src := ip, dst := asker, hops := 255, proto := 58 })
            (ndBody 136 0x60000000 ip (s.macOwn p))))) ∧
        (∀ (ident : BitVec 32) (data : Bytes), s.localUs < x.echoAt + 1000000 ∧ 100 ≤ x.echoes →
          Acts (.controlFrameReceive p (.echoRequest ip asker mac ident data)) s s) ∧
        (∀ (ident : BitVec 32) (data : Bytes), (s.localUs < x.echoAt + 1000000 → x.echoes < 100) →
          Acts (.controlFrameReceive p (.echoRequest ip asker mac ident data)) s
            ((s.updPort p fun x => { x with
              echoAt := if x.echoAt + 1000000 ≤ s.localUs then s.localUs else x.echoAt
              echoes := (if x.echoAt + 1000000 ≤ s.localUs then 0 else x.echoes) + 1 }).enqueue p
                (controlTx (ipType (e.version = 6)) e.vlan 0 mac
                  (some { v6 := e.version = 6, src := ip, dst := asker, proto := if e.version = 6 then 58 else 1 })
                  (beBytes 1 (if e.version = 6 then 129 else 0) ++ zeros 3 ++ beBytes 4 ident.toNat ++ data))))) ∧
      (∀ (ip asker : BitVec 128) (mac : BitVec 48) (ident : BitVec 32) (data : Bytes), s.entryOf p ip = none →
        Acts (.controlFrameReceive p (.addressRequest ip asker mac)) s s ∧
        Acts (.controlFrameReceive p (.echoRequest ip asker mac ident data)) s s) ∧
      (∀ (tw : Option Nat) (preempt : Bool), Acts (.controlFrameReceive p (.lldp tw preempt)) s
        (s.updPort p fun x => { x with partnerTw := tw, partnerPreempt := preempt }))) ∧
    (x.link ≠ .up → Acts (.lldpTransmit p) s s ∧ ∀ f : ControlFrame, Acts (.controlFrameReceive p f) s s)

/-- Counters of a port, each up by its amount, in order. -/
def Sys2Proof.counted (s : State) (p : Nat) (l : List (Nat × Nat)) : State := l.foldl (fun s e => s.count p e.1 e.2) s

/-- The counter of a frame that is not good, in R166's order (`m` is the port's M); none for a good one. -/
def Sys2Proof.badFrame (f : RxFrame) (m : Nat) : Option Nat :=
  if f.codeError = true ∨ f.fecBad ≠ 0 then some 21
  else if f.len ≤ 63 then some (if f.fcsOk then 16 else 17)
  else if m < f.len then some (if f.fcsOk then 18 else 19)
  else if f.fcsOk then none else some 20

/-- A received frame's FEC codewords and symbols, and the fragments that it was merged from, count first. It then counts as exactly one of:
merge error, the first fault of R166, filtered, dropped for want of a receive buffer (beside its row), or landed in the class that FILTER
decides; a good frame counts with bytes, cast and size. One that passes the address filter lands in its chain of buffers, good or not, and
the chain goes back. With PREEMPT_EN clear the parts of a preempted frame are no frames. Nothing but port, buffers and events changes. -/
def Obligations.FrameReception : Prop :=
  ∀ (s v u : State) (f : RxFrame) (p m n : Nat), s.clocked = true → p = f.port → (s.port p).link = .up → m = (s.port p).config.maxFrame →
    n = ceilDiv (min f.len m - 4) 2048 →
    v = counted s p ([(80, f.fecCorrected), (81, f.fecBad), (82, f.fecSymbols)].filter fun e => e.2 != 0) →
    u = counted v p ([(41, f.fragments)].filter fun e => e.2 != 0) →
    ((s.port p).config.preempt = false → f.fragments ≠ 0 ∨ f.mergeError = true → Acts (.frameReceive f) s v) ∧
    ((s.port p).config.preempt = true ∨ f.fragments = 0 ∧ f.mergeError = false →
      (f.mergeError = true → Acts (.frameReceive f) s (u.count p 42 1)) ∧
      (∀ row : State, f.mergeError = false →
        row = (match badFrame f m with
          | some k => u.count p k 1
          | none => counted u p ([(1, 1), (0, f.len), (2 + castOf f.dst, 1), (6 + sizeBin f.len, 1)] ++ if f.tag.isSome then [(5, 1)] else [])) →
        (s.passesFilter p f.dst = false →
          ((badFrame f m).isSome = true → Acts (.frameReceive f) s row) ∧
          (badFrame f m = none → Acts (.frameReceive f) s (row.count p 22 1))) ∧
        (s.passesFilter p f.dst = true → ∃ (t : State) (hs : List Handle), Acts (.frameReceive f) s t ∧ hs.length = min n (s.pool 3).free ∧
          (∀ h ∈ hs, h.pool = 3) ∧
          t.col = { s.col with intake := s.col.intake ++ hs.map fun h => .release h { cls := 0, number := p } 0 } ∧
          (t.pool 3).free + hs.length = (s.pool 3).free ∧
          (n ≤ (s.pool 3).free → (badFrame f m).isSome = true → t.ports = row.ports) ∧
          (n ≤ (s.pool 3).free → badFrame f m = none → t.ports = (row.count p (s.frameClass f) 1).ports) ∧
          ((s.pool 3).free < n → t.ports = (row.count p 23 1).ports) ∧
          t = { s with ports := t.ports, basin := t.basin, events := t.events, terrace := t.terrace, col := t.col })))

/-- What a frame sent whole counts, with how often it was preempted. -/
def Sys2Proof.sentCounts (f : TxFrame) (preempts : Nat) : List (Nat × Nat) :=
  [(48, max 64 f.len), (49, 1), (50 + f.cast, 1), (54 + sizeBin (max 64 f.len), 1)] ++ (if f.tci.isSome then [(53, 1)] else []) ++
    [(if f.express then 65 else 66, 1)] ++ (if preempts = 0 then [] else [(67, 1)]) ++ (if f.stamped then [(72, 1)] else [])

/-- A MAC's turn sends the express frame that has waited longest, else the frame that has: it leaves in full and is counted, and its clean
run grows; a frame sent before it is whole whose data comes late is an underrun, which ends it with an inverted FCS and raises the threshold
by 1,024 up to the maximum frame, unless that is fixed. With preemption active an express frame preempts a preemptable one under way, which
goes on after it and counts as one frame that was preempted. A frame longer than the port's M does not leave. -/
def Obligations.FrameTransmission : Prop :=
  (∀ (s u : State) (p : Nat) (f : TxFrame) (rest : List TxFrame) (late part : Bool), s.clocked = true → (s.port p).link = .up →
     (s.port p).sending = none → (s.port p).nextFrame = some (f, rest) → u = s.updPort p (fun x => { x with queue := rest }) →
     (∃ pre post : List TxFrame, (s.port p).queue = pre ++ f :: post ∧ rest = pre ++ post ∧
       (f.express = true ∧ (∀ g ∈ pre, g.express = false) ∨ pre = [] ∧ ∀ g ∈ (s.port p).queue, g.express = false)) ∧
     ((s.port p).config.maxFrame < f.len → Acts (.frameTransmit p late part) s u) ∧
     (f.len ≤ (s.port p).config.maxFrame →
       (part = true → (s.port p).preemptOn = true → f.express = false → 64 * (2 + (s.port p).config.minFrag) ≤ f.len →
         Acts (.frameTransmit p late part) s (u.updPort p fun x => { x with sending := some { frame := f } })) ∧
       (part = false ∨ (s.port p).preemptOn = false ∨ f.express = true ∨ f.len < 64 * (2 + (s.port p).config.minFrag) →
         (late = false ∨ f.express = true ∨ f.len ≤ (s.port p).threshold → Acts (.frameTransmit p late part) s
           (((counted u p (sentCounts f 0)).updPort p fun x => { x with clean := x.clean + 1 }).emit (.frame p f))) ∧
         (∀ t : Nat, late = true → f.express = false → (s.port p).threshold < f.len →
           t = (if (s.port p).config.fixed then (s.port p).threshold else min (s.port p).config.maxFrame ((s.port p).threshold + 1024)) →
           Acts (.frameTransmit p late part) s
             ((((u.updPort p fun x => { x with threshold := t, clean := 0 }).count p 64 1).emit (.frame p { f with aborted := true })).raiseLimited
               (34 + 4 * p) 0 0 0 (some 0x309) fun n => eventData [(4, n), (4, t)]))))) ∧
  (∀ (s u : State) (p : Nat) (g : Sending) (late part : Bool), s.clocked = true → (s.port p).link = .up → (s.port p).sending = some g →
     u = (if g.paused then s.count p 68 1 else s) →
     (∀ (f : TxFrame) (rest : List TxFrame), (s.port p).preemptOn = true → (s.port p).nextExpress = some (f, rest) →
       Acts (.frameTransmit p late part) s
         (((counted (s.updPort p fun x => { x with
           queue := rest, sending := some { g with paused := true, preempts := if g.paused then g.preempts else g.preempts + 1 } }) p
             (sentCounts f 0)).updPort p fun x => { x with clean := x.clean + 1 }).emit (.frame p f))) ∧
     ((s.port p).preemptOn = false ∨ (s.port p).nextExpress = none →
       (part = true → Acts (.frameTransmit p late part) s (u.updPort p fun x => { x with sending := some { g with paused := false } })) ∧
       (part = false → late = false ∨ g.frame.express = true ∨ g.frame.len ≤ (s.port p).threshold →
         Acts (.frameTransmit p late part) s
           (((counted (u.updPort p fun x => { x with sending := none }) p (sentCounts g.frame g.preempts)).updPort p fun x =>
             { x with clean := x.clean + 1 }).emit (.frame p g.frame)))))

/-- The start threshold. After 2^20 frames in a row without underrun it falls by 256 but never below the base, and the count starts again,
as it does at an underrun; with UNDERRUN_FIXED, which takes it to the
base, it stays there, and underruns are counted but change nothing but the counts. Each frame sent adds one to the run. -/
def Obligations.UnderrunThreshold : Prop :=
  ∀ (s : State) (p : Nat) (x : Port), s.clocked = true → x = s.port p →
    (2 ^ 20 ≤ x.clean → x.config.fixed = false →
      Acts (.thresholdDecay p) s (s.updPort p fun x => { x with threshold := max x.config.base (x.threshold - 256), clean := 0 })) ∧
    (x.clean < 2 ^ 20 ∨ x.config.fixed = true → Acts (.thresholdDecay p) s s) ∧
    (∀ (f : TxFrame) (rest : List TxFrame), x.link = .up → x.sending = none → x.nextFrame = some (f, rest) → f.len ≤ x.config.maxFrame →
      (f.express = false → x.threshold < f.len → ∃ t : State, Acts (.frameTransmit p true false) s t ∧ (t.port p).clean = 0 ∧
        mapGet 0 (t.port p).cnt 64 = (mapGet 0 x.cnt 64 + 1) % 2 ^ 40 ∧
        (x.config.fixed = true → t.port p = { x with queue := rest, clean := 0, cnt := (t.port p).cnt }) ∧
        (x.config.fixed = false → (t.port p).threshold = min x.config.maxFrame (x.threshold + 1024))) ∧
      (∃ t : State, Acts (.frameTransmit p false false) s t ∧ (t.port p).clean = x.clean + 1 ∧ (t.port p).threshold = x.threshold)) ∧
    (∀ cfg : PortConfig, cfg.fixed = true → ((s.portApply p cfg).port p).threshold = cfg.base)

/-! ## The Lerfold wire (R128 to R158) -/

/-- The rows on which a Lerfold frame arrives, by the type in its header. -/
def Sys2Proof.lerfoldRow (f : LfFrame) : Instr :=
  if f.header.type = 6 then .pingReceive f else if f.header.type = 7 then .pongReceive f else .requestSegmentReceive f

/-- The receive checks in order, on a port that is UP and for the device's UDP port: header, session and binding, SECURE flag, CRC, type, a
REQUEST segment held already; the first that fails discards the frame with its number as the reason. A SECURE frame with an acceptable
counter waits for its tag check. An accepted PING is answered with a PONG that holds its payload and the time, an accepted PONG renews the
session and nothing else. -/
def Obligations.ReceiveChecks : Prop :=
  ∀ (s : State) (f : LfFrame) (n : Nat), s.clocked = true → n = f.header.session.toNat →
    ((s.port f.port).link ≠ .up ∨ f.udpPort.toNat ≠ s.ports.udp → Acts (lerfoldRow f) s s) ∧
    ((s.port f.port).link = .up → f.udpPort.toNat = s.ports.udp →
      (headerGood f = false → Acts (lerfoldRow f) s (s.discardFrame f 1)) ∧
      (headerGood f = true → s.session? n = none → Acts (lerfoldRow f) s (s.discardFrame f 2)) ∧
      (∀ x : Session, headerGood f = true → s.session? n = some x →
        (x.bound f = false → Acts (lerfoldRow f) s (s.discardFrame f 2)) ∧
        (x.bound f = true → f.header.flags.getLsbD 0 ≠ x.params.secure → Acts (lerfoldRow f) s (s.discardFrame f 3)) ∧
        (x.bound f = true → x.params.secure = true → f.header.flags.getLsbD 0 = true →
          (x.counterGood f.counter.toNat = false → Acts (lerfoldRow f) s (s.discardFrame f 5)) ∧
          (x.counterGood f.counter.toNat = true → Acts (lerfoldRow f) s { s with gorge := { s.gorge with rx := s.gorge.rx ++ [f] } })) ∧
        (∀ u : State, x.bound f = true → x.params.secure = false → f.header.flags.getLsbD 0 = false →
          u = s.updSession n (fun x => { x with rx := inc64 x.rx, lastRx := s.grain, pings := 0 }) →
          (f.header.crc ≠ crc32c (f.header.bytes.take 28) → Acts (lerfoldRow f) s (s.discardFrame f 4)) ∧
          (f.header.crc = crc32c (f.header.bytes.take 28) →
            (f.header.type ≠ 1 → f.header.type ≠ 6 → f.header.type ≠ 7 → Acts (lerfoldRow f) s (s.discardFrame f 7)) ∧
            (∀ m : Message, f.header.type = 1 → (x.seen.any fun e => e.seqNo = f.header.seq) = false →
              (x.messages.find? fun m => m.seqNo = f.header.seq) = some m → (mapGet? m.segs f.header.segIndex.toNat).isSome = true →
              Acts (lerfoldRow f) s (s.discardFrame f 8)) ∧
            (f.header.type = 6 → Acts (.pingReceive f) s (u.sendFrame n 7 0 0 0 0 (padTo 8 f.payload ++ beBytes 8 s.nowNs))) ∧
            (f.header.type = 7 → Acts (.pongReceive f) s u)))))

/-- A request of one segment: bad lengths and a message beyond the session's budget get a NAK; a sequence above the grant or below the
replay window is refused; another one becomes a new request at Col's intake, its octets in receive buffers; without buffers it is dropped
and counted. A request in progress is discarded with reason 9, a completed one is answered from the replay cache. A refused message: its
buffers are released, its sequence counts as arrived, the refusal is counted, and a NAK leaves unless one with its reason left within 1,000
grains. A partial message without a new segment for 10 ms is refused with reason 5. -/
def Obligations.RequestsArrive : Prop :=
  (∀ (s u : State) (f : LfFrame) (n : Nat) (x : Session), s.clocked = true → (s.port f.port).link = .up → f.udpPort.toNat = s.ports.udp →
     n = f.header.session.toNat → headerGood f = true → s.session? n = some x → x.bound f = true → x.params.secure = false →
     f.header.flags.getLsbD 0 = false → f.header.crc = crc32c (f.header.bytes.take 28) → f.header.type = 1 →
     u = s.updSession n (fun x => { x with rx := inc64 x.rx, lastRx := s.grain, pings := 0 }) →
     (∀ e : Seen, (x.seen.find? fun e => e.seqNo = f.header.seq) = some e →
       (e.done = none → Acts (.requestSegmentReceive f) s (u.discardFrame f 9)) ∧
       (∀ c : Completion, e.done = some c → f.header.segIndex.toNat + 1 = e.count →
         Acts (.requestSegmentReceive f) s (u.sendReplay n f.header.seq c)) ∧
       (∀ c : Completion, e.done = some c → f.header.segIndex.toNat + 1 ≠ e.count →
         Acts (.requestSegmentReceive f) s (u.discardFrame f 8))) ∧
     ((x.seen.find? fun e => e.seqNo = f.header.seq) = none → (x.messages.find? fun m => m.seqNo = f.header.seq) = none →
       f.header.segCount = 1 →
       (f.payload.length < 64 ∨ Config.maxMessage < f.payload.length → Acts (.requestSegmentReceive f) s
         (u.refuseMessage n f.header.seq 3 f.header.segIndex.toNat f.header.segIndex.toNat)) ∧
       (64 ≤ f.payload.length → f.payload.length ≤ Config.maxMessage → f.header.segIndex = 0 → f.header.flags.getLsbD 1 = true →
         ∀ k : Nat, k = s.chainLength x.params.port (x.params.overhead + f.payload.length) →
         (x.params.budget * 1048576 < x.held + f.payload.length → Acts (.requestSegmentReceive f) s
           (u.sendNak n f.header.seq 4 0 ((x.params.budget * 1048576 - x.held) / 1024))) ∧
         (x.held + f.payload.length ≤ x.params.budget * 1048576 → (s.pool 3).free < k →
           ∃ t : State, Acts (.requestSegmentReceive f) s t ∧ t.session? n = u.session? n ∧ (t.pool 3).free = 0 ∧
             mapGet 0 (t.port f.port).cnt 23 = (mapGet 0 (s.port f.port).cnt 23 + 1) % 2 ^ 40) ∧
         (x.held + f.payload.length ≤ x.params.budget * 1048576 → k ≤ (s.pool 3).free → s.mode ≠ .boot →
           seqLt x.grant f.header.seq = false → seqLt f.header.seq x.params.initial = false →
           (seqLe f.header.seq x.highest = true → (x.highest - f.header.seq).toNat < Config.replayWindow) →
           ∃ (t : State) (y : Session), Acts (.requestSegmentReceive f) s t ∧ t.col = { s.col with intake := s.col.intake ++
             [.cmd { c := { carrier := .wire n f.header.seq, desc := Descriptor.ofBytes f.payload, area := [(0, f.payload)] } }] } ∧
             t.session? n = some y ∧ y.highest = (if seqLt x.highest f.header.seq then f.header.seq else x.highest) ∧
             y.ackOwed = true ∧ y.params = x.params ∧ y.state = .open_ ∧ (t.pool 3).free + k = (s.pool 3).free ∧
             t = { s with wire := t.wire, basin := t.basin, events := t.events, terrace := t.terrace, col := t.col, host := t.host }) ∧
         (∀ reason : Nat, x.held + f.payload.length ≤ x.params.budget * 1048576 → k ≤ (s.pool 3).free →
           (seqLt x.grant f.header.seq = true ∧ reason = 1 ∨ seqLt x.grant f.header.seq = false ∧ reason = 2 ∧
             (seqLt f.header.seq x.params.initial = true ∨
               seqLe f.header.seq x.highest = true ∧ Config.replayWindow ≤ (x.highest - f.header.seq).toNat)) →
           ∃ (t : State) (y : Session), Acts (.requestSegmentReceive f) s t ∧ t.session? n = some y ∧ y.refusals = bump x.refusals reason ∧
             y.highest = x.highest ∧ y.params = x.params ∧ t.works = s.works ∧
             (∀ e ∈ t.col.intake, e ∈ s.col.intake ∨ ∃ (h : Handle) (o : OwnerTag), e = .release h o 0))))) ∧
  (∀ (s : State) (n : Nat) (seq : BitVec 32) (x : Session), s.session? n = some x → s.clocked = true →
     (∀ m : Message, (x.messages.find? fun m => m.seqNo = seq && !(x.seen.any fun e => e.seqNo = seq)) = some m →
       (m.last + 10000 ≤ s.grain → Acts (.reassemblyTimeout n seq) s (s.refuseMessage n seq 5 0xFFFF m.segs.length)) ∧
       (s.grain < m.last + 10000 → Acts (.reassemblyTimeout n seq) s s)) ∧
     (∀ (reason index info : Nat) (t : State), x.params.secure = false ∨ x.txCounter < 2 ^ 64 - 1 → t = s.refuseMessage n seq reason index info →
       t.col.intake = s.col.intake ++ (x.messages.filter fun m => m.seqNo = seq).flatMap
         (fun m => m.handles.map fun h => .release h { cls := 0, number := x.params.port } 0) ∧
       (∃ y : Session, t.session? n = some y ∧ y.messages = (x.messages.filter fun m => m.seqNo != seq) ∧
         y.ack = (x.arrived seq).ack ∧ y.beyond = (x.arrived seq).beyond ∧ y.refusals = bump x.refusals reason ∧ y.params = x.params) ∧
       t = { s with wire := t.wire, col := t.col, ports := t.ports, gorge := t.gorge, events := t.events, basin := t.basin }))

/-- What the LAST segment of a response leaves behind the frame itself: the response is gone, the completion counts, the buffers go back, and
the device is idle from this grain on. -/
def Sys2Proof.lastSent (s v : State) (n : Nat) (seq : BitVec 32) (r : Response) : State :=
  (((v.updSession n fun x => { x with responses := x.responses.filter fun k => k.seqNo != seq }).countStatus n r.result.status).queueRelease
    r.handles { cls := 2, number := n } (s.wirePos n seq)).updHost fun h => { h with idleSince := v.grain }

/-- What each session sends of itself: an ACK that is owed, a CREDIT once the grant has advanced by a quarter of K, a PING after one and
after two intervals of silence; and the next segment of a response, whose LAST one carries the trailer, completes the sequence, keeps the
completion for a replay, and returns the buffers. A read that still runs sends the segments that decryption has filled, and not the last
one; a failure ends a response behind what has left. What a frame of a session holds: magic, version, the session's number, its cumulative
acknowledgement and its grant; the CRC of the header on a plain session; on a SECURE one the next frame counter, the payload sealed under
it, and the counter moves on, but a counter of 2^64 - 1 closes the session instead. It is queued on the session's port, toward the client,
from the device's UDP port. -/
def Obligations.SessionsSend : Prop :=
  (∀ (s : State) (n : Nat) (x : Session), s.clocked = true → s.session? n = some x →
     (x.state ≠ .resolving → x.ackOwed = true → Acts (.ackSend n) s (s.sendFrame n 3 0 x.highest 0 0 [])) ∧
     (x.state = .resolving ∨ x.ackOwed = false → Acts (.ackSend n) s s) ∧
     (x.state = .open_ → x.creditOwed = true → Acts (.creditSend n) s (s.sendFrame n 4 0 0 0 0
       (beBytes 1 s.host.power ++ beBytes 1 (b2n (s.inForce.power.getLsbD 0)) ++ beBytes 2 x.seg ++ beBytes 4 20 ++ beBytes 4 150 ++
         beBytes 4 4000))) ∧
     (x.state ≠ .open_ ∨ x.creditOwed = false → Acts (.creditSend n) s s) ∧
     (x.state = .open_ → x.params.keepalive ≠ 0 → x.pings < 2 → x.lastRx + x.params.keepalive * 1000 * (x.pings + 1) ≤ s.grain →
       Acts (.keepalivePing n) s
         ((s.updSession n fun x => { x with pings := x.pings + 1 }).sendFrame n 6 0 0 0 0 (beBytes 8 s.nowNs))) ∧
     (∀ (seq : BitVec 32) (r : Response) (off full urgent : Nat) (trailer : Completion) (next : State → State),
       (x.responses.find? fun r => r.seqNo = seq) = some r →
       0 < x.seg → off = r.next * x.seg → full = (if r.streamed then 0 else max 1 (ceilDiv r.planned x.seg)) → urgent = (if r.urgent then 4 else 0) →
       trailer = { tag := r.tag, head := 0, phase := false, result := r.result } →
       next = (fun v => v.updSession n fun x => { x with
         responses := x.responses.map fun k => if k.seqNo = seq then { k with next := k.next + 1 } else k }) →
       (r.growing = true →
         (r.data.length < off + x.seg ∨ r.planned ≤ off + x.seg → Acts (.responseSegmentSend n seq) s s) ∧
         (off + x.seg ≤ r.data.length → off + x.seg < r.planned → r.result.status = .success → Acts (.responseSegmentSend n seq) s
           (next (s.sendFrame n 2 urgent seq r.next full ((r.data.drop off).take x.seg))))) ∧
       (r.growing = false → r.result.status = .success →
         (off + x.seg < r.data.length → Acts (.responseSegmentSend n seq) s
           (next (s.sendFrame n 2 urgent seq r.next full ((r.data.drop off).take x.seg)))) ∧
         (∀ v : State, r.data.length ≤ off + x.seg → v = (s.updSession n fun x => (x.complete seq).keep seq trailer).sendFrame n 2
             (2 + urgent) seq r.next full (r.data.drop off ++ trailer.bytes) →
           Acts (.responseSegmentSend n seq) s (lastSent s v n seq r))) ∧
       (r.growing = false → r.result.status ≠ .success →
         (∀ v : State, r.data = [] → v = (s.updSession n fun x => (x.complete seq).keep seq trailer).sendFrame n 2
             (2 + urgent) seq r.next (if r.streamed then 0 else 1) trailer.bytes →
           Acts (.responseSegmentSend n seq) s (lastSent s v n seq r)) ∧
         (off < r.data.length → Acts (.responseSegmentSend n seq) s
           (next (s.sendFrame n 2 urgent seq r.next full ((r.data.drop off).take x.seg)))) ∧
         (∀ v : State, r.data ≠ [] → r.data.length ≤ off →
           v = (s.updSession n fun x => (x.complete seq).keep seq trailer).sendFrame n 2 (2 + urgent) seq r.next (r.next + 1) trailer.bytes →
           Acts (.responseSegmentSend n seq) s (lastSent s v n seq r))))) ∧
  (∀ (s : State) (n type flags index count : Nat) (seq : BitVec 32) (payload : Bytes) (x : Session) (h : LfHeader)
     (base : TxFrame), s.session? n = some x →
     h = { magic := 0x4C46, version := 1, type := BitVec.ofNat 8 type, session := BitVec.ofNat 16 n
           flags := BitVec.ofNat 16 (flags + if x.params.secure then 1 else 0), seq := seq, ack := x.ack, segIndex := BitVec.ofNat 16 index
           segCount := BitVec.ofNat 16 count, payLen := BitVec.ofNat 32 payload.length
           credit := x.lowest + BitVec.ofNat 32 x.params.credit - 1, crc := 0 } →
     base = { kind := .lerfold, len := max 64 (x.params.overhead + payload.length), tci := x.params.vlan.map fun _ => x.params.tci
              etherType := if x.params.v6 then 0x86DD else 0x0800, dst := (s.macOf x.params.port x.params.dstIp x.params.srcIp).getD 0
              ip := some { v6 := x.params.v6, src := x.params.dstIp, dst := x.params.srcIp, hops := x.params.hops, dscp := x.params.dscp
                           srcPort := s.ports.udp, dstPort := x.params.srcPort.toNat } } →
     (x.params.secure = false → ∃ g : TxFrame, g = { base with header := some { h with crc := crc32c (h.bytes.take 28) }, payload := payload } ∧
       s.sendFrame n type flags seq index count payload = (s.updSession n fun x => { x with
         sent := x.grant, tx := inc64 x.tx, ackOwed := x.ackOwed && type != 3 && !seqLe x.ackFor x.ack }).enqueue x.params.port g) ∧
     (x.params.secure = true → x.txCounter < 2 ^ 64 - 1 → ∃ g : TxFrame, g = { base with
         header := some h, counter := x.txCounter
         payload := (Config.gcmSeal x.params.key (frameNonce x.params.salt x.txCounter) h.bytes payload).1
         tag := (Config.gcmSeal x.params.key (frameNonce x.params.salt x.txCounter) h.bytes payload).2 } ∧
       s.sendFrame n type flags seq index count payload = ((s.frameUnit payload.length).updSession n fun x => { x with
           sent := x.grant, tx := inc64 x.tx, ackOwed := x.ackOwed && type != 3 && !seqLe x.ackFor x.ack
           txCounter := x.txCounter + 1 }).enqueue x.params.port g) ∧
     (x.params.secure = true → 2 ^ 64 - 1 ≤ x.txCounter →
       s.sendFrame n type flags seq index count payload = s.arrive (.sessionReset n 3)))

/-- Sessions begin and end: a resolution opens the one session that waits for it, which starts at its initial sequence; without one for 1 s
the SESSION_OPEN fails with CONDITION_FAILED and its session is gone; a CLOSING session with nothing left to do becomes FREE, the rules that
name it are removed, and a SESSION_CLOSE from elsewhere that waits for it completes. -/
def Obligations.SessionsBeginAndEnd : Prop :=
  ∀ (s free : State) (n : Nat) (x : Session), s.session? n = some x → s.clocked = true →
    free = (List.range 16).foldl (fun t r => t.forgetLimit 205 (n * 16 + r))
      (((s.sessionRecord n x 5 0).updWire fun w => { w with sessions := mapErase w.sessions n }).removeRules
        fun r => r.reqKind = 1 && r.reqNum = n) →
    (s.mode.running = true → ∀ w : Work, x.closer.bind s.work? = some w → x.state = .resolving →
      (grainOf w.stamp + 1000000 ≤ s.grain →
        Acts (.sessionOpenResolveTimeout n) s (({ s with wire := { s.wire with sessions := mapErase s.wire.sessions n } }).deliver w
          { status := .conditionFailed, commit := w.stamp })) ∧
      (s.grain < grainOf w.stamp + 1000000 → Acts (.sessionOpenResolveTimeout n) s s)) ∧
    (x.state = .closing → s.sessionBusy n x = false → x.closer.bind s.work? = none → Acts (.sessionFree n) s free) ∧
    (x.state ≠ .closing ∨ s.sessionBusy n x = true → Acts (.sessionFree n) s s) ∧
    (∀ w : Work, x.state = .closing → s.sessionBusy n x = false → x.closer.bind s.work? = some w → w.carrier.context ≠ some n →
      Acts (.sessionFree n) s (free.deliver w { commit := w.stamp })) ∧
    (∀ w : Work, x.state = .closing → s.sessionBusy n x = false → x.closer.bind s.work? = some w → w.carrier.context = some n →
      Acts (.sessionFree n) s ((s.updSession n fun x => { x with closer := none }).deliver w { commit := w.stamp })) ∧
    (s.mode.running = true → ∀ (p : Nat) (mac : BitVec 48) (u : State), (s.port p).link = .up → s.wire.sessions = [(n, x)] →
      x.state = .resolving → u = { s with wire := { s.wire with
        neighbours := (s.nextHop x.params.port x.params.dstIp x.params.srcIp, mac) ::
          s.wire.neighbours.filter fun e => e.1 != s.nextHop x.params.port x.params.dstIp x.params.srcIp } } →
      ∃ (t : State) (y : Session), Acts (.controlFrameReceive p
          (.resolution (s.nextHop x.params.port x.params.dstIp x.params.srcIp) mac)) s t ∧
        t = u.openSession n ∧ t.session? n = some y ∧ y.state = .open_ ∧ y.lowest = x.params.initial ∧ y.highest = x.params.initial - 1 ∧
        y.params = x.params)

/-! ## Supplies, resets, temperature and the PCIe link (R10, R103, R119 to R125, R244 to R249, R276, R321 to R324, R343, R387, R401, R409) -/

/-- What a start of FILL leaves: the straps, the boot reason and the role; nothing in flight, no counter, no ring, no session, no test, and
of each function's page only its KEK; the SPI NOR, the fuses, the key pages and the recorder's pages as they were; and the settings at the
stored values, which after a reset are both written and in force. -/
def Sys2Proof.StartsFill (s t : State) (straps : Straps) (reason : Nat) : Prop :=
  t.pending = s.pending ∧ t.mode = .fill ∧ t.pins.straps = straps ∧ t.update.resetCause = reason ∧ t.cluster.role = startRole s.cluster.roleStored straps.role ∧
  t.pins.pwrFail = false ∧ t.pins.thermtrip = false ∧ t.pins.writeThrough = true ∧ t.pins.ready = false ∧ t.works = [] ∧ t.col = {} ∧
  t.time.running = false ∧ t.time.quality = .unlocked ∧ t.time.config = s.time.config ∧ t.host.rings = [] ∧
  (∀ f, t.fn f = { kek := (s.fn f).kek, kekVersion := (s.fn f).kekVersion }) ∧ t.wire = {} ∧ t.test = {} ∧ t.mgmt = {} ∧ t.spi = s.spi ∧
  t.update.fuse = s.update.fuse ∧ t.gorge.pages = s.gorge.pages ∧ t.terrace.pages = s.terrace.pages ∧ t.terrace.nextSeq = s.terrace.nextSeq ∧
  t.stored = s.stored.afterReset ∧ t.written = t.stored ∧ t.inForce = t.stored

/-- What a power-fail flush leaves: no command in flight, the recorder's and the media's state on flash with the clean-shutdown mark, the
settings stored, NAND_WP# asserted. -/
def Sys2Proof.Flushed (s t : State) : Prop :=
  t.works = [] ∧ t.delta.clean = true ∧ t.delta.healthStored = t.delta.health ∧ t.delta.imaging = [] ∧ t.stored = s.written ∧ t.mode = s.mode ∧
  t.pins.pwrFail = true ∧ t.pins.flushed = true ∧ t.pins.nandWp = true ∧ t.out = s.out

/-- Power-on, SYS_RESET#, the loss of PWR_GOOD, the release of PWR_FAIL# after a flush, and a core that consumes poison begin FILL, each
with its reason; all but a power-on keep the recorder's always-on buffer and anchor. Where no flush had run, no journal entry and no page
above what was programmed is left. The power-fail notice flushes: at its stamp where the time counter runs, else at once; it is counted.
THERMTRIP# at 120 °C flushes first where firmware runs; the 125 °C backstop flushes nothing. Both hold until a reset. HOLDUP_OK sets and
clears WRITE_THROUGH with source 127. A sample of the junction is kept; above 100 °C the warning sets ALERT#, SMB_ALERT# and source 5, once
until the junction is below. -/
def Obligations.ResetsAndSupplies : Prop :=
  (∀ s : State,
     (∀ straps : Straps, ∃ t : State, exec (.powerOn straps) s = .next t ∧ StartsFill s t straps 1 ∧ t.terrace.open_ = [] ∧
       t.terrace.sealed = [] ∧ t.terrace.anchorValid = false) ∧
     (∀ straps : Straps, ∃ t : State, exec (.sysReset straps) s = .next t ∧ StartsFill s t straps (if s.pins.pwrGood then 2 else 6) ∧
       t.terrace.open_ = s.terrace.open_ ∧ t.terrace.sealed = s.terrace.sealed ∧ t.terrace.anchorSeq = s.terrace.anchorSeq ∧
       t.terrace.anchorHash = s.terrace.anchorHash ∧ t.pins.pwrGood = true ∧
       (s.pins.flushed = false → t.delta.clean = false ∧ t.delta.journal = [] ∧ ∀ e ∈ t.delta.segments, e.2.filled = e.2.done)) ∧
     (s.pins.pwrFail = false → ∃ t : State, exec .pwrGoodLoss s = .next t ∧ StartsFill s t s.pins.straps 6 ∧ t.pins.pwrGood = false ∧
       t.terrace.open_ = s.terrace.open_) ∧
     (s.pins.pwrFail = true → s.pins.thermtrip = false → ∃ t : State, exec .pwrFailRelease s = .next t ∧ StartsFill s t s.pins.straps 5) ∧
     (s.pins.pwrFail = false ∨ s.pins.thermtrip = true → exec .pwrFailRelease s = .next s) ∧
     (s.cored = true → ∀ core addr : Nat, ∃ u t : State, Flushed s u ∧ exec (.fatalMemoryFault core addr) s = .next t ∧
       StartsFill { u with pending := s.pending } t s.pins.straps 4 ∧
       ({ fn := 0, source := 152, stamp := 0, data := eventData [(1, core), (8, addr)] } : Raise) ∈ u.events.raises)) ∧
  (∀ s : State, s.powered = true →
     (s.time.running = false → ∀ edge : Bool, ∃ t : State, exec (.pwrFailNotice edge) s = .next t ∧ Flushed s t ∧
       t.delta.health.notices = s.delta.health.notices + 1 ∧ t.pending = s.pending) ∧
     (s.time.running = true → Acts (.pwrFailNotice false) s (s.arrive .powerFail)) ∧
     (s.clocked = true → s.quiet = true → s.nextGrain < Config.maxGrain → ∃ t : State, Executes (.pwrFailNotice true) s t ∧ Flushed s t ∧
       t.delta.health.notices = s.delta.health.notices + 1) ∧
     (∀ c : Int, 120 ≤ c → s.pins.thermtrip = false → ∃ t : State, exec (.thermtrip c) s = .next t ∧ t.pins.thermtrip = true ∧
       t.pins.temperature = c ∧ t.pins.pwrFail = true ∧ t.powered = false ∧
       (s.mode.running = true → ∃ u : State, Flushed s u ∧ t = s.keepQueue (u.updPins fun p => { p with thermtrip := true, temperature := c })) ∧
       (s.mode.running = false → t = s.updPins fun p => { p with thermtrip := true, temperature := c, pwrFail := true })) ∧
     (s.pins.backstop = false → s.pins.flushed = false → exec .thermalBackstop s = .next { s with
       works := [], pins := { s.pins with thermtrip := true, backstop := true, nandWp := true, pwrFail := true } }) ∧
     (s.mode.running = true → Acts .holdupOkDeassert s (((s.updPins fun p =>
       { p with holdupOk := false, holdupStable := false, writeThrough := true }).forceAll).raise 127 0 0 0x50E (eventData [(1, 0)]))) ∧
     (s.mode.running = true → s.pins.holdupStable = false → Acts .holdupOkStable s ((s.updPins fun p =>
       { p with holdupOk := true, holdupStable := true, writeThrough := false }).raise 127 0 0 0x50E (eventData [(1, 1)]))) ∧
     (s.mode.running = true → ∀ c : Int, Acts (.temperatureSample c) s ((s.updPins fun p => { p with temperature := c }).updDelta fun d =>
       { d with health := { d.health with
           minutes := mapUpd 0 d.health.minutes (tempBin c) (fun n => satAdd max32 n 1)
           highest := max d.health.highest c, lowest := min d.health.lowest c } })) ∧
     (∀ c : Int, 100 ≤ c →
       (s.pins.warning = true → Acts (.thermalWarning c) s (s.updPins fun p => { p with temperature := c })) ∧
       (s.pins.warning = false → s.mode.running = true → Acts (.thermalWarning c) s
         (({ s with pins := { s.pins with temperature := c, warning := true, alert := true }
                    mgmt := { s.mgmt with alert := true } }).raiseLimited 5 0 0 0 (some 8) fun _ => eventData [(2, twos 16 c)])) ∧
       (s.pins.warning = false → s.mode.running = false → Acts (.thermalWarning c) s
         (({ s with pins := { s.pins with temperature := c, warning := true, alert := true }
                    mgmt := { s.mgmt with alert := true } }).later 5 8 (eventData [(2, twos 16 c)])))) ∧
     (∀ c : Int, c < 100 → Acts (.junctionBelowWarning c) s (s.updPins fun p =>
       { p with temperature := c, warning := false
                alert := (s.mode = .boot && s.update.bootHold != 0) || s.dram.trainFail.isSome || s.mode = .sealed })))

/-- What a reset of every function leaves: of the functions present, no ring, every page at its reset values, all but KEK and nonce; of all
functions, configuration space at its reset values; no virtual function, no latched half; sessions go on; and source 101 of the physical
function with its cause and the totals, at once or once REBUILD begins. -/
def Sys2Proof.HostSideReset (s t : State) (code : Nat) (st : Stamp) : Prop :=
  (∀ r ∈ t.host.rings, s.host.vfs < r.2.fn) ∧
  (∀ f, t.fn f = if f ≤ s.host.vfs then { kek := (s.fn f).kek, kekVersion := (s.fn f).kekVersion, nonce := (s.fn f).nonce }
    else { s.fn f with pci := {} }) ∧
  t.host.vfs = 0 ∧ t.host.sriov = {} ∧ t.host.linkSpeed = 0 ∧ t.host.linkWidth = 0 ∧ t.latches = [] ∧ t.wire = s.wire ∧ t.mode = s.mode ∧
  (s.mode.running = true →
    ({ fn := 0, source := 101, stamp := st, data := eventData [(1, code), (4, s.host.flrCaught), (4, s.host.flrKept)] } : Raise) ∈
      t.events.raises) ∧
  (s.mode.running = false → (101, 0x303, eventData [(1, code), (4, s.host.flrCaught), (4, s.host.flrKept)]) ∈ t.update.later)

/-- PERST#, a hot reset, the link going down, and Loopback ending reset every function: the physical one and the enabled virtual ones arrive
in their order, each for a stamp of its own, or are reset at once before the counter runs; PERST# holds until it is deasserted. With no
command in flight none is caught and none keeps its effect. At its stamp a function loses its rings and its page and keeps KEK and nonce;
the last one's ends the reset as HostSideReset says. VF Enable's clearing resets each virtual function by a stamp of its own. Unpowered,
none of them has an effect. -/
def Obligations.PcieResets : Prop :=
  (∀ s : State, s.powered = true → s.works = [] →
    (∀ (row : Bool → Instr) (cause : FlrCause) (code : Nat), (row, cause, code) ∈ ([(.perst, .perst, 1), (.hotReset, .hotReset, 2),
        (.pcieLinkDown, .linkDown, 3)] : List ((Bool → Instr) × FlrCause × Nat)) →
      (s.time.running = true → Arrives row s { s with
        latches := [], host := { s.host with perst := s.host.perst || code = 1, linkSpeed := 0, linkWidth := 0 }
        col := { s.col with intake := s.col.intake ++ (List.range (s.host.vfs + 1)).map fun f => .flr f cause (f = s.host.vfs) } }) ∧
      (s.time.running = true → s.quiet = true → s.nextGrain < Config.maxGrain → s.host.vfs = 0 → ∃ t : State, Executes (row true) s t ∧
        HostSideReset s t code (stampOf s.grain 0) ∧ t.host.perst = (s.host.perst || code = 1)) ∧
      (s.time.running = false → ∀ edge : Bool, ∃ t : State, exec (row edge) s = .next t ∧ HostSideReset s t code 0 ∧
        t.host.perst = (s.host.perst || code = 1) ∧ t.pending = s.pending) ∧
      (∀ (f : Nat) (st : Stamp), ∃ t : State,
        s.applyEvent (.flr f cause false) st = t ∧ (∀ r, r ∈ t.host.rings ↔ r ∈ s.host.rings ∧ r.2.fn ≠ f) ∧
        (∀ k, t.fn k = if k = f then { pci := (s.fn f).pci, kek := (s.fn f).kek, kekVersion := (s.fn f).kekVersion, nonce := (s.fn f).nonce }
          else s.fn k) ∧ t.events = s.events ∧ t.terrace = s.terrace ∧ t.host.vfs = s.host.vfs ∧ t.wire = s.wire)) ∧
    Acts .perstDeassertion s { s with host := { s.host with perst := false } } ∧
    (s.host.perst = false → s.host.loopback = false → exec (.pcieLoopback true) s = .next { s with
      host := { s.host with loopback := true, loopPending := s.host.loopPending ++ [1] } }) ∧
    (s.host.perst = false → s.host.loopback = true →
      (s.time.running = true → exec (.pcieLoopback false) s = .next { s with
        host := { s.host with loopback := false, loopPending := s.host.loopPending ++ [0], linkSpeed := 0, linkWidth := 0 }
        col := { s.col with intake := s.col.intake ++ (List.range (s.host.vfs + 1)).map fun f => .flr f .linkDown (f = s.host.vfs) } }) ∧
      (s.time.running = false → ∃ t : State, exec (.pcieLoopback false) s = .next t ∧ HostSideReset s t 3 0 ∧ t.host.loopback = false ∧
        t.host.loopPending = s.host.loopPending ++ [0] ∧ t.pending = s.pending)) ∧
    (∀ enter : Bool, s.host.perst = true ∨ s.host.loopback = enter → exec (.pcieLoopback enter) s = .next s) ∧
    (s.time.running = true → Arrives .vfEnableClear s ((s.updCol fun c => { c with
      intake := c.intake ++ (List.range s.host.vfs).map fun k => .flr (k + 1) .vfClear false }).updHost fun h => { h with vfs := 0 })) ∧
    (s.time.running = false → ∀ edge : Bool, exec (.vfEnableClear edge) s = .next s)) ∧
  (∀ s : State, s.powered = false → ∀ i ∈ ([.perst false, .perst true, .hotReset false, .hotReset true, .pcieLinkDown false,
    .pcieLinkDown true, .perstDeassertion, .pcieLoopback false, .pcieLoopback true, .vfEnableClear false, .vfEnableClear true] : List Instr),
    exec i s = .next s)

/-- The link, and a function's power state. A link that trains below Gen5 x16, or changes, raises source 102, kept for REBUILD while the cores
do not run, and each Loopback passed since it was last up source 226; at Gen5 x16 from down nothing is raised; while PERST# holds, the link
does not change. In D3hot nothing else changes; the return to D0 posts what was held, entries of the event ring and completions in the order
in which they were held, and holds nothing; a function that is not present does not change. An unmasked vector sends its pending message,
unless the function is in D3hot or all its vectors are masked. The exit from a power state ends in PS0, from PS3 with source 103 and a flush
of every sealed recorder slot, from PS2 or PS3 with a CREDIT for each open session; with no exit under way nothing happens, but that PS3 is
left for PS2 in the same way where all 16 slots are sealed (log entry 100). -/
def Obligations.LinkAndFunctionStates : Prop :=
  ∀ s : State, s.powered = true →
    (∀ (speed width : Nat) (u : State), s.host.perst = false → s.mode.running = true → u = { s with
        host := { s.host with linkSpeed := speed, linkWidth := width, loopPending := [] } } →
      (5 ≤ speed → 16 ≤ width → s.host.linkSpeed = 0 ∨ s.host.linkSpeed = speed ∧ s.host.linkWidth = width → s.host.loopPending = [] →
        Acts (.pcieLinkChange speed width) s u) ∧
      (speed < 5 ∨ width < 16 ∨ s.host.linkSpeed ≠ 0 ∧ (s.host.linkSpeed ≠ speed ∨ s.host.linkWidth ≠ width) → s.host.loopPending = [] →
        Acts (.pcieLinkChange speed width) s (u.raise 102 0 0 0x304 (eventData [(1, speed), (1, width)]))) ∧
      (5 ≤ speed → 16 ≤ width → s.host.linkSpeed = 0 → ∀ a b : Nat, s.host.loopPending = [a, b] → Acts (.pcieLinkChange speed width) s
        ((u.raiseOnly 226 0 0 (eventData [(1, a)])).raiseOnly 226 0 0 (eventData [(1, b)])))) ∧
    (∀ speed width : Nat, s.host.perst = true → Acts (.pcieLinkChange speed width) s s) ∧
    (∀ speed width : Nat, s.host.perst = false → s.mode.running = false → s.host.loopPending = [] → speed < 5 ∨ width < 16 →
      Acts (.pcieLinkChange speed width) s { s with
        host := { s.host with linkSpeed := speed, linkWidth := width, loopPending := [] }
        update := { s.update with later := s.update.later ++ [(102, 0x304, eventData [(1, speed), (1, width)])] } }) ∧
    (∀ f : Nat, f ≤ s.host.vfs →
      Acts (.d3hotEntry f) s (s.updFn f fun x => { x with d3hot := true }) ∧
      ((s.fn f).heldBack = [] → Acts (.d0Return f) s (s.updFn f fun x => { x with d3hot := false, heldBack := [] })) ∧
      (∀ (c : Nat) (a : BitVec 16) (p : Result) (e : Raise), (s.fn f).heldBack = [.event e, .post (some c) a p] →
        Acts (.d0Return f) s (((s.updFn f fun x => { x with d3hot := false, heldBack := [] }).enterEvent e).postEntry (.data c) a p)) ∧
      (∀ (a : BitVec 16) (p : Result) (e : Raise), (s.fn f).heldBack = [.post none a p, .event e] →
        Acts (.d0Return f) s (((s.updFn f fun x => { x with d3hot := false, heldBack := [] }).postEntry (.admin f) a p).enterEvent e))) ∧
    (∀ f : Nat, s.host.vfs < f → Acts (.d3hotEntry f) s s ∧ Acts (.d0Return f) s s) ∧
    (s.mode.running = true → ∀ (fn v : Nat) (u : State), u = s.fnSeen fn →
      (v ∈ (s.fn fn).pendingMsi → (s.fn fn).d3hot = false → (s.fn fn).pci.msixMask = false → Acts (.msixVectorUnmask fn v) s
        ((u.updFn fn fun x => { x with
          pci := { x.pci with msixEnable := true }
          msix := mapSet x.msix v ((mapGet (0, 0, 1#32) x.msix v).1, (mapGet (0, 0, 1#32) x.msix v).2.1,
            (mapGet (0, 0, 1#32) x.msix v).2.2 &&& 0xFFFFFFFE#32)
          pendingMsi := x.pendingMsi.filter fun k => k != v }).emit (.msix fn v))) ∧
      (v ∉ (s.fn fn).pendingMsi ∨ (s.fn fn).d3hot = true ∨ (s.fn fn).pci.msixMask = true → Acts (.msixVectorUnmask fn v) s
        (u.updFn fn fun x => { x with
          pci := { x.pci with msixEnable := true }
          msix := mapSet x.msix v ((mapGet (0, 0, 1#32) x.msix v).1, (mapGet (0, 0, 1#32) x.msix v).2.1,
            (mapGet (0, 0, 1#32) x.msix v).2.2 &&& 0xFFFFFFFE#32) }))) ∧
    (s.mode.running = true → ∀ (p : Nat) (u : State), s.host.exiting = some p → u = { s with
        host := { s.host with power := 0, exiting := none }, works := s.works.map fun w => { w with exit := false } } →
      (p < 2 → Acts .powerStateExitDone s u) ∧ (p = 2 → Acts .powerStateExitDone s u.creditAll) ∧
      (p = 3 → Acts .powerStateExitDone s ((u.raise 103 0 0 0x305 (eventData [(1, 3), (1, 0)])).flushSealed.creditAll))) ∧
    (s.mode.running = true → s.host.exiting = none →
      (s.host.power = 3 → 16 ≤ s.terrace.sealed.length → Acts .powerStateExitDone s
        ((({ s with host := { s.host with power := 2 } }).raise 103 0 0 0x305 (eventData [(1, 3), (1, 2)])).flushSealed.creditAll)) ∧
      (s.host.power ≠ 3 ∨ s.terrace.sealed.length < 16 → Acts .powerStateExitDone s s))

/-! ## Start-up, rebuild and update (R15, R24, R251 to R253, R326 to R337, R362 to R368) -/

/-- FILL ends, once: a failed training holds FILL with its code and ALERT#; else the ROM runs. TEST_MODE, an unusable SPI NOR, the recovery
strap, a device with no slot that verifies, and a ring that takes no boot record hold BOOT, with codes 4, 1, 5, 2 and 3, ALERT#, and a boot record that counts on from the last one; a
slot that verifies starts REBUILD in it, with the time counter at its first grain and source 1. The update state decides in the ROM.
APPLY_PENDING: a staged image that a check fails leaves IDLE with the check's code, one that does not copy with code 9, any other is copied
to the slot that the pointer does not name, which it then names, in TRIAL. REVERT_REQUESTED and a second boot in TRIAL go back to the
previous slot, with codes 10 and 11; the first boot in TRIAL is counted. Each is told once REBUILD has begun. An update state record and a slot
pointer record stand in the control area's slot that its sequence number gives. -/
def Obligations.StartFollowsUpdateState : Prop :=
  (∀ (s : State) (tr : DramTraining) (rom : RomFindings), s.powered = true → s.mode = .fill → s.dram.trainFail = none → s.pins.pwrGood = true →
     (∀ f, tr.fail = some f → Acts (.fillDone tr rom) s { s with
       dram := { s.dram with rate := tr.rate, density := tr.density, ranks := tr.ranks, trainFail := some f }
       pins := { s.pins with alert := true } }) ∧
     (∀ code : Nat, tr.fail = none → s.spi.up.state = .idle →
       (s.pins.straps.test = true ∧ code = 4 ∨
         s.pins.straps.test = false ∧ rom.sfdpOk = false ∧ code = 1 ∨
         s.pins.straps.test = false ∧ rom.sfdpOk = true ∧ s.pins.straps.boot = 2 ∧ code = 5 ∨
         s.pins.straps.test = false ∧ rom.sfdpOk = true ∧ s.pins.straps.boot ≠ 2 ∧ s.imageCheck (slotBase s.spi.pointer) ≠ 0 ∧
           s.imageCheck (slotBase (1 - s.spi.pointer)) ≠ 0 ∧ code = 2 ∨
         s.pins.straps.test = false ∧ rom.sfdpOk = true ∧ s.pins.straps.boot ≠ 2 ∧ 4 ≤ rom.ringRetries ∧
           (s.imageCheck (slotBase s.spi.pointer) = 0 ∨ s.imageCheck (slotBase (1 - s.spi.pointer)) = 0) ∧ code = 3) →
       ∃ t : State, Acts (.fillDone tr rom) s t ∧ t.mode = .boot ∧ t.update.bootHold = code ∧ t.pins.alert = true ∧ t.dram.trainDone = true ∧
         t.dram.fillDone = true ∧ t.update.bootCount = (s.spi.lastBoot.map BootSlot.count).getD 0 + 1 ∧ t.time.running = s.time.running ∧
         t.gorge.drbg = 1) ∧
     (∀ n : Nat, tr.fail = none → s.spi.up.state = .idle → s.pins.straps.test = false → rom.sfdpOk = true → s.pins.straps.boot ≠ 2 →
       rom.ringRetries < 4 → s.imageCheck (slotBase s.spi.pointer) = 0 ∧ n = s.spi.pointer ∨
         s.imageCheck (slotBase s.spi.pointer) ≠ 0 ∧ s.imageCheck (slotBase (1 - s.spi.pointer)) = 0 ∧ n = 1 - s.spi.pointer →
       ∃ t : State, Acts (.fillDone tr rom) s t ∧ t.mode = .rebuild ∧ t.update.running = n ∧ t.update.bootHold = 0 ∧
         t.update.bootCount = (s.spi.lastBoot.map BootSlot.count).getD 0 + 1 ∧ t.update.rebuilt = false ∧ t.update.later = [] ∧
         t.time.running = true ∧ t.time.counter = Config.grainUnit ∧ t.pins.ready = true ∧ t.pins.writeThrough = !s.pins.holdupStable ∧
         t.gorge.storageKey = storageKey ∧
         t.update.aliasKey = aliasOf (cdiOf (Config.sha384 (s.manifestAt (slotBase n))) s.ownerHash s.update.fuse) ∧
         ({ fn := 0, source := 1, stamp := 0, data := eventData [(1, Mode.code .boot), (1, Mode.code .rebuild)] } : Raise) ∈ t.events.raises)) ∧
  (∀ (s : State) (tr : DramTraining) (rom : RomFindings), s.powered = true →
     s.mode ≠ .fill ∨ s.dram.trainFail.isSome = true ∨ s.pins.pwrGood = false → Acts (.fillDone tr rom) s s) ∧
  (∀ (s : State) (fails : Bool),
     (s.spi.up.state = .applyPending → ∀ code : Nat, s.imageCheck Config.stagingBase = code →
       (∀ c : Nat, code ≠ 0 ∧ c = code ∨ code = 0 ∧ fails = true ∧ c = 9 → ∃ t : State, s.romUpdate fails = (t, false, false) ∧
         t.spi = s.spi.upWrite { s.spi.up with state := .idle, boots := 0, deadline := 0, outcome := c } ∧
         t.update = { s.update with
           outcome := c, later := s.update.later ++ [(209, 0xC00, eventData [(1, c), (1, s.spi.pointer)])] }) ∧
       (code = 0 → fails = false → ∀ a : State, a = { s with spi := { s.spi with
             mem := spiCopy s.spi.mem (slotBase (1 - s.spi.pointer)) Config.stagingBase
                      (ceilDiv (field (s.manifestAt Config.stagingBase) 0xC 4) 4096 * 4096) } } →
         ∃ t : State, s.romUpdate false = (t, true, false) ∧
         t.spi = (a.spi.pointerWrite (1 - s.spi.pointer) (Config.sha384 (a.manifestAt (slotBase (1 - s.spi.pointer))))).upWrite
           { s.spi.up with state := .trial, boots := 1, previous := s.spi.pointer, deadline := 0, outcome := 1 } ∧
         t.update = { s.update with
           outcome := 1, later := s.update.later ++ [(209, 0xC00, eventData [(1, 1), (1, 1 - s.spi.pointer)])] })) ∧
     (∀ c : Nat, s.spi.up.state = .revertRequested ∧ c = 10 ∨ s.spi.up.state = .trial ∧ 2 ≤ s.spi.up.boots ∧ c = 11 → ∃ t : State,
       s.romUpdate fails = (t, false, true) ∧
       t.spi = (s.spi.pointerWrite s.spi.up.previous (Config.sha384 (s.manifestAt (slotBase s.spi.up.previous)))).upWrite
         { s.spi.up with state := .idle, boots := 0, deadline := 0, outcome := c } ∧
       t.update = { s.update with
         outcome := c, later := s.update.later ++ [(215, 0xC03, eventData [(1, c), (1, s.spi.up.previous)])] }) ∧
     (s.spi.up.state = .trial → s.spi.up.boots < 2 → s.romUpdate fails =
       ({ s with spi := s.spi.upWrite { s.spi.up with boots := 2 } }, false, false)) ∧
     (s.spi.up.state = .idle ∨ s.spi.up.state = .confirmed → s.romUpdate fails = (s, false, false))) ∧
  (∀ (p : Spi) (r : UpRecord) (slot : Nat) (hash : BitVec 384), Memory.wf p.mem = true →
     (p.upWrite r).up = { r with seqNo := p.up.seqNo + 1 } ∧ (p.upWrite r).pointer = p.pointer ∧
     spiRead (p.upWrite r).mem (0x10000 + 64 * (p.up.seqNo % 1024)) 64 = UpRecord.bytes { r with seqNo := p.up.seqNo + 1 } ∧
     (p.pointerWrite slot hash).pointer = slot ∧ (p.pointerWrite slot hash).ptrSeq = p.ptrSeq + 1 ∧ (p.pointerWrite slot hash).up = p.up ∧
     spiRead (p.pointerWrite slot hash).mem (128 * (p.ptrSeq % 512)) 128 = pointerRecord slot (p.ptrSeq + 1) hash)

/-- An activation goes on: preparation that nothing holds up writes the slot and is accepted at the stamp of its completion, with the mode
MAINTENANCE, or refused with no other effect; 300 ms of the local clock later a command that still waits completes BUSY_RETRY; when all is
quiet, the device reset is stamped in P0: everything is programmed, the sums are sealed, the update state is written and the
ROM runs with the time counter going on; before that there is no restart. A BOOT hold's ROM runs again
for the FW_ACTIVATE that it took, and answers it. Half the trial's window raises source 213 once. -/
def Obligations.ActivationProceeds : Prop :=
  ∀ s : State,
    (s.cored = true → s.update.preparing = true → s.prepareQuiet = true → s.update.progress < 100 → ∀ y : State,
      y = s.prepareSlot.updUpdate (fun u => { u with progress := 100 }) →
      Acts (.activationPreparationDone false) s (y.arrive .prepared) ∧
      (s.clocked = true → s.quiet = true → s.nextGrain < Config.maxGrain → ∀ (st : Stamp) (w : Work), s.update.active = some st → s.work? st = some w →
        (s.activateRefusal = none → ∃ t : State, Executes (.activationPreparationDone true) s t ∧ t.mode = .maintenance ∧ t.update.quiesce = 1 ∧
          t.update.quiesceAt = s.localUs ∧ t.update.window = s.inForce.window ∧ t.update.active = some st ∧ t.works = s.works ∧ t.spi = y.spi) ∧
        (∀ r : Nat, s.activateRefusal = some r → ∃ t : State, Executes (.activationPreparationDone true) s t ∧
          t = (({ atSlotZero y with update := { y.update with active := none, preparing := false, progress := 0 } }).raise 209 0 w.stamp 0xC00
            (eventData [(1, r), (1, s.update.running)])).deliver w { status := .updateRefused, detail := r, commit := w.stamp }))) ∧
    (s.cored = true → (s.update.preparing = false ∨ s.prepareQuiet = false ∨ 100 ≤ s.update.progress) →
      Acts (.activationPreparationDone false) s s) ∧
    (s.cored = true → s.update.quiesce ≠ 1 ∨ s.localUs < s.update.quiesceAt + 300000 → Acts .quiesceTimeout s s) ∧
    (s.cored = true → s.update.quiesce = 1 → s.update.quiesceAt + 300000 ≤ s.localUs → ∀ (w : Work) (u : State) (r : Nat), s.works = [w] →
      (w.catchable = true → s.waits w = true ∨ w.phase = .ordered → s.retryAfter 1000 = (u, r) → Acts .quiesceTimeout s (u.endWithout w
        { status := .busyRetry, detail := r, commit := w.stamp })) ∧
      (w.catchable = false ∨ s.waits w = false ∧ w.phase ≠ .ordered → Acts .quiesceTimeout s s)) ∧
    (s.powered = true → s.romServes = false → s.restartDue = false → ∀ rom : RomFindings, exec (.warmRestart rom) s = .next s) ∧
    (s.restartDue = true ↔ s.update.quiesce = 1 ∧ s.quiesced = true ∧ s.quiet = true ∧ (∀ k ∈ s.delta.steps, k.handle = none) ∧
      s.powered = true) ∧
    (s.romServes = false → s.restartDue = true → s.nextGrain < Config.maxGrain → ∀ rom : RomFindings, ∃ u : State,
      Executes (.warmRestart rom) s (u.runRom rom true false) ∧ u.mode = .boot ∧ u.update.quiesce = 2 ∧ u.update.warm = true ∧
      u.update.rebuilt = false ∧ u.delta.sumsSealed = true ∧ u.dram.sinceSeal = 0 ∧ u.delta.imaging = [] ∧ u.latches = [] ∧ u.time = s.time ∧
      u.works = s.works ∧ u.wire = s.wire ∧ u.host = s.host ∧
      (s.update.revert = true → u.spi.up = { s.spi.up with state := .revertRequested, seqNo := s.spi.up.seqNo + 1 }) ∧
      (s.update.revert = false → u.spi.up = { s.spi.up with
        state := .applyPending, boots := 0, deadline := 0, window := s.update.window, seqNo := s.spi.up.seqNo + 1 })) ∧
    (s.powered = true → s.romServes = true → ∀ rom : RomFindings,
      (s.update.activeBy = none → Acts (.warmRestart rom) s s) ∧
      (∀ (c : Submission) (u : State), s.update.activeBy = some c →
        u = ({ s with update := { s.update with activeBy := none } }).runRom rom s.update.warm true →
        (u.inTrial = true → u.mode ≠ .boot → Acts (.warmRestart rom) s
          ((u.updHost fun h => { h with total := bump h.total Status.success.index }).emit
            (.mgmtCompletion { tag := c.desc.tag, head := 0, phase := false, result := {} } []))) ∧
        (u.inTrial = false ∨ u.mode = .boot → Acts (.warmRestart rom) s
          ((u.updHost fun h => { h with total := bump h.total Status.conditionFailed.index }).emit
            (.mgmtCompletion { tag := c.desc.tag, head := 0, phase := false, result :=
              { status := .conditionFailed, detail := u.update.outcome } } []))))) ∧
    (s.cored = true → s.inTrial = true → s.spi.up.deadline ≠ 0 → s.spi.up.deadline ≤ s.grain + 500000 * s.spi.up.window →
      (s.update.halfRaised = false → Acts .trialHalfWindow s (({ s with update := { s.update with halfRaised := true } }).raise 213 0 0 0xC01
        (eventData [(8, s.spi.up.deadline), (1, s.update.running)]))) ∧
      (s.update.halfRaised = true → Acts .trialHalfWindow s s))

/-- REBUILD. Blank media without a usable population stay there, with source 112; a clean warm restart keeps the index and goes on from the
sequences reserved; a rebuild counts an unsafe shutdown, gives up what was poisoned, and reports its path. A sealed device goes to SEALED when
the rebuild ends (log entry 105: the model's reading of a block failure met in REBUILD). SERVICE begins once the rebuild
and time let it: it starts a trial's clock, and completes the FW_ACTIVATE that led there, with SUCCESS only in TRIAL. -/
def Obligations.RebuildLeadsToService : Prop :=
  ∀ (s : State) (f : RebuildFindings), s.cored = true → s.mode = .rebuild →
    (s.update.rebuilt = true → Acts (.rebuildRun f) s s) ∧
    (s.update.rebuilt = false → s.update.warm = false → s.delta.pop = none → f.nand.present = [] → f.nand.failedCh = [] → f.nand.refused = [] →
      Acts (.rebuildRun f) s ((s.updPins fun x => { x with nandWp := false }).raise 112 0 0 0x500 (eventData [(1, 0), (1, 0), (1, 5)]))) ∧
    (s.update.rebuilt = false → s.update.warm = true → s.sumsHold = true → s.delta.sealed = false → s.time.lockedBoot = true →
      s.delta.mediaGrain < s.time.lockGrain → ∃ t : State, Acts (.rebuildRun f) s t ∧ t.mode = .rebuild ∧ t.update.rebuilt = true ∧
        t.delta.path = 2 ∧ t.index = { s.index with wseq := s.index.wseqEnd } ∧
        t.gorge = { s.gorge with pages := s.gorge.pages.map fun e => (e.1, { e.2 with counter := e.2.reserved }) } ∧
        ({ fn := 0, source := 128, stamp := 0, data := eventData [(1, 2), (4, 0), (4, 0), (4, 0)] } : Raise) ∈ t.events.raises) ∧
    (∀ p : NandPopulation, s.update.rebuilt = false → s.update.warm = false → s.delta.pop = some p → s.delta.sealed = false → s.cluster.pairs = [] →
      s.cluster.role ≠ .standalone → ∃ t : State, Acts (.rebuildRun f) s t ∧ t.mode = .rebuild ∧ t.update.rebuilt = true ∧
        t.delta.clean = false ∧ t.delta.path = (if f.scanCause ≠ 0 then 3 else if s.delta.clean then 0 else 1) ∧
        t.delta.health.unsafe_ = s.delta.health.unsafe_ + (if s.delta.clean then 0 else 1) ∧ t.index.wseq = s.index.wseqEnd ∧
        t.index.heldSlices = [] ∧ (∀ k ∈ t.index.keys, k.poisoned = false) ∧ t.pins.nandWp = false) ∧
    (s.update.rebuilt = false → s.update.warm = true → s.sumsHold = true → s.delta.sealed = true → s.inTrial = false →
      s.update.active = none → ∃ t : State, Acts (.rebuildRun f) s t ∧ t.mode = .sealed ∧ t.update.rebuilt = true ∧ t.delta.path = 2) ∧
    (s.update.rebuilt = false ∨ s.timeServes = false ∨ s.delta.sealed = true → Acts .serviceEntry s s) ∧
    (s.update.rebuilt = true → s.timeServes = true → s.delta.sealed = false → ∀ u v : State, u = (s.enterMode .service).patrolBegin →
      v = u.updUpdate (fun x => { x with quiesce := 0, revert := false, halfRaised := false, expired := false, active := none }) →
      (s.inTrial = false → s.update.active = none → Acts .serviceEntry s v) ∧
      (s.inTrial = true → s.spi.up.deadline = 0 → s.update.active = none → Acts .serviceEntry s { v with
        spi := s.spi.upWrite { s.spi.up with deadline := s.grain + 1000000 * s.spi.up.window } }) ∧
      (∀ (st : Stamp) (w : Work), s.update.active = some st → s.work? st = some w →
        (s.inTrial = true → s.spi.up.deadline ≠ 0 → Acts .serviceEntry s (v.deliver w { commit := w.stamp })) ∧
        (s.inTrial = false → Acts .serviceEntry s (v.deliver w
          { status := .conditionFailed, detail := s.update.outcome, commit := w.stamp }))))

/-! ## The media (R224 to R260, R290) -/

/-- The only event of a grain waits at Col's intake: the edge that the state reaches next gives it the grain's first stamp, where its effect
leaves the state `t`. -/
def Sys2Proof.EventGives (s : State) (e : Event) (t : State) : Prop := exec (.grainEdge 0) (s.arrive e) = .next (s.keepQueue (restOfGrain s.grain t))

/-- A row that asks for a step of an internal requester: at its stamp the step asks for its buffer, gets it where the pool meets its limit and
nobody waits before it, and otherwise waits for it; in a quiesce and in a LINK_TEST the requesters have stopped. -/
def Sys2Proof.StepAsked (s : State) (row : Bool → Instr) (k : Step) (reads : List CodewordOutcome) : Prop :=
  ∀ (x y : State) (n p : Nat), x = atSlotZero s → n = s.delta.stepNext → p = poolFor (s.stepBytes k) →
    y = x.updDelta (fun d => { d with stepNext := n + 1, steps := d.steps ++ [{ id := n, step := k, reads := reads }] }) →
    (s.requestersStop = true → Executes (row true) s x) ∧
    (s.requestersStop = false →
      (∀ (t : State) (h : Handle), s.grantable p k.owner = true → (∀ w ∈ (s.pool p).waiters, stampOf s.grain 0 < w.stamp) →
        y.takeBuffer p k.owner = (t, h) → Executes (row true) s (t.updStep n fun z => { z with handle := some h })) ∧
      (s.grantable p k.owner = false ∨ (∃ w ∈ (s.pool p).waiters, w.stamp ≤ stampOf s.grain 0) → Executes (row true) s
        (y.joinWait p { stamp := stampOf s.grain 0, owner := k.owner, wants := .step n })))

/-- A command's media reads: at its stamp the read that a die runs for a command frees the die. A codeword that the hard decode corrects at
the die's start level S with at most 32 bits counts as a good read; one corrected at another level counts the passed levels and their
senses, and the fourth in a row at a level moves S there; a die whose level is fixed keeps it. The command goes on with its next codeword,
and behind the last with its cipher units; where every level fails, the other pages of the row are read. When these are read, the XOR
rebuild gives the page, is counted, raises source 115 and queues the segment; where one of them fails too, the read ends MEDIA_UNREADABLE
with source 116. A die that runs no read for a command does nothing, and what is read for a command that has ended is dropped. Programs and
erases. At its stamp the program that a die runs frees the die and is done: the next program unit of its segment, or the parity pages that
complete a row group, with a write sequence for each page; in slot 64 the journal page that waits, which leaves the journal buffer. A
program that fails closes its segment as the next victim, retires its block, raises source 121 and places the records again, or seals the
device where the die has no spare. An erase that a die runs gives a released block back, counted; one that fails retires it under source
122, with a spare used, or seals. Without such an operation on the die nothing happens. A partly filled unit is forced 10 ms after its last
record, under write-through 20 µs after it, or, the oldest first, every 10 µs while pool 6 is at its low water; else it is not. -/
def Obligations.MediaReadsAndPrograms : Prop :=
  (∀ s x : State, s.cored = true → s.clocked = true → s.quiet = true → s.nextGrain < Config.maxGrain → x = atSlotZero s →
      (∀ (c d : Nat) (o : CodewordOutcome), (∀ id, mapGet? s.delta.running (dieKey c d) ≠ some (.read id)) →
        Executes (.codewordReadDone c d o true) s x) ∧
      (∀ (c d : Nat) (o : CodewordOutcome) (id : Stamp), mapGet? s.delta.running (dieKey c d) = some (.read id) → s.work? id = none →
        Executes (.codewordReadDone c d o true) s (x.freeDie (dieKey c d))) ∧
      (∀ (c d ch m level next : Nat) (id : Stamp) (w : Work) (l : Loc) (y : State) (step : Work → Work),
        mapGet? s.delta.running (dieKey c d) = some (.read id) → s.work? id = some w → w.phase = .media → w.loc = some l →
        s.placeOf l = (ch, d, m) → level = s.startLevel c d m → mapGet false (s.die c d).trial m = false → y = x.freeDie (dieKey c d) →
        next = w.cw + 1 → step = (fun z => if w.left = 0 then { z with
          cw := next, left := 0, row := [], phase := if codewordSpan l.unit (s.readUnits w) ≤ next then .cipher else .media }
          else { z with row := rowRead z.row c }) →
        (∀ bits n : Nat, level < 8 → bits ≤ 32 → (mapGet 0 s.inForce.dieRetry (dieKey c d)).getLsbD 15 = false →
          n = mapGet 0 (s.die c d).goodRun m + 1 → n < 65536 → Executes (.codewordReadDone c d (.hard level bits) true) s
            (((y.countCodeword c 0 0).updDie c d fun z => { z with goodRun := mapSet z.goodRun m n }).updWork id step)) ∧
        (∀ j bits steps : Nat, j < 8 → steps = levelSteps level j → (mapGet 0 s.inForce.dieRetry (dieKey c d)).getLsbD 15 = true →
          Executes (.codewordReadDone c d (.hard j bits) true) s
            ((y.countCodeword c steps (if steps = 0 then 0 else 3 * (steps - 1) + 1)).updWork id step) ∧
          Executes (.codewordReadDone c d (.soft j) true) s ((y.countCodeword c (steps + 1) (3 * steps)).updWork id step)) ∧
        (∀ j bits : Nat, j < 8 → j ≠ level → (mapGet 0 s.inForce.dieRetry (dieKey c d)).getLsbD 15 = false →
          mapGet (8, 0) (s.die c d).retryAt m = (j, 3) → ∃ t : State, Executes (.codewordReadDone c d (.hard j bits) true) s t ∧
            (m = 0 → (t.die c d).levelSlc = j ∧ (t.die c d).levelNat = (s.die c d).levelNat) ∧
            (m ≠ 0 → (t.die c d).levelNat = j ∧ (t.die c d).levelSlc = (s.die c d).levelSlc) ∧
            mapGet (8, 0) (t.die c d).retryAt m = (j, 0) ∧ t.works = (s.updWork id step).works ∧ t.index = s.index ∧ t.gorge = s.gorge) ∧
        (∀ u : State, u = (y.countCodeword c 8 21).updDie c d (fun z => { z with goodRun := mapSet z.goodRun m 0 }) →
          (w.left = 0 → Executes (.codewordReadDone c d .failed true) s
            (u.updWork id fun z => { z with left := 1, diverted := true, row := ((List.range 32).filter (· != c)).map fun k => (k, 4) })) ∧
          (w.left ≠ 0 → ∀ v : State, v = u.updDelta (fun z => { z with
              channels := mapUpd {} z.channels ch fun k => { k with unreadable := inc64 k.unreadable }
              health := { z.health with unreadable := inc64 z.health.unreadable } }) →
            Executes (.codewordReadDone c d .failed true) s ((v.raise 116 0 w.stamp 0x504 (eventData [(8, v.locationWord l)])).endWithout w
              { status := .mediaUnreadable, commit := w.stamp, version := w.result.version })))) ∧
      (∀ id : Stamp, s.work? id = none → Executes (.xorRebuild id true) s x) ∧
      (∀ (id : Stamp) (w : Work) (l : Loc) (q ch d m next : Nat) (u : State), s.work? id = some w → w.phase = .media → w.loc = some l →
        (w.left = 0 ∨ w.row ≠ [] → Executes (.xorRebuild id true) s x) ∧
        (w.left ≠ 0 → w.row = [] → s.readAt w l = (q, ch, d, m) → next = 4 * (q / 4 + 1) - codewordOf l.unit →
          u = x.updDelta (fun z => { z with
            channels := mapUpd {} z.channels ch fun k => { k with rebuilds := inc64 k.rebuilds }
            health := { z.health with rebuilds := inc64 z.health.rebuilds } }) →
          Executes (.xorRebuild id true) s
            (((u.raiseLimited 115 0 0 0 (some 0x503) fun n => eventData [(8, u.locationWord l), (4, n)]).queueRefresh l.segment 2).updWork id
              fun z => { z with cw := next, left := 0, row := []
                                phase := if codewordSpan l.unit (s.readUnits w) ≤ next then .cipher else .media })))) ∧
  (∀ s x : State, s.cored = true → x = atSlotZero s →
      (s.clocked = true → s.quiet = true → s.nextGrain < Config.maxGrain →
        (∀ slot : Nat, slot ≠ 64 → s.nextProgram slot = none → Executes (.programDone slot true) s x) ∧
        (∀ ch : Nat, s.nextProgram ch = none → ch ≠ 64 → ∀ c : Nat, Executes (.programFailure ch c true) s x) ∧
        (∀ (slot key n : Nat) (g : Segment), slot < 64 → s.nextProgram slot = some (key, n, g) → s.segment? n = some g → g.broken = false →
          (g.ready (s.delta.kOf g.slc) = false → Executes (.programDone slot true) s (x.freeDie key)) ∧
          (∀ (e : Nat) (t : State) (q : Nat), g.ready (s.delta.kOf g.slc) = true → g.parityDue (s.delta.kOf g.slc) = false →
            e = progEnd (s.delta.kOf g.slc) g.done → (x.freeDie key).takeSeq ((e - g.done) / 64) = (t, q) →
            Executes (.programDone slot true) s (t.updSegment n fun z => { z with done := e, seqs := z.seqs ++ [(z.done, false, q)] })) ∧
          (∀ (row : Nat) (t : State) (q : Nat), g.parityDue (s.delta.kOf g.slc) = true → row = rowEnd (s.delta.kOf g.slc) g.par →
            (x.freeDie key).takeSeq (max 1 (if g.par = 0 then s.delta.kOf g.slc - 1 else s.delta.kOf g.slc)) = (t, q) →
            Executes (.programDone slot true) s (t.updSegment n fun z => { z with
              par := row, rel := z.rel ++ [(stampOf s.grain 0, row / 64)], seqs := z.seqs ++ [(z.par, true, q)] }))) ∧
        ((∀ e ∈ s.delta.running, e.2 ≠ .journal) → Executes (.programDone 64 true) s x) ∧
        (∀ (key n : Nat) (g : Segment), s.delta.running.find? (fun e => e.2 = .journal) = some (key, .journal) → s.journalNext ≠ [] →
          mapGet? s.delta.slots 64 = some n → s.segment? n = some g → ∃ t : State, Executes (.programDone 64 true) s t ∧
            t.delta.journal = s.delta.journal.drop s.journalNext.length ∧ t.delta.jPages = s.delta.jPages + 1 ∧
            (t.segment? n).map Segment.jpages = some (g.jpages ++ [s.journalNext]) ∧ (t.segment? n).map Segment.done = some (g.done + 64) ∧
            t.index.wseq = s.index.wseq + 1 ∧ mapGet? t.delta.running key = none ∧ t.works = s.works ∧ t.index.keys = s.index.keys) ∧
        (∀ (slot key n ch die : Nat) (g : Segment), slot < 64 → s.nextProgram slot = some (key, n, g) → ch < 32 → die = s.delta.dieIndex g.group →
          ∀ u : State, u = ((((x.freeDie key).updDelta fun d => { d with
              programFails := inc64 d.programFails, health := { d.health with programFails := inc64 d.health.programFails } }).raise 121 0 0 0x509
                (eventData [(1, ch), (1, die), (2, g.blocks.getD ch 0), (1, g.stream)])).closeEarly n).updSegment n
                  (fun y => { y with failed := true, broken := true, bad := ch :: y.bad }) →
          (1 ≤ (s.die ch die).spares → Executes (.programFailure slot ch true) s
            (((u.retire ch die (g.blocks.getD ch 0) n).imagesAgain n).replaceUnit n)) ∧
          ((s.die ch die).spares = 0 → Executes (.programFailure slot ch true) s (u.arrive (.seal ch die (g.blocks.getD ch 0) n)))) ∧
        (∀ c d b : Nat, mapGet? s.delta.running (dieKey c d) ≠ some (.erase b) →
          Executes (.eraseDone c d b true) s x ∧ Executes (.eraseFailure c d b true) s x) ∧
        (∀ c d b : Nat, mapGet? s.delta.running (dieKey c d) = some (.erase b) → b ∈ (s.die c d).released →
          (∃ t : State, Executes (.eraseDone c d b true) s t.wearEvents ∧
            (t.die c d).released = (s.die c d).released.filter (fun k => k != b) ∧ (t.die c d).erased = b :: (s.die c d).erased ∧
            mapGet 0 (t.die c d).wear b = mapGet 0 (s.die c d).wear b + 1 ∧ t.delta.erases = inc64 s.delta.erases ∧
            t.delta.running = mapErase s.delta.running (dieKey c d) ∧ t = { x with delta := t.delta }) ∧
          (∃ t : State, Executes (.eraseFailure c d b true) s t ∧
            (t.die c d).released = (s.die c d).released.filter (fun k => k != b) ∧ (t.die c d).erased = (s.die c d).erased ∧
            t.delta.eraseFails = inc64 s.delta.eraseFails ∧ mapGet? t.delta.running (dieKey c d) = none ∧
            ((s.die c d).spares ≠ 0 → (t.die c d).spares = (s.die c d).spares - 1 ∧ (t.die c d).retired = (s.die c d).retired + 1 ∧
              t.col.intake = []) ∧
            ((s.die c d).spares = 0 → t.col.intake = [.seal c d b (2 ^ 32)]) ∧
            ({ fn := 0, source := 122, stamp := 0, data := eventData [(1, c), (1, d), (2, b)] } : Raise) ∈ t.events.raises))) ∧
      (∀ slot n e : Nat, ∀ g : Segment, slot ≠ 64 → mapGet? s.delta.slots slot = some n → s.segment? n = some g →
        e = progEnd (s.delta.kOf g.slc) (g.filled - 1) →
        (g.filled = 0 ∨ e ≤ g.filled ∨ g.done = g.filled ∨ s.grain < g.lastRec + 10000 → Acts (.forcedProgramIdle slot) s s) ∧
        (g.filled = 0 ∨ e ≤ g.filled ∨ g.done = g.filled ∨ s.localUs < g.placedAt + 20 ∨ s.pins.writeThrough = false →
          Acts (.forcedProgramWriteThrough slot) s s) ∧
        (g.filled ≠ 0 → g.filled < e → g.done ≠ g.filled → ∀ t : State,
          t = (s.updSegment n fun y => { y with filled := e, forced := e, forcedSeq := s.index.wseq }).updDelta
            (fun d => { d with forcedCount := inc64 d.forcedCount, padUnits := d.padUnits + (e - g.filled) }) →
          (g.lastRec + 10000 ≤ s.grain → Acts (.forcedProgramIdle slot) s t) ∧
          (s.pins.writeThrough = true → g.placedAt + 20 ≤ s.localUs → Acts (.forcedProgramWriteThrough slot) s t))) ∧
      (∀ slot : Nat, slot ≠ 64 → mapGet? s.delta.slots slot = none →
        Acts (.forcedProgramIdle slot) s s ∧ Acts (.forcedProgramWriteThrough slot) s s) ∧
      (Acts (.forcedProgramIdle 64) s (s.updDelta fun d => { d with jForced := !d.journal.isEmpty })) ∧
      (s.lowWater 6 < (s.pool 6).free ∨ s.localUs < s.delta.pool6At + 10 → Acts .forcedProgramPool6 s s) ∧
      (∀ n : Nat, ∀ g : Segment, (s.pool 6).free ≤ s.lowWater 6 → s.delta.pool6At + 10 ≤ s.localUs → s.delta.segments = [(n, g)] →
        g.open_ = true → g.stream ≤ 3 → g.done < g.filled → g.filled < progEnd (s.delta.kOf g.slc) (g.filled - 1) →
        Acts .forcedProgramPool6 s ((s.updDelta fun d => { d with pool6At := s.localUs }).forceSegment n)))

/-- Copying in the background: GC, folding, refresh. Their rows ask for a step at their stamp; the step, once it has its buffer and its die
has read for it, ends at a stamp of its own, has its effect, and its buffer goes back. What the step has read counts, a codeword that no level decodes rebuilt from its row; a poisoned buffer ends the step with source 148 and
nothing more, and a record that died while it was read leaves a dead copy. The effect: nothing is copied on sealed media, in PS2
and deeper, or where no segment calls for it. A victim without a live record is released, and a refresh of it counted; a live record goes to
stream 3, in folding to stream 1, with the next write sequence and a journal entry. A live record that cannot be rebuilt is lost: it enters the list with source 130,
or, where the list is full, keeps its segment, with source 131. -/
def Obligations.BackgroundCopies : Prop :=
  (∀ (s : State) (lost : Bool), s.cored = true → s.clocked = true → s.quiet = true → s.nextGrain < Config.maxGrain →
    (∀ reads : List CodewordOutcome, StepAsked s (.gcStep reads lost) (.gc lost) reads ∧
      StepAsked s (.foldingStep reads lost) (.fold lost) reads ∧ StepAsked s (.refreshStep reads lost) (.refresh lost) reads) ∧
    (∀ (k : StepRun) (h : Handle) (y : State), s.step? k.id = some k → k.handle = some h → y = ((atSlotZero s).updDelta fun d => { d with
        running := d.running.filter fun e => e.2 != .step k.id, steps := d.steps.filter fun z => z.id != k.id }).stepRead k →
      (s.handlePoisoned h = true →
        EventGives s (.stepDone k.id) ((y.poisonUsed (handleWord h) 7 0).presentRelease h k.step.owner 0)) ∧
      (s.handlePoisoned h = false → k.target = none ∨ (∃ n p, k.target = some (n, p) ∧ s.live p n = true) →
        EventGives s (.stepDone k.id) ((y.stepRun k.step).presentRelease h k.step.owner 0)) ∧
      (∀ (n : Nat) (p : Placed), s.handlePoisoned h = false → k.target = some (n, p) → s.live p n = false → k.step = .gc lost →
        EventGives s (.stepDone k.id) ((y.deadCopy 3 p.units).presentRelease h k.step.owner 0)))) ∧
  (∀ (s : State) (k : StepRun) (n : Nat) (p : Placed) (g : Segment) (ch : Nat), k.target = some (n, p) → s.segment? n = some g →
    ch = codewordChannel n (s.delta.kOf g.slc) (codewordOf p.unit) →
    (s.inBasin { segment := n, unit := p.unit } p.units = true ∨ k.reads = [] → s.stepRead k = s) ∧
    (s.inBasin { segment := n, unit := p.unit } p.units = false →
      (∀ (o : CodewordOutcome) (y : State), y = s.codewordRead ch (s.delta.dieIndex g.group) (b2n !g.slc) o → k.reads = [o] →
        (o ≠ .failed ∨ k.step.lost = true → s.stepRead k = y) ∧
        (o = .failed → k.step.lost = false → s.stepRead k = y.rebuilt { segment := n, unit := p.unit } ch)))) ∧
  (∀ (s : State) (lost : Bool),
    (s.copies = false → s.stepRun (.gc lost) = s ∧ s.stepRun (.fold lost) = s ∧ s.stepRun (.refresh lost) = s) ∧
    (s.copies = true → (∀ e ∈ s.delta.segments, e.2.settled = false) →
      s.stepRun (.gc lost) = s ∧ s.stepRun (.fold lost) = s ∧ s.stepRun (.refresh lost) = s) ∧
    (∀ (n : Nat) (g : Segment), s.copies = true → s.delta.segments = [(n, g)] → g.settled = true →
      ((∀ p ∈ g.recs, s.live p n = false) →
        (1 ≤ g.stream → g.stream ≤ 3 → g.refresh = false → s.stepRun (.gc lost) = s.markFree n) ∧
        (1 ≤ g.stream → g.stream ≤ 3 → g.refresh = true → g.failed = false → s.stepRun (.refresh lost) = (s.updDelta fun d => { d with
          refreshes := inc64 d.refreshes, health := { d.health with refreshed := inc64 d.health.refreshed } }).markFree n) ∧
        (g.stream = 0 → g.refresh = false → s.slcBudget < s.delta.slcInUse → s.stepRun (.fold lost) = s.markFree n)) ∧
      (∀ p : Placed, 1 ≤ g.stream → g.stream ≤ 3 → g.refresh = false → g.recs = [p] → s.live p n = true → s.delta.lostList = [] →
        (∃ t : State, s.stepRun (.gc true) = t ∧ t.delta.lostList = [(p.ns, p.fp, p.stamp)] ∧
          (t.segment? n).map Segment.freeAt = some (s.col.last + 1) ∧
          ({ fn := 0, source := 130, stamp := p.stamp, data := eventData [(8, s.locationWord { segment := n, unit := p.unit }),
            (8, p.fp.toNat)] } : Raise) ∈ t.events.raises ∧ t.index = s.index) ∧
        (s.journalRoom 1 = false → s.stepRun (.gc false) = s)) ∧
      (∀ (p : Placed) (k : Step) (stream : Nat) (u v : State) (l : Loc) (q : Nat),
        (k = .gc false ∧ 1 ≤ g.stream ∧ g.stream ≤ 3 ∧ g.refresh = false ∧ stream = 3) ∨
          (k = .refresh false ∧ 1 ≤ g.stream ∧ g.stream ≤ 3 ∧ g.refresh = true ∧ g.failed = false ∧ stream = 3) ∨
          (k = .fold false ∧ g.stream = 0 ∧ g.refresh = false ∧ s.slcBudget < s.delta.slcInUse ∧ stream = 1) →
        g.recs = [p] → s.live p n = true → s.delta.lostList = [] → s.journalRoom 1 = true →
        s.placeStream stream p.units (fun l => some { p with unit := l.unit }) = some (u, l) → u.takeSeq 1 = (v, q) → l.segment ≠ n →
        (∀ k ∈ s.index.keys, ∀ x ∈ k.versions, x.loc = some { segment := n, unit := p.unit } → k.ns = p.ns ∧ k.key = p.key) →
        ∃ t : State, s.stepRun k = t ∧ (t.segment? n).map Segment.freeAt = some (s.col.last + 1) ∧ t.index.wseq = v.index.wseq ∧
          t.delta.journal = v.delta.journal ++ [{ ns := p.ns, fp := p.fp, stamp := p.stamp, wseq := q, kind := 5, loc := l, length := p.body.value.length }] ∧
          (∀ k ∈ t.index.keys, ∀ x ∈ k.versions, x.loc ≠ some { segment := n, unit := p.unit }) ∧
          (stream = 3 → t.delta.gcCopied = satAdd max64 s.delta.gcCopied (256 * p.units) ∧ t.delta.foldCopied = s.delta.foldCopied) ∧
          (stream = 1 → t.delta.foldCopied = satAdd max64 s.delta.foldCopied (256 * p.units) ∧ t.delta.gcCopied = s.delta.gcCopied)) ∧
      (∀ p : Placed, 1 ≤ g.stream → g.stream ≤ 3 → g.refresh = false → g.recs = [p] → s.live p n = true →
        Config.lostRecords ≤ s.delta.lostList.length → (p.ns, p.fp, p.stamp) ∉ s.delta.lostList → ∃ t : State, s.stepRun (.gc true) = t ∧
          t.delta.lostList = s.delta.lostList ∧ (t.segment? n).map Segment.lost = some true ∧ (t.segment? n).map Segment.freeAt = some g.freeAt ∧
          (s.delta.lostFull = false → ({ fn := 0, source := 131, stamp := 0, data := eventData [(4, Config.lostRecords)] } : Raise) ∈
            t.events.raises))))

/-- Patrol. Its row asks for a step; a page that is its turn is read once in a cycle and counted; a codeword that no level decodes is rebuilt,
and it, a codeword past the start level and one past the threshold queue the segment for refresh; one past half of it has the block read again
a quarter period later. Each second the rate is what is left over the time left, 0 where patrol
rests; a cycle's end counts unread pages under source 133 and starts the next, which reads them first. Sweeps and secure deletion. The retention sweep leaves of each
key what is needed, and no needed version goes; a metadata merge on a free die ends, or falls back with source 119; a candidate of a
DELETE_SECURE is walked record by record; the erase waits for what runs earlier, then the segments are erased and the command completes with
the blocks erased, under source 134; a removed namespace's last entry frees its ID and takes its versions and its rules; a re-key sweep with
nothing left ends with source 166, a record re-encrypted leaves the previous generation, and one whose tag fails is lost. -/
def Obligations.PatrolAndSweeps : Prop :=
  (∀ s x : State, s.cored = true → s.clocked = true → s.quiet = true → s.nextGrain < Config.maxGrain → x = atSlotZero s →
     (∀ (n ch page : Nat) (reads : List CodewordOutcome), StepAsked s (.patrolRead n ch page reads) (.patrol n ch page reads) []) ∧
     (∀ (page : Nat) (reads : List CodewordOutcome) (bad : Bool), StepAsked s (.rekeySweepStep page reads bad) (.rekey page bad) reads) ∧
     (∀ (id : Stamp) (reads : List CodewordOutcome), s.work? id = none ∨ (s.intent? id).isSome = true →
       StepAsked s (.secureDeleteRelocationStep id reads) (.secure id) reads) ∧
     (∀ (n ch since : Nat) (reads : List CodewordOutcome), (n, ch, since) ∈ s.delta.tracked → since + s.patrolPeriod / 4 ≤ s.grain →
       Executes (.patrolReread n ch reads true) s (x.arrive (.step (.patrolAgain n ch reads) []))) ∧
     (∀ (n ch : Nat) (reads : List CodewordOutcome) (edge : Bool),
       (∀ t ∈ s.delta.tracked, t.1 = n → t.2.1 = ch → s.grain < t.2.2 + s.patrolPeriod / 4) → exec (.patrolReread n ch reads edge) s = .next s) ∧
     (s.delta.rateAt + 1000000 ≤ s.localUs → Executes (.patrolRateUpdate true) s (x.updDelta fun d => { d with
       rateAt := s.localUs, patrolTodo := s.patrolLeft.length
       patrolRate := if s.patrols then ceilDiv s.patrolLeft.length
         (max 1 ((s.delta.patrolStart + s.patrolPeriod - s.grain) / 1000000)) else 0 })) ∧
     (s.delta.patrolStart + s.patrolPeriod ≤ s.grain → ∀ u : State, u = x.updDelta (fun d => { d with
         patrolSeen := [], patrolFirst := s.patrolLeft, patrolStart := s.grain, patrolTodo := s.patrolLeft.length
         health := { d.health with missed := satAdd max64 d.health.missed s.patrolLeft.length } }) →
       (s.patrolLeft = [] → Executes (.patrolCycleEnd true) s u) ∧
       (s.patrolLeft ≠ [] → Executes (.patrolCycleEnd true) s (u.raise 133 0 0 0x512 (eventData [(4, s.patrolLeft.length)])))) ∧
     (∀ t : State, s.cluster.drops = [] → t = x.updIndex (fun i => { i with
         keys := i.keys.filterMap fun k => if (mapGet? i.removing k.ns).isSome then some k else s.keepEntry k }) →
       Executes (.retentionSweep true) s t.fillEvents ∧
       (∀ k ∈ s.index.keys, ∀ p ∈ withNewer none k.versions, s.needed k.ns k.key p.1 p.2 = true → ∃ e ∈ t.index.keys, e.ns = k.ns ∧ e.key = k.key ∧
         p.1 ∈ e.versions))) ∧
  (∀ (s : State) (n ch page d m level : Nat) (g : Segment), s.segment? n = some g → d = s.delta.dieIndex g.group → m = b2n (!g.slc) →
     level = s.startLevel ch d m →
     (∀ reads : List CodewordOutcome,
       (s.patrols = false ∨ (n, ch, page) ∉ s.patrolNext → s.stepRun (.patrol n ch page reads) = s) ∧
       (s.patrols = false ∨ (∀ t ∈ s.delta.tracked, t.1 = n → t.2.1 ≠ ch) → s.stepRun (.patrolAgain n ch reads) = s)) ∧
     (∀ (o : CodewordOutcome) (u v : State), s.patrols = true → (n, ch, page) ∈ s.patrolNext → level < 8 →
       u = s.updDelta (fun z => { z with patrolSeen := (n, ch, page) :: z.patrolSeen
                                         health := { z.health with patrolled := inc64 z.health.patrolled } }) →
       v = u.codewordRead ch d m o →
       (o = .failed → s.stepRun (.patrol n ch page [o]) = (v.rebuilt { segment := n, unit := 0 } ch).queueRefresh n 2) ∧
       (∀ j : Nat, o = .soft j → s.stepRun (.patrol n ch page [o]) = v.queueRefresh n 1) ∧
       (∀ j bits : Nat, o = .hard j bits → bits ≤ s.inForce.refresh / 2 →
         (j < 8 → j ≠ level → s.stepRun (.patrol n ch page [o]) = v.queueRefresh n 1) ∧
         (j = level → s.stepRun (.patrol n ch page [o]) = v)) ∧
       (∀ bits : Nat, o = .hard level bits → s.inForce.refresh / 2 < bits → (∀ t ∈ s.delta.tracked, t.1 = n → t.2.1 ≠ ch) →
         s.delta.tracked.length < 1024 →
         (bits ≤ s.inForce.refresh →
           s.stepRun (.patrol n ch page [o]) = v.updDelta fun z => { z with tracked := z.tracked ++ [(n, ch, s.grain)] }) ∧
         (s.inForce.refresh < bits →
           s.stepRun (.patrol n ch page [o]) = (v.queueRefresh n 3).updDelta fun z => { z with tracked := z.tracked ++ [(n, ch, s.grain)] }))) ∧
     (∀ (bits since : Nat) (u : State), s.patrols = true → (n, ch, since) ∈ s.delta.tracked → level < 8 → u = (s.updDelta fun z => { z with
         tracked := z.tracked.filter fun t => t.1 != n || t.2.1 != ch
         health := { z.health with patrolled := satAdd max64 z.health.patrolled 1 } }).codewordRead ch d m (.hard level bits) →
       (bits ≤ s.inForce.refresh → s.stepRun (.patrolAgain n ch [.hard level bits]) = u) ∧
       (s.inForce.refresh < bits → s.stepRun (.patrolAgain n ch [.hard level bits]) = u.queueRefresh n 3))) ∧
  (∀ s : State, s.cored = true →
     (∀ (l n ch d : Nat) (io bad : Bool) (u : State), u = s.updDelta (fun x => { x with
         merging := x.merging.filter fun k => k != l, fallbacks := x.fallbacks.filter fun f => f.1 != l
         copyMerges := if io then x.copyMerges else inc64 x.copyMerges }) →
       ((mapGet? s.delta.running (dieKey ch d)).isSome = true → Acts (.metadataMerge l n ch d io bad) s s) ∧
       (mapGet? s.delta.running (dieKey ch d) = none →
         Acts (.metadataMerge l n ch d io false) s u ∧
         Acts (.metadataMerge l n ch d io true) s ((u.updDelta fun x => { x with
           fallbacks := x.fallbacks ++ [(l, n)], health := { x.health with copyFalls := inc64 x.health.copyFalls } }).raise 119 0 0 0x507
             (eventData [(2, l), (2, n), (1, ch), (1, d)])))) ∧
     (∀ (id n : Nat) (i : Intent) (rest : List Nat), s.intent? id = some i → i.todo = n :: rest →
       (s.delta.sealed = false → s.nextLive n = none →
         s.stepRun (.secure id) = s.updIntent id fun x => { x with todo := rest, after := s.col.last + 1 }) ∧
       (∀ (p : Placed) (t : State), s.delta.sealed = false → s.nextLive n = some p → s.copyRecord n 3 p = some t → (t.nextLive n).isSome = true →
         s.stepRun (.secure id) = t) ∧
       (∀ (p : Placed) (t : State), s.delta.sealed = false → s.nextLive n = some p → s.copyRecord n 3 p = some t → t.nextLive n = none →
         s.stepRun (.secure id) = t.updIntent id fun x => { x with todo := rest, after := t.col.last + 1 }) ∧
       (s.delta.sealed = true → s.stepRun (.secure id) = s) ∧
       Acts (.secureDeleteErase id) s s) ∧
     (∀ id : Nat, s.intent? id = none → (∀ w : Work, s.work? id = some w → w.phase ≠ .erase) → Acts (.secureDeleteErase id) s s) ∧
     (∀ (id : Nat) (i : Intent) (w : Work), s.intent? id = some i → i.todo = [] → s.work? id = some w →
       ((∃ x ∈ s.works, x.posted = false ∧ x.phase ≠ .erase ∧ x.stamp < i.after) ∨
         (∃ n ∈ i.segments, ∃ g, s.segment? n = some g ∧ g.done < g.filled) → Acts (.secureDeleteErase id) s s) ∧
       ((∀ x ∈ s.works, x.posted = true ∨ x.phase = .erase ∨ i.after ≤ x.stamp) →
         (∀ n ∈ i.segments, ∀ g, s.segment? n = some g → g.filled ≤ g.done) → ∃ t : State, Acts (.secureDeleteErase id) s
           (t.deliver w { w.result with commit := w.stamp, length := 32 * i.segments.length }) ∧
           t.delta.intents = s.delta.intents.filter (fun x => x.stamp != id) ∧ (∀ n ∈ i.segments, t.segment? n = none) ∧ t.works = s.works ∧
           t.index.keys = s.index.keys ∧
           ({ fn := ((s.space? i.ns).map fun n => n.params.owner).getD 0, source := 134, stamp := id
              data := eventData [(2, i.ns), (4, 32 * i.segments.length)] } : Raise) ∈ t.events.raises)) ∧
     (∀ ns : Nat, mapGet? s.index.removing ns = none → Acts (.namespaceRemovalDone ns) s s) ∧
     (∀ (ns st : Nat) (n : Namespace), mapGet? s.index.removing ns = some (n, some st) →
       (∃ x ∈ s.works, isDataOp x.op = true ∧ x.desc.ns.toNat = ns ∧ x.stamp < st) → Acts (.namespaceRemovalDone ns) s s) ∧
     (∀ (ns st : Nat) (n : Namespace) (w : Work) (count : Nat), mapGet? s.index.removing ns = some (n, some st) → s.work? st = some w →
       (∀ x ∈ s.works, isDataOp x.op = false ∨ x.desc.ns.toNat ≠ ns ∨ st ≤ x.stamp) →
       count = ((s.index.keys.filter fun k => k.ns = ns).map fun k => k.versions.length).sum →
       ∃ t : State, Acts (.namespaceRemovalDone ns) s (t.deliver w { commit := w.stamp, length := min max32 count }) ∧
         t.index.keys = s.index.keys.filter (fun k => k.ns != ns) ∧ t.index.removing = mapErase s.index.removing ns ∧ t.works = s.works ∧
         t.index.spaces = s.index.spaces ∧ (∀ r ∈ t.glen.rules, r ∈ s.glen.rules ∧ r.ns ≠ ns)) ∧
     (∀ (page : Nat) (p : KeyPage) (g : Generation), s.keyPage? page = some p → p.sweep = true → p.previous = some g →
       (∀ bad : Bool, s.delta.sealed = true → s.stepRun (.rekey page bad) = s) ∧
       (∀ bad : Bool, s.delta.sealed = false → s.sweepTarget page g.number = none →
         s.stepRun (.rekey page bad) = (s.updPage page fun p => { p with sweep := false }).raise 166 p.owner 0 0x706
           (eventData [(1, page), (1, g.number), (4, p.rewritten)])) ∧
       (∀ bad : Bool, s.sweepWaits = true → (s.sweepTarget page g.number).isSome = true → s.stepRun (.rekey page bad) = s) ∧
       (∀ (k : KeyEntry) (v : Version) (l : Loc), s.delta.sealed = false → s.sweepTarget page g.number = some (k, v) → v.loc = some l →
         s.sweepWaits = false → (s.recordOf k v l).ns = k.ns → (s.recordOf k v l).fp = k.fp →
         (s.delta.lostList.length < Config.lostRecords → ∃ t : State, s.stepRun (.rekey page true) = t ∧
           t.gorge.tagFails = inc64 s.gorge.tagFails ∧ t.gorge.decrypted = satAdd max64 s.gorge.decrypted (usesOf v.value.length) ∧
           t.delta.lostList = s.delta.lostList ++ [(k.ns, k.fp, v.stamp)] ∧ t.index = s.index ∧
           ({ fn := p.owner, source := 162, stamp := v.stamp, data := eventData [(1, page), (1, g.number), (8, s.locationWord l)] } : Raise) ∈
             t.events.raises) ∧
         (s.journalRoom 1 = false → s.stepRun (.rekey page false) = s) ∧
         (∀ (u t : State) (c : Nat), s.takeUses page p.current.number (usesOf v.value.length) false 0 = (u, some c) →
           s.stepRun (.rekey page false) = t → p.current.number ≠ g.number → u.journalRoom 1 = true →
           (u.placeStream 3 (s.recordOf k v l).units fun _ => none).isSome = true →
           (t.keyPage? page).map KeyPage.rewritten = some (p.rewritten + 1) ∧
           t.gorge.encrypted = satAdd max64 s.gorge.encrypted (usesOf v.value.length) ∧
           ∀ e ∈ t.index.keys, e.ns = k.ns → e.key = k.key → ∀ x ∈ e.versions, x.page = page →
             (∃ y ∈ k.versions, y.stamp = x.stamp ∧ y.loc = some l) → x.gen ≠ g.number))) ∧
     (∀ (page : Nat) (p : KeyPage) (b : Bool), s.keyPage? page = some p → p.sweep = false ∨ p.previous = none → s.stepRun (.rekey page b) = s))

/-- On-chip and bulk memory, and what is stored of itself. A merge entry retires where its cause holds: a full one clears its line's poison,
another's line is read first. A line is read as what its symbols say: clean, within what the decoder corrects, or not.
The scrubber reads a line once in a scrub period, and does nothing with scrubbing off or in PS3; a correctable read of a line is counted, for the line and for each device that holds
a corrected symbol, and logged; an uncorrectable line is poisoned with source 149, and an index line's slice is held. A Glen row that differs
from its copy is rewritten from it, after which the tables are as they were, counted, and reported under source 155; from a copy with a
double-bit error nothing is. The recorder's row asks for a step, with which a sealed slot
becomes a page; written settings, and limits, are stored where they differ; health counters are stored with an hour more. -/
def Obligations.MemoryAndStores : Prop :=
  ∀ s : State,
    (s.clocked = true → ∀ (l : DramLine) (o : LineOutcome) (mask : BitVec 128) (b : Bytes),
      (s.dram.merge.find? fun e => e.1 = l.addr) = some (l.addr, mask, b) →
      (mask = BitVec.allOnes 128 → Acts (.mergeEntryRetire l .fullMask o) s (s.updDram fun d => { d with
        merge := d.merge.filter fun e => e.1 != l.addr, mergeFull := inc64 d.mergeFull
        poison := d.poison.filter fun k => k != s.lineAt l.addr })) ∧
      (mask ≠ BitVec.allOnes 128 → Acts (.mergeEntryRetire l .fullMask o) s s ∧
        Acts (.mergeEntryRetire l .idle o) s ((s.lineRead l 2 o).updDram fun d => { d with
          merge := d.merge.filter fun e => e.1 != l.addr, mergeRmw := inc64 d.mergeRmw })) ∧
      (s.dram.merge.head?.map Prod.fst ≠ some l.addr → Acts (.mergeEntryRetire l .evicted o) s s)) ∧
    (s.clocked = true → ∀ (l : DramLine) (cause : MergeCause) (o : LineOutcome), (∀ e ∈ s.dram.merge, e.1 ≠ l.addr) →
      Acts (.mergeEntryRetire l cause o) s s) ∧
    (∀ (l : DramLine) (reader : Nat), s.lineRead l reader .clean = s ∧ (s.lineAt l.addr ∉ s.dram.poison →
      s.lineRead l reader .uncorrectable = s.badLine l reader ∧
      ∀ p : List Nat, s.correctable l p = true → s.lineRead l reader (.corrected p) = s.correctedLine l p)) ∧
    (s.cored = true →
      (∀ (l : DramLine) (o : LineOutcome), s.inForce.scrub = 0 ∨ 3 ≤ s.host.power → Acts (.scrubRead l o) s s) ∧
      (∀ l : DramLine, s.inForce.scrub ≠ 0 → s.host.power < 3 → s.grain < s.dram.scrubStart + s.scrubPeriod → l.addr ∈ s.dram.scrubbed →
        ∀ o : LineOutcome, Acts (.scrubRead l o) s s) ∧
      (∀ (l : DramLine) (r : State), s.inForce.scrub ≠ 0 → s.host.power < 3 →
        (s.grain < s.dram.scrubStart + s.scrubPeriod ∧ l.addr ∉ s.dram.scrubbed ∧
            r = s.updDram (fun d => { d with scrubbed := l.addr :: d.scrubbed }) ∨
          s.dram.scrubStart + s.scrubPeriod ≤ s.grain ∧ r = s.updDram fun d => { d with scrubStart := s.grain, scrubbed := [l.addr] }) →
        Acts (.scrubRead l .clean) s r ∧
        (∀ (i rank : Nat) (u : State), i < 160 → rank = l.channel * 2 + l.rank → s.lineAt l.addr ∉ s.dram.poison → s.dram.log = [] → s.inForce.remap ≠ 1 →
          mapGet? s.dram.failed rank = none → mapGet [] s.dram.lines (rank * 16 + i % 10) = [] → 1 < s.inForce.device →
          u = (r.updDram fun d => { d with corrected := inc64 d.corrected }).raiseLimited 144 0 0 0 (some 0x600)
            (fun n => eventData [(8, s.lineAt l.addr), (4, 1), (4, n)]) →
          Acts (.scrubRead l (.corrected [i])) s (u.updDram fun d => { d with
            lines := mapSet d.lines (rank * 16 + i % 10) [l.addr], tick := d.tick + 1, log := [(s.lineAt l.addr, 1, d.tick + 1)] })) ∧
        (∀ (o : LineOutcome) (u : State), (o = .uncorrectable ∨ ∃ p : List Nat, o = .corrected p ∧ s.correctable l p = false) →
          s.lineAt l.addr ∉ s.dram.poison → u = (r.updDram fun d => { d with
            uncorrectable := inc64 d.uncorrectable, poison := s.lineAt l.addr :: d.poison }).raise 149 0 0 0x604
              (eventData [(8, s.lineAt l.addr), (1, 4)]) →
          (l.slice = none → Acts (.scrubRead l o) s u) ∧
          (∀ n : Nat, l.slice = some n → ∃ t : State, Acts (.scrubRead l o) s t ∧ n ∈ t.index.heldSlices ∧
            t.dram.indexPoisoned = true ∧ t.dram.poison = u.dram.poison ∧
            (∀ k ∈ t.index.keys, s.lineAt (Config.bucketLine k.fp) = s.lineAt l.addr → k.poisoned = true) ∧ t.index.keys.length = s.index.keys.length)) ∧
        (s.lineAt l.addr ∉ s.dram.poison → Acts (.scrubRead l .poisonSignature) s (r.updDram fun d => { d with
          poisonReads := inc64 d.poisonReads, poison := s.lineAt l.addr :: d.poison })) ∧
        (∀ p : List Nat, (mapGet? s.dram.failed (l.channel * 2 + l.rank) = none → (s.correctable l p = true ↔ p.eraseDups.length ≤ 16)) ∧
          ∀ d : Nat, mapGet? s.dram.failed (l.channel * 2 + l.rank) = some d →
            (s.correctable l p = true ↔ (p.eraseDups.filter fun i => symbolDevice i != d).length ≤ 8))) ∧
      (∀ bank row : Nat, Acts (.glenScrub bank row .clean) s (((s.updGlen fun g => g.rewriteRow bank row).updDram fun d => { d with
          glenFixes := inc64 d.glenFixes }).raise 155 0 0 0x600 (eventData [(1, bank), (2, row)])) ∧
        Acts (.glenScrub bank row .doubleBit) s (s.sramRead 6 (bank * 65536 + row) .doubleBit) ∧
        ((∀ r : Rule, some r ∈ s.glen.nsTable ++ s.glen.accTable → r.valid = true ∧ r.move = false) →
          s.glen.rewriteRow bank row = s.glen))) ∧
    (s.cored = true → s.clocked = true → s.quiet = true → s.nextGrain < Config.maxGrain → StepAsked s .recorderFlushDone .recorder []) ∧
    (s.cored = true →
      (∀ (p : RecPage) (rest : List RecPage), s.terrace.sealed = p :: rest → s.host.power ≠ 3 →
        (s.terrace.pages.length < Config.recorderPages → s.terrace.pages.length + 1 ≠ Config.recorderWarn →
          s.terrace.pages.length + 1 ≠ Config.recorderPages → s.stepRun .recorder = s.updTerrace fun t => { t with
            sealed := rest, pages := t.pages ++ [p], anchorValid := true, anchorSeq := p.seqNo, anchorHash := p.hash }) ∧
        (Config.recorderPages ≤ s.terrace.pages.length → s.terrace.ring = false → s.stepRun .recorder = s) ∧
        (Config.recorderPages ≤ s.terrace.pages.length → s.terrace.ring = true → s.stepRun .recorder = s.updTerrace fun t => { t with
          sealed := rest, pages := t.pages.drop 1 ++ [p], ringDropped := inc64 t.ringDropped, anchorValid := true, anchorSeq := p.seqNo
          anchorHash := p.hash })) ∧
      (s.terrace.sealed = [] ∨ s.host.power = 3 → s.stepRun .recorder = s) ∧
      (s.settingsPending = true → Acts .settingsStore s (({ s.metaWrite 0 with stored := s.written }).updGorge fun g => { g with
        pages := g.pages.map fun (m, (p : KeyPage)) => (m, p.limits fun x => { x with kept := x.limit }) })) ∧
      (s.settingsPending = false → Acts .settingsStore s s) ∧
      (∀ h : Health, h = { s.delta.health with hours := s.delta.health.hours + 1 } →
        Acts .healthStore s ((s.metaWrite 32).updDelta fun d => { d with health := h, healthStored := h })))

/-! ## Time, the map and the pairs (R17 to R29, R181, R305 to R319, R411, R412) -/

/-- A Sync exchange with the master in use, on the port in use, gives one servo sample, and one with another master or on another port none.
The estimate goes into the state with the sample kept, the newest of 16. At or below the holdover limit the time is LOST with the nominal
increment, under source 19 once (log entry 104: the model's choice); beyond 1 ms, and forward before the counter is first set, a step is due,
and a LOCKED device beyond 1 ms is ACQUIRING; else the increment slews, within its bounds, but for a clock fault. LOCKED ends with the fourth
sample out of bound, ACQUIRING with the eighth in bound, and LOST is then relocked, once, with source 21. A master whose Sync or Delay_Req
interval leaves the supported range counts as absent, and is no master, until an exchange shows it within the range. -/
def Obligations.ServoSamples : Prop :=
  ∀ (s : State) (e : SyncExchange) (o : Int), s.cored = true →
    (syncInRange e = true ↔ -7 ≤ e.syncLog ∧ e.syncLog ≤ 0 ∧ -7 ≤ e.delayLog ∧ e.delayLog ≤ 0) ∧
    (s.ptpPort e.port = false → Acts (.syncReceive e) s s) ∧
    (s.ptpPort e.port = true → syncInRange e = false → ∃ t : State, Acts (.syncReceive e) s t ∧ (e.port, e.clock) ∈ t.time.absent ∧
      t.time.samples.length ≤ s.time.samples.length ∧ t.time.counter = s.time.counter ∧
      (∀ m : Master, e.port = s.time.config.timePort → s.time.mainMaster = some m → m.ann.clock = e.clock → s.time.backMaster = none →
        t.time.mainMaster = none ∧ t.time.inUse = 255 ∧ (s.time.quality = .locked → t.time.quality = .holdover)) ∧
      (∀ m : Master, e.port = s.time.config.timePort → s.time.mainMaster = some m → m.ann.clock ≠ e.clock → t.time.mainMaster = some m)) ∧
    (∀ u : State, s.ptpPort e.port = true → syncInRange e = true →
      u = s.updTime (fun t => { t with absent := t.absent.filter fun x => x != (e.port, e.clock) }) →
      (s.time.inUse ≠ e.port ∨ s.time.masterId ≠ e.clock → Acts (.syncReceive e) s u) ∧
      (s.time.inUse = e.port → s.time.masterId = e.clock →
        o = servoEstimate s.free (s.time.config.limit * 1000 : Nat) ((e.raw :: s.time.samples).take 16) e.raw →
      ∃ t : State, Acts (.syncReceive e) s t ∧ t.time.offset = o ∧ t.time.samples = (e.raw :: s.time.samples).take 16 ∧ t.free = s.free + 1 ∧
        t = { s with time := t.time, events := t.events, terrace := t.terrace, free := t.free } ∧ t.time.absent = u.time.absent ∧
        t.time.counter = s.time.counter ∧ t.time.config = s.time.config ∧ t.time.isSet = s.time.isSet ∧
        (o ≤ -(s.time.config.limit * 1000 : Nat) → t.time.quality = .lost ∧ t.time.increment = Config.nominalIncrement ∧ t.time.stepDue = none ∧
          t.time.inBound = 0 ∧ (s.time.quality ≠ .lost ∨ -(s.time.config.limit * 1000 : Nat) < s.time.offset →
            ({ fn := 0, source := 19, stamp := 0, data := eventData [(4, ns32 o)] } : Raise) ∈ t.events.raises) ∧
          (s.time.quality = .lost → s.time.offset ≤ -(s.time.config.limit * 1000 : Nat) → t.events = s.events)) ∧
        (-(s.time.config.limit * 1000 : Nat) < o →
          (-250 ≤ o → o ≤ 250 → t.time.inBound = s.time.inBound + 1 ∧ t.time.outBound = 0) ∧
          (250 < o ∨ o < -250 → t.time.inBound = 0 ∧ t.time.outBound = s.time.outBound + 1) ∧
          (s.time.clkFault = true → t.time.increment = s.time.increment ∧ t.time.stepDue = s.time.stepDue) ∧
          (s.time.clkFault = false → 1000000 < o ∨ s.time.isSet = false ∧ 0 < o → t.time.stepDue = some o ∧
            t.time.increment = s.time.increment) ∧
          (s.time.clkFault = false → o ≤ 1000000 → s.time.isSet = true ∨ o ≤ 0 → t.time.stepDue = none ∧
            t.time.increment = servoIncrement (s.free + 1) o ∧ Config.minIncrement ≤ t.time.increment ∧
            t.time.increment ≤ Config.maxIncrement ∧ (250 < o → t.time.increment = Config.maxIncrement) ∧
            (o < -250 → t.time.increment = Config.minIncrement)) ∧
          (s.time.quality = .locked → t.time.quality = (if 1000000 < o ∨ 4 ≤ t.time.outBound then .acquiring else .locked)) ∧
          (s.time.quality = .acquiring → t.time.quality = (if 8 ≤ t.time.inBound ∧ s.time.isSet = true then .locked else .acquiring)) ∧
          (s.time.quality ≠ .locked → s.time.quality ≠ .acquiring → t.time.quality = s.time.quality) ∧
          (s.time.quality = .lost → s.time.relocked = false → s.time.clkFault = false → 8 ≤ t.time.inBound → t.time.relocked = true ∧
            ({ fn := 0, source := 21, stamp := 0, data := eventData [(4, ns32 o)] } : Raise) ∈ t.events.raises))))

/-- Steps, masters, PPS, the time base and holdover. A forward step that is due takes place at the edge that ends its grain and sets the
counter on from where the next grain begins, with source 18 and the skipped grains counted; none is due, nothing happens; past 52 bits of
grains the step faults. Announces choose and renew masters, receipt timeouts lose them, with source 17 at a switch of ports, and the time
port's master takes time back after 16 intervals; Pdelay_Req are answered with the turnaround in the correction field, and Delay_Req leave;
PPS_IN edges sample the counter, a missing one raises source 26; PPS_OUT rises at a whole second and falls 1 ms later; a clock fault declares
LOST at once with source 20, kept for REBUILD while the cores do not run; holdover raises source 23 once past half its limit, and ends in
LOST at it. -/
def Obligations.TimeReferences : Prop :=
  ∀ s : State,
    (s.time.stepDue = none ∨ s.cored = false → exec .timeStep s = .next s) ∧
    (∀ d : Int, s.cored = true → s.time.stepDue = some d → s.nextGrain < Config.maxGrain →
      exec .timeStep s = .next (s.keepQueue s.grainEdge)) ∧
    (∀ d : Int, s.cored = true → s.time.stepDue = some d → Config.maxGrain ≤ s.nextGrain → exec .timeStep s = .fault .grainNumberExhausted) ∧
    (s.mode.running = true → s.passEdge s.grain = (s.runTo (s.grain + 1)).applyStep s.grain) ∧
    (∀ (d : Int) (g : Nat), s.time.stepDue = some d → 0 < d →
      (s.applyStep g).time.counter = s.time.counter + d.toNat * Config.nsUnit ∧ (s.applyStep g).time.isSet = true ∧
      (s.applyStep g).time.stepDue = none ∧ (s.applyStep g).time.offset = 0 ∧ (s.applyStep g).time.increment = Config.nominalIncrement ∧
      (s.applyStep g).time.skipped = satAdd max64 s.time.skipped ((s.applyStep g).grain - g - 1) ∧
      ({ fn := 0, source := 18, stamp := 0, data := eventData [(8, g), (8, (s.applyStep g).grain)] } : Raise) ∈ (s.applyStep g).events.raises) ∧
    (s.cored = true → ∀ (a : Announce) (good : Bool), good = (announceGood a && !s.time.absent.contains (a.port, a.clock)) →
      (announceGood a = true ↔ -3 ≤ a.logInterval ∧ a.logInterval ≤ 1 ∧ a.arb = false) ∧
      (s.ptpPort a.port = false ∨ a.domain ≠ s.time.config.domain → Acts (.announceReceive a) s s) ∧
      (s.ptpPort a.port = true → a.domain = s.time.config.domain → a.port = s.time.config.timePort → s.time.backMaster = none → ∃ t : State,
        Acts (.announceReceive a) s t ∧ t.time.mainMaster = masterAfter s.time.mainMaster a good s.localUs ∧ t.time.backMaster = none ∧
        (t.time.mainMaster = none → t.time.inUse = 255 ∧ t.time.masterId = 0) ∧
        (∀ m, t.time.mainMaster = some m → t.time.inUse = a.port ∧ t.time.masterId = m.ann.clock) ∧
        (s.time.mainMaster = none → good = true → s.time.quality = .unlocked ∨ s.time.quality = .holdover → t.time.quality = .acquiring) ∧
        (∀ m, s.time.mainMaster = some m → m.ann.clock = a.clock → good = false → s.time.quality = .locked →
          t.time.quality = .holdover ∧ t.time.uncBase = 250 ∧ t.time.uncAt = s.nowNs ∧ t.time.increment = Config.nominalIncrement))) ∧
    (∀ (m : Option Master) (a : Announce) (now : Nat),
      (masterAfter none a true now = some { ann := a, since := now, last := now } ∧ masterAfter none a false now = none) ∧
      (∀ b : Master, m = some b → (b.ann.clock = a.clock → masterAfter m a false now = none ∧
          masterAfter m a true now = some { b with ann := a, count := b.count + 1, last := now }) ∧
        (b.ann.clock ≠ a.clock → masterAfter m a false now = m ∧ (a.rank < b.ann.rank → masterAfter m a true now =
          some { ann := a, since := now, last := now }) ∧ (b.ann.rank ≤ a.rank → masterAfter m a true now = m)))) ∧
    (s.cored = true → ∀ (p : Nat) (m b : Master), s.time.config.source = 0 → s.masterOf p = some m →
      (s.localUs < m.last + 3 * announceUs m.ann → Acts (.announceReceiptTimeout p) s s) ∧
      (m.last + 3 * announceUs m.ann ≤ s.localUs → p = s.time.config.timePort → s.time.config.backup ≠ p → p ≠ 255 →
        s.time.config.backup ≠ 255 → s.time.inUse = p → s.time.backMaster = some b → ∃ t : State, Acts (.announceReceiptTimeout p) s t ∧
          t.time.mainMaster = none ∧ t.time.inUse = s.time.config.backup ∧ t.time.masterId = b.ann.clock ∧ t.time.quality = s.time.quality ∧
          ({ fn := 0, source := 17, stamp := 0, data := eventData [(1, p), (1, s.time.config.backup), (8, b.ann.clock.toNat)] } : Raise) ∈
            t.events.raises) ∧
      (m.last + 3 * announceUs m.ann ≤ s.localUs → p = s.time.config.timePort → s.time.config.backup ≠ p → s.time.backMaster = none →
        s.time.quality = .locked → ∃ t : State, Acts (.announceReceiptTimeout p) s t ∧ t.time.mainMaster = none ∧ t.time.inUse = 255 ∧
          t.time.quality = .holdover)) ∧
    (s.cored = true → ∀ p : Nat, s.time.config.source ≠ 0 ∨ s.masterOf p = none → Acts (.announceReceiptTimeout p) s s) ∧
    (s.cored = true → ∀ m : Master, s.time.config.source = 0 → s.time.inUse = s.time.config.backup → s.time.config.backup ≠ 255 →
      s.time.config.backup ≠ s.time.config.timePort → s.time.mainMaster = some m →
      (s.localUs < m.since + 16 * announceUs m.ann → Acts .timePortReturn s s) ∧
      (m.since + 16 * announceUs m.ann ≤ s.localUs → ∃ t : State, Acts .timePortReturn s t ∧ t.time.inUse = s.time.config.timePort ∧
        t.time.masterId = m.ann.clock ∧ (s.time.config.timePort ≠ 255 → ∀ d : BitVec 128,
          d = eventData [(1, s.time.config.backup), (1, s.time.config.timePort), (8, m.ann.clock.toNat)] →
          ({ fn := 0, source := 17, stamp := 0, data := d } : Raise) ∈ t.events.raises))) ∧
    (s.cored = true → s.time.config.source ≠ 0 ∨ s.time.inUse ≠ s.time.config.backup ∨ s.time.mainMaster = none → Acts .timePortReturn s s) ∧
    (s.cored = true → ∀ p : Nat,
      (∀ (rx tx c : Nat) (req : BitVec 80) (q : BitVec 16),
        (s.ptpPort p = true → Acts (.pdelayReqReceive p rx tx c req q) s (s.ptpSend p true
          (ptpBytes 3 s.time.config.domain (c + (tx - rx) * 65536) p q (zeros 10 ++ beBytes 10 req.toNat)))) ∧
        (s.ptpPort p = false → Acts (.pdelayReqReceive p rx tx c req q) s s)) ∧
      (∀ u : State, u = s.updPort p (fun x => { x with ptpSeq := x.ptpSeq + 1 }) → s.ptpPort p = true →
        (s.time.config.delay = 1 → Acts (.delayReqSend p) s
          (u.ptpSend p true (ptpBytes 2 s.time.config.domain 0 p (s.port p).ptpSeq (zeros 20)))) ∧
        (s.time.config.delay ≠ 1 → s.time.inUse = p → Acts (.delayReqSend p) s
          (u.ptpSend p false (ptpBytes 1 s.time.config.domain 0 p (s.port p).ptpSeq (zeros 10)))) ∧
        (s.time.config.delay ≠ 1 → s.time.inUse ≠ p → Acts (.delayReqSend p) s s)) ∧
      (s.ptpPort p = false → Acts (.delayReqSend p) s s)) ∧
    (s.cored = true → s.time.config.source = 1 → ∀ ns now : Nat, now = s.nowNs + ns % 1000 →
      (∀ sec : Nat, s.time.todPending = some sec → s.time.quality = .lost → Acts (.ppsInEdge ns) s (({ s with time := { s.time with
        todPending := none, todApplied := true, refSecond := sec, ppsLast := now, ppsMissing := false
        inBound := if s.time.refValid then s.time.inBound else 0, outBound := if s.time.refValid then s.time.outBound else 0
        samples := if s.time.refValid then s.time.samples else [] } }).servoSample ((sec : Int) * 1000000000 - (now : Int)))) ∧
      (s.time.todPending = none → s.time.todApplied = false → Acts (.ppsInEdge ns) s { s with time := { s.time with
        refSecond := s.time.refSecond + (if s.time.ppsMissing then max 1 ((now - s.time.ppsLast + 500000000) / 1000000000) else 1)
        ppsLast := now, ppsMissing := false } }) ∧
      (s.time.todPending = none → s.time.todApplied = true → s.time.ppsMissing = false → Acts (.ppsInEdge ns) s (({ s with time := { s.time with
        refSecond := s.time.refSecond + 1, ppsLast := now } }).servoSample (((s.time.refSecond + 1 : Nat) : Int) * 1000000000 - (now : Int)))) ∧
      (s.time.ppsLast ≠ 0 → s.time.ppsMissing = false → s.time.ppsLast + 1001000000 ≤ s.nowNs → s.time.todApplied = false →
        Acts .ppsInMissing s ((s.raise 26 0 0 0x103 (eventData [(8, s.time.ppsLast / 1000)])).updTime fun t => { t with ppsMissing := true })) ∧
      (s.time.ppsLast = 0 ∨ s.time.ppsMissing = true ∨ s.nowNs < s.time.ppsLast + 1001000000 → Acts .ppsInMissing s s)) ∧
    (s.cored = true → s.time.config.source ≠ 1 → Acts .ppsInMissing s s ∧ ∀ ns : Nat, Acts (.ppsInEdge ns) s s) ∧
    (s.clocked = true → ∀ sec : Nat, sec = s.nowNs / 1000000000 * 1000000000 →
      (s.time.ppsOutAt < sec → Acts .ppsOutEdge s { s with time := { s.time with
        ppsOutAt := sec, ppsOut := decide (s.nowNs < sec + 1000000) } }) ∧
      (sec ≤ s.time.ppsOutAt → s.time.ppsOut = true → s.time.ppsOutAt + 1000000 ≤ s.nowNs →
        Acts .ppsOutEdge s { s with time := { s.time with ppsOut := false } }) ∧
      (sec ≤ s.time.ppsOutAt → s.time.ppsOut = false ∨ s.nowNs < s.time.ppsOutAt + 1000000 → Acts .ppsOutEdge s s)) ∧
    (s.powered = true → ∀ ppm : Int, (ppm.natAbs ≤ 10000 ∨ s.time.clkFault = true → Acts (.timebaseClkFault ppm) s s) ∧
      (10000 < ppm.natAbs → s.time.clkFault = false → ∃ t : State, Acts (.timebaseClkFault ppm) s t ∧ t.time.clkFault = true ∧
        t.time.quality = .lost ∧ t.time.increment = Config.nominalIncrement ∧ t.time.stepDue = none ∧ t.time.uncBase = s.time.uncertainty ∧
        t.time.ppm = ppm ∧ t.time.relocked = false ∧ t.time.counter = s.time.counter ∧
        (s.mode.running = true →
          ({ fn := 0, source := 20, stamp := 0, data := eventData [(4, ns32 (ppm / 100))] } : Raise) ∈ t.events.raises) ∧
        (s.mode.running = false → (20, 0x103, eventData [(4, ns32 (ppm / 100))]) ∈ t.update.later))) ∧
    (s.cored = true → s.time.quality = .holdover →
      (s.time.halfRaised = false → s.time.config.limit * 500 < s.time.uncertainty → Acts .holdoverHalf s
        (({ s with time := { s.time with halfRaised := true } }).raise 23 0 0 0x100
          (eventData [(4, ns32 s.time.uncertainty), (4, s.time.config.limit)]))) ∧
      (s.time.halfRaised = true ∨ s.time.uncertainty ≤ s.time.config.limit * 500 → Acts .holdoverHalf s s) ∧
      (s.time.config.limit * 1000 ≤ s.time.uncertainty → Acts .holdoverLimitReached s (s.setQuality .lost 0) ∧
        (s.setQuality .lost 0).time.quality = .lost ∧
        ∀ d : BitVec 128, d = eventData [(1, Quality.code .holdover), (1, Quality.code .lost), (4, ns32 s.time.offset), (4, ns32 s.time.uncertainty)] →
          ({ fn := 0, source := 16, stamp := 0, data := d } : Raise) ∈ (s.setQuality .lost 0).events.raises) ∧
      (s.time.uncertainty < s.time.config.limit * 1000 → Acts .holdoverLimitReached s s)) ∧
    (s.cored = true → s.time.quality ≠ .holdover → Acts .holdoverHalf s s ∧ Acts .holdoverLimitReached s s)

/-- Map datagrams. A worker discards one with its cause, counts and reports it; takes one of its own epoch as a refresh; gathers a newer
map's fragments, whose last one makes the map whole for its adoption's stamp, at which it takes effect. The manager answers a REQUEST, at
most 100 a second and port, and publishes every second. A gathering that is not whole after 2 s goes with cause 5; a worker without word for
5 s says so once, under source 193. -/
def Obligations.MapDatagrams : Prop :=
  ∀ (s : State) (d : MapDatagram) (id : Identity) (row : Bool → Instr), s.cored = true → row = Instr.mapPublishReceive d →
    s.cluster.identity = some id →
    (s.cluster.role ≠ .worker ∨ d.type = 2 → Arrives row s s) ∧
    (s.cluster.role = .worker → d.type ≠ 2 →
      (∀ cause : Nat, (d.crcOk = false ∧ cause = 1 ∨
          d.crcOk = true ∧ ((d.type ≠ 1 ∧ d.type ≠ 3) ∨ mapDatagramGood d = false) ∧ cause = 2 ∨
          d.crcOk = true ∧ (d.type = 1 ∨ d.type = 3) ∧ mapDatagramGood d = true ∧ (d.srcIp ≠ id.address ∨ d.manager ≠ id.manager) ∧ cause = 3 ∨
          d.crcOk = true ∧ (d.type = 1 ∨ d.type = 3) ∧ mapDatagramGood d = true ∧ d.srcIp = id.address ∧ d.manager = id.manager ∧
            d.epoch < s.cluster.epoch ∧ cause = 4) → ∃ t : State, Arrives row s t ∧ t.cluster.discards = bump s.cluster.discards cause ∧
          t = { s with cluster := { s.cluster with discards := t.cluster.discards }, events := t.events, terrace := t.terrace }) ∧
      (d.crcOk = true → d.type = 1 ∨ d.type = 3 → mapDatagramGood d = true → d.srcIp = id.address → d.manager = id.manager →
        (d.epoch = s.cluster.epoch → Arrives row s { s with cluster := { s.cluster with refreshed := s.localUs, silent := false } }) ∧
        (s.cluster.epoch < d.epoch → d.count ≠ 0 → d.epoch = s.cluster.gatherEpoch → ∀ held : NatMap Bytes,
          held = mapSet s.cluster.gathered d.fragment d.payload →
          (held.length ≠ 64 → Arrives row s { s with cluster := { s.cluster with gatherStamp := d.mapStamp, gathered := held } }) ∧
          (held.length = 64 → Arrives row s { s with
            cluster := { s.cluster with
              gatherEpoch := 0, gatherAt := 0, gatherStamp := 0, gathered := [], whole := some (d.epoch, d.mapStamp, held) }
            col := { s.col with intake := s.col.intake ++ [.mapAdopt d.epoch] } }) ∧
          (held.length = 64 → s.quiet = true → s.nextGrain < Config.maxGrain → ∃ t : State, Executes (row true) s t ∧ t.cluster.epoch = d.epoch ∧
            t.cluster.mapStamp = d.mapStamp ∧ t.cluster.adopt = stampOf s.grain 0 ∧ t.cluster.whole = none ∧ t.cluster.refreshed = s.localUs ∧
            t.cluster.owners = (sliceWords (zeros 0x40 ++ held.flatMap Prod.snd)).zipIdx.map (fun x => (x.2, x.1 % 1024)) ∧
            ({ fn := 0, source := 192, stamp := stampOf s.grain 0, data := eventData [(1, 1), (4, d.epoch), (2, id.manager)] } : Raise) ∈
              t.events.raises)))) ∧
    (s.cluster.role = .manager →
      (d.crcOk = false → Acts (.mapRequestReceive d) s (s.mapDiscard 1 d id.v6)) ∧
      (d.crcOk = true → d.magic = 0x4C4D → d.version = 1 → d.type = 2 → d.count = 0 → d.fragment = 0 → d.payLen = 0 → d.mapStamp = 0 →
        d.reserved = 0 → s.localUs < s.cluster.reqAt + 1000000 →
        (100 ≤ mapGet 0 s.cluster.reqs d.port → Acts (.mapRequestReceive d) s { s with cluster := { s.cluster with dropped := inc64 s.cluster.dropped } }) ∧
        (mapGet 0 s.cluster.reqs d.port < 100 → d.epoch = s.cluster.epoch → Acts (.mapRequestReceive d) s (({ s with
          cluster := { s.cluster with reqs := bump s.cluster.reqs d.port, answered := inc64 s.cluster.answered } }).sendMap id
            (((s.wire.neighbours.find? fun (e : BitVec 128 × BitVec 48) => e.1 = d.srcIp).map Prod.snd).getD 0) (d.srcIp, d.srcPort.toNat) 0
            (mapDatagram 3 s.cluster.epoch id.device 0 0 s.cluster.mapStamp []))) ∧
        (mapGet 0 s.cluster.reqs d.port < 100 → d.epoch ≠ s.cluster.epoch → Acts (.mapRequestReceive d) s (({ s with
          cluster := { s.cluster with reqs := bump s.cluster.reqs d.port, answered := inc64 s.cluster.answered } }).sendFragments id 3
            (((s.wire.neighbours.find? fun (e : BitVec 128 × BitVec 48) => e.1 = d.srcIp).map Prod.snd).getD 0) (d.srcIp, d.srcPort.toNat) 0))) ∧
      (s.localUs < s.cluster.publishedAt + 1000000 → Acts .mapPublishTimer s s) ∧
      (s.cluster.publishedAt + 1000000 ≤ s.localUs → s.cluster.epoch ≠ 0 → Acts .mapPublishTimer s
        ((s.sendFragments id 1 (groupMac id.v6 id.group) (id.group, id.udp) 1).updCluster fun c => { c with publishedAt := s.localUs }))) ∧
    (s.cluster.gatherEpoch = 0 ∨ s.localUs < s.cluster.gatherAt + 2000000 → Acts .mapGatherTimeout s s) ∧
    (s.cluster.gatherEpoch ≠ 0 → s.cluster.gatherAt + 2000000 ≤ s.localUs → ∃ t : State, Acts .mapGatherTimeout s t ∧
      t.cluster = { s.cluster with discards := bump s.cluster.discards 5, gatherEpoch := 0, gatherStamp := 0, gatherAt := 0, gathered := [] }) ∧
    (s.cluster.role = .worker → s.cluster.epoch ≠ 0 → s.cluster.refreshed + 5000000 ≤ s.localUs →
      (s.cluster.silent = false → Acts .mapSilenceTimeout s
        (({ s with cluster := { s.cluster with silent := true } }).raise 193 0 0 0x800 (eventData [(4, s.cluster.epoch)]))) ∧
      (s.cluster.silent = true → Acts .mapSilenceTimeout s s))

/-- The source's side of a pair. Its row asks for a step that copies: every needed version below its start in order, within 1,024 open
applies and the copy rate, ending with COPY_DONE; it proposes its cutover once that is applied and time is LOCKED; at the stamp of the target's answer SUCCESS
commits it, a refusal goes back to copying with twice the lead, and the sixteenth fails the pair; MARK leaves once all below the cutover is
done, and its completion moves the slices at its stamp; a frame of the target acknowledges, grants and completes messages at its stamp, a
failed APPLY failing the pair, a PING is answered and a NAK for want of credit, room or a segment has its message sent again; a message
unanswered for 1 s fails the pair, or leaves it UNCERTAIN. -/
def Obligations.PairSource : Prop :=
  ∀ (s : State) (n : Nat) (p : Pair), s.cored = true → s.pair? n = some p →
    (s.clocked = true → s.quiet = true → s.nextGrain < Config.maxGrain → ∀ reads : List CodewordOutcome, StepAsked s (.bulkCopyStep n reads) (.copy n) reads) ∧
    (p.target = false → p.walkDone = false → p.state = .copying → s.copyAhead p = false →
      (p.waiting.filter fun m => m.kind = 1 && !m.acked).length + p.toSend.length < Config.maxWaitingApplies →
      (s.copyNext p = none → s.stepRun (.copy n) = (s.updPair n fun p => { p with walkDone := true }).peerQueue n (plainMsg 3 p.t0)) ∧
      (∀ (k : KeyEntry) (v : Version), s.copyNext p = some (k, v) → s.stepRun (.copy n) = (s.updPair n fun p => { p with
        cursor := some (k.fp, k.ns, k.key, v.stamp)
        copied := satAdd max64 p.copied (256 * recordUnits k.key.length ((copyMsg k v).area.length - k.key.length)) }).peerQueue n
          (copyMsg k v))) ∧
    (p.target = true ∨ p.walkDone = true ∨ p.state ≠ .copying ∨ s.copyAhead p = true ∨
      Config.maxWaitingApplies ≤ (p.waiting.filter fun m => m.kind = 1 && !m.acked).length + p.toSend.length → s.stepRun (.copy n) = s) ∧
    (p.target = false → p.kind ≠ 2 → p.state = .copying → p.copyDone = true → ((p.waiting ++ p.toSend).filter fun m => m.kind = 1).length < 1024 →
      s.time.quality = .locked → Acts (.proposeSend n) s (((s.updPair n fun p => { p with
        state := .proposed, cutover := s.grain + p.lead, proposeSent := true }).metaWrite 0).peerQueue n (plainMsg 4 ((s.grain + p.lead) * 4096)))) ∧
    (p.target = true ∨ p.kind = 2 ∨ p.state ≠ .copying ∨ p.copyDone = false ∨ s.time.quality ≠ .locked → Acts (.proposeSend n) s s) ∧
    (∀ x : State, s.clocked = true → s.quiet = true → s.nextGrain < Config.maxGrain → x = atSlotZero s →
      (p.target = false → p.state = .proposed → (p.waiting.any fun m => m.kind = 4) = true → ∀ u : State,
        u = x.updPair n (fun p => { p with waiting := p.waiting.filter fun m => m.kind != 4 }) →
        Executes (.proposeCompletion n 0 true) s ((u.updPair n fun p => { p with state := .committed }).metaWrite 0) ∧
        (∀ code : Nat, code ≠ 0 → p.refusals < 15 → Executes (.proposeCompletion n code true) s ((u.updPair n fun p => { p with
          state := .copying, cutover := 0, proposeSent := false, refusals := p.refusals + 1, lead := min 1000000 (2 * p.lead) }).metaWrite 0)) ∧
        (∀ code : Nat, code ≠ 0 → 15 ≤ p.refusals → ∃ t : State, Executes (.proposeCompletion n code true) s t ∧ t.pair? n = none ∧
          ({ fn := 0, source := 197, stamp := 0, data := eventData [(1, n), (1, 0), (1, 4)] } : Raise) ∈ t.events.raises)) ∧
      (p.target = true ∨ p.state ≠ .proposed ∨ (p.waiting.any fun m => m.kind = 4) = false → ∀ code : Nat,
        Executes (.proposeCompletion n code true) s x) ∧
      (p.target = true ∨ p.state ≠ .committed ∨ p.markSent = false → Executes (.markCompletion n true) s x) ∧
      (p.target = false → p.state = .committed → p.markSent = true → ∃ t : State, Executes (.markCompletion n true) s t ∧ t.pair? n = none ∧
        t.cluster.drops = s.cluster.drops ++ [(p.slices, p.cutover * 4096)] ∧
        t.cluster.overrides = p.slices.foldl (fun m i => mapSet m i (p.peer, s.cluster.epoch)) s.cluster.overrides ∧
        ({ fn := 0, source := 196, stamp := 0, data := eventData [(1, n), (8, p.cutover), (1, 0)] } : Raise) ∈ t.events.raises) ∧
      (∀ f : PeerFrame, f.pair = n →
        (p.target = true ∨ f.valid = false → Executes (.peerSessionFrameReceive f true) s x) ∧
        (p.target = false → f.valid = true → p.toSend = [] → f.type = 3 → Executes (.peerSessionFrameReceive f true) s (x.updPair n fun p => { p with
          credit := if seqLt p.credit f.credit then f.credit else p.credit
          waiting := p.waiting.map fun m => { m with acked := m.acked || seqLe m.seqNo f.ack || m.seqNo = f.seq } })) ∧
        (∀ u : State, p.target = false → f.valid = true → p.toSend = [] → f.type ≠ 3 → u = x.updPair n (fun p => { p with
            credit := if seqLt p.credit f.credit then f.credit else p.credit
            waiting := p.waiting.map fun m => { m with acked := m.acked || seqLe m.seqNo f.ack } }) →
          (f.type = 6 → Executes (.peerSessionFrameReceive f true) s (u.peerFrame p 7 false 0 0 0 (padTo 8 f.payload ++ beBytes 8 s.nowNs))) ∧
          (∀ m : PeerMsg, f.type = 5 → f.status = 1 ∨ f.status = 4 ∨ f.status = 5 → p.waiting.find? (fun m => m.seqNo = f.seq) = some m →
            Executes (.peerSessionFrameReceive f true) s (u.peerRequest p m)) ∧
          (f.type = 5 → f.status ≠ 1 → f.status ≠ 4 → f.status ≠ 5 → Executes (.peerSessionFrameReceive f true) s u) ∧
          (f.type = 4 ∨ f.type = 7 → Executes (.peerSessionFrameReceive f true) s u)) ∧
        (∀ m : PeerMsg, p.target = false → f.valid = true → p.toSend = [] → f.type = 2 → (p.waiting.find? fun m => m.seqNo = f.seq && m.kind ≤ 3) = some m →
          ∀ u : State, u = x.updPair n (fun p => { p with
            credit := if seqLt p.credit f.credit then f.credit else p.credit
            waiting := (p.waiting.map fun m => { m with acked := m.acked || seqLe m.seqNo f.ack }).filter fun x => x.seqNo != f.seq }) →
          (m.kind = 1 → f.status = 0 → Executes (.peerSessionFrameReceive f true) s (u.updPair n fun p => { p with applied := inc64 p.applied })) ∧
          (m.kind = 1 → f.status ≠ 0 → p.state = .copying → ∃ t : State, Executes (.peerSessionFrameReceive f true) s t ∧ t.pair? n = none ∧
            ({ fn := 0, source := 197, stamp := 0, data := eventData [(1, n), (1, 0), (1, 3)] } : Raise) ∈ t.events.raises) ∧
          (m.kind = 3 → f.status ≠ 0 → Executes (.peerSessionFrameReceive f true) s u) ∧
          (m.kind = 3 → f.status = 0 → Executes (.peerSessionFrameReceive f true) s ((u.updPair n fun p => { p with
            copyDone := true, state := if p.kind = 2 then .comparing else p.state }).metaWrite 0))))) ∧
    (p.target = false → p.state = .committed → p.markSent = false → p.waiting = [] → p.toSend = [] → s.works = [] → p.cutover ≤ s.grain →
      Acts (.markSend n) s ((s.updPair n fun p => { p with markSent := true }).peerQueue n (plainMsg 5 (p.cutover * 4096)))) ∧
    (p.target = true ∨ p.state ≠ .committed ∨ p.markSent = true ∨ s.grain < p.cutover → Acts (.markSend n) s s) ∧
    (p.target = false → (p.waiting.any fun m => !m.acked && decide (m.sentAt + 1000000 ≤ s.grain)) = true →
      (p.state = .copying ∨ p.state = .comparing → ∃ t : State, Acts (.peerLost n) s t ∧ t.pair? n = none ∧
        ({ fn := 0, source := 197, stamp := 0, data := eventData [(1, n), (1, 0), (1, 2)] } : Raise) ∈ t.events.raises ∧
        (s.cluster.pairs = [p] → s.mode = .paired → t.mode = (if s.delta.sealed then .sealed else .service))) ∧
      (p.state = .proposed ∨ p.state = .committed → Acts (.peerLost n) s (((s.updPair n fun p => { p with
        state := .uncertain, failed := none, waiting := [], toSend := [] }).pairEvent p 5 2 0).metaWrite 0))) ∧
    (p.target = false → (∀ m ∈ p.waiting, m.acked = true ∨ s.grain < m.sentAt + 1000000) → Acts (.peerLost n) s s) ∧
    (∀ (seq : BitVec 32) (m : PeerMsg), (p.waiting.find? fun m => m.seqNo = seq) = some m →
      Acts (.pairMessageRetransmit n seq) s (s.peerRequest p m)) ∧
    (∀ seq : BitVec 32, (p.waiting.find? fun m => m.seqNo = seq) = none → Acts (.pairMessageRetransmit n seq) s s)
end

