-- ==== Sys2Proof/Laws/Data.lean ====
section
/-! SUPPORT. Laws of the finite maps and of the SPI NOR's byte memory: the canonical form is kept, a read after a write gives what was
written, and a write leaves every other place alone. -/

namespace Sys2Proof

variable {α : Type}

theorem mapSorted_cons (a : Nat) (v : α) (m : NatMap α) :
    mapSorted ((a, v) :: m) = true ↔ (∀ e ∈ m, a < e.1) ∧ mapSorted m = true := by
  induction m generalizing a v with
  | nil => simp [mapSorted]
  | cons e m ih =>
    obtain ⟨b, w⟩ := e
    simp only [mapSorted, Bool.and_eq_true, decide_eq_true_eq, List.mem_cons, forall_eq_or_imp]
    constructor
    · rintro ⟨h, hs⟩
      exact ⟨⟨h, fun e he => lt_trans h (((ih b w).1 hs).1 e he)⟩, hs⟩
    · rintro ⟨⟨h, _⟩, hs⟩
      exact ⟨h, hs⟩

/-- A key set keeps every other entry and adds its own. -/
theorem mem_mapSet {m : NatMap α} {n : Nat} {v : α} {e : Nat × α} (h : e ∈ mapSet m n v) : e = (n, v) ∨ e ∈ m := by
  induction m with
  | nil => simpa [mapSet] using h
  | cons x m ih =>
    obtain ⟨k, w⟩ := x
    simp only [mapSet] at h
    split at h
    · simpa using h
    · split at h
      · rcases List.mem_cons.1 h with h | h
        · exact .inl h
        · exact .inr (List.mem_cons_of_mem _ h)
      · rcases List.mem_cons.1 h with h | h
        · exact .inr (h ▸ List.mem_cons_self ..)
        · exact (ih h).imp_right (List.mem_cons_of_mem _)

theorem mem_mapErase {m : NatMap α} {n : Nat} {e : Nat × α} (h : e ∈ mapErase m n) : e ∈ m := by
  induction m with
  | nil => simp [mapErase] at h
  | cons x m ih =>
    obtain ⟨k, w⟩ := x
    simp only [mapErase] at h
    split at h
    · exact List.mem_cons_of_mem _ h
    · rcases List.mem_cons.1 h with h | h
      · exact h ▸ List.mem_cons_self ..
      · exact List.mem_cons_of_mem _ (ih h)

theorem mapSorted_mapSet (m : NatMap α) (n : Nat) (v : α) (h : mapSorted m = true) : mapSorted (mapSet m n v) = true := by
  induction m with
  | nil => simp [mapSet, mapSorted]
  | cons x m ih =>
    obtain ⟨k, w⟩ := x
    obtain ⟨hk, hs⟩ := (mapSorted_cons k w m).1 h
    simp only [mapSet]
    split
    · next hn => exact (mapSorted_cons ..).2 ⟨fun e he => by
        rcases List.mem_cons.1 he with he | he
        · subst he; exact hn
        · exact lt_trans hn (hk e he), h⟩
    · next hn =>
      split
      · next he => subst he; exact (mapSorted_cons ..).2 ⟨hk, hs⟩
      · next he =>
        refine (mapSorted_cons ..).2 ⟨fun e h' => ?_, ih hs⟩
        rcases mem_mapSet h' with h' | h'
        · subst h'; show k < n; omega
        · exact hk e h'

theorem mapSorted_mapErase (m : NatMap α) (n : Nat) (h : mapSorted m = true) : mapSorted (mapErase m n) = true := by
  induction m with
  | nil => rfl
  | cons x m ih =>
    obtain ⟨k, w⟩ := x
    obtain ⟨hk, hs⟩ := (mapSorted_cons k w m).1 h
    simp only [mapErase]
    split
    · exact hs
    · exact (mapSorted_cons ..).2 ⟨fun e he => hk e (mem_mapErase he), ih hs⟩

theorem mapSorted_filter (m : NatMap α) (p : Nat × α → Bool) (h : mapSorted m = true) : mapSorted (m.filter p) = true := by
  induction m with
  | nil => rfl
  | cons x m ih =>
    obtain ⟨k, w⟩ := x
    obtain ⟨hk, hs⟩ := (mapSorted_cons k w m).1 h
    simp only [List.filter]
    split
    · exact (mapSorted_cons ..).2 ⟨fun e he => hk e (List.mem_of_mem_filter he), ih hs⟩
    · exact ih hs

/-- A key below every key of a map is not in it. -/
theorem mapGet?_below {m : NatMap α} {n : Nat} (h : ∀ e ∈ m, n < e.1) : mapGet? m n = none := by
  cases m with
  | nil => rfl
  | cons x m =>
    have := h x (List.mem_cons_self ..)
    simp only [mapGet?]
    rw [if_neg (by omega), if_pos this]

theorem mapGet?_mapSet (m : NatMap α) (n k : Nat) (v : α) :
    mapGet? (mapSet m n v) k = if k = n then some v else mapGet? m k := by
  induction m with
  | nil =>
    simp only [mapSet, mapGet?]
    by_cases hk : k = n
    · simp [hk]
    · rw [if_neg (Ne.symm hk), if_neg hk]; split <;> rfl
  | cons x m ih =>
    obtain ⟨j, w⟩ := x
    simp only [mapSet]
    split
    · next hn =>
      simp only [mapGet?]
      by_cases hk : k = n
      · simp [hk]
      · rw [if_neg (Ne.symm hk), if_neg hk]
        split
        · rw [if_neg (by omega), if_pos (by omega)]
        · rfl
    · split
      · next hn =>
        subst hn
        simp only [mapGet?]
        by_cases hk : k = n
        · simp [hk]
        · rw [if_neg hk, if_neg (Ne.symm hk), if_neg (Ne.symm hk)]
      · simp only [mapGet?, ih]
        by_cases hk : k = n
        · subst hk; rw [if_pos rfl, if_neg (by omega), if_neg (by omega), if_pos rfl]
        · simp only [if_neg hk]

theorem mapGet_mapSet (d : α) (m : NatMap α) (n k : Nat) (v : α) :
    mapGet d (mapSet m n v) k = if k = n then v else mapGet d m k := by
  simp only [mapGet, mapGet?_mapSet]; split <;> rfl

theorem mapGet_mapUpd (d : α) (m : NatMap α) (n k : Nat) (f : α → α) :
    mapGet d (mapUpd d m n f) k = if k = n then f (mapGet d m n) else mapGet d m k := mapGet_mapSet ..

theorem mapGet?_mapErase (m : NatMap α) (n k : Nat) (h : mapSorted m = true) :
    mapGet? (mapErase m n) k = if k = n then none else mapGet? m k := by
  induction m with
  | nil => simp [mapErase, mapGet?]
  | cons x m ih =>
    obtain ⟨j, w⟩ := x
    obtain ⟨hj, hs⟩ := (mapSorted_cons j w m).1 h
    simp only [mapErase]
    split
    · next hn =>
      subst hn
      by_cases hk : k = j
      · subst hk; rw [if_pos rfl]; exact mapGet?_below hj
      · simp only [mapGet?, if_neg hk, if_neg (Ne.symm hk)]
        split
        · next hlt => exact mapGet?_below fun e he => lt_trans hlt (hj e he)
        · rfl
    · simp only [mapGet?, ih hs]
      by_cases hk : k = n
      · subst hk
        rw [if_pos rfl, if_pos rfl, if_neg (by omega)]
        split <;> rfl
      · simp only [if_neg hk]

namespace Machine

theorem memory_wf_iff (m : List Host.Cell) :
    Memory.wf m = true ↔ mapSorted m = true ∧ ∀ c ∈ m, c.2 ≠ 0xFF := by
  simp [Memory.wf, List.all_eq_true]

/-- A byte written keeps the canonical form. -/
theorem memory_wf_spiPut (m : List Host.Cell) (a : Nat) (b : Byte) (h : Memory.wf m = true) : Memory.wf (spiPut m a b) = true := by
  obtain ⟨hs, hb⟩ := (memory_wf_iff m).1 h
  refine (memory_wf_iff _).2 ?_
  unfold spiPut
  split
  · exact ⟨mapSorted_mapErase m a hs, fun c hc => hb c (mem_mapErase hc)⟩
  · next hne =>
    refine ⟨mapSorted_mapSet m a b hs, fun c hc => ?_⟩
    rcases mem_mapSet hc with hc | hc
    · subst hc; exact hne
    · exact hb c hc

/-- Bytes written keep the canonical form. -/
theorem memory_wf_spiWrite (m : List Host.Cell) (a : Nat) (b : Bytes) (h : Memory.wf m = true) : Memory.wf (spiWrite m a b) = true := by
  induction b generalizing m a with
  | nil => exact h
  | cons x b ih => exact ih _ _ (memory_wf_spiPut m a x h)

/-- An erase keeps the canonical form. -/
theorem memory_wf_spiErase (m : List Host.Cell) (a n : Nat) (h : Memory.wf m = true) : Memory.wf (spiErase m a n) = true := by
  obtain ⟨hs, hb⟩ := (memory_wf_iff m).1 h
  exact (memory_wf_iff _).2 ⟨mapSorted_filter m _ hs, fun c hc => hb c (List.mem_of_mem_filter hc)⟩

/-- A copy keeps the canonical form. -/
theorem memory_wf_spiCopy (m : List Host.Cell) (dst src n : Nat) (h : Memory.wf m = true) : Memory.wf (spiCopy m dst src n) = true := by
  unfold spiCopy
  have : ∀ (l acc : List Host.Cell), Memory.wf acc = true →
      Memory.wf (l.foldl (fun acc c => spiPut acc (c.1 - src + dst) c.2) acc) = true := by
    intro l
    induction l with
    | nil => exact fun acc h => h
    | cons c l ih => exact fun acc h => ih _ (memory_wf_spiPut acc _ _ h)
  exact this _ _ (memory_wf_spiErase m dst n h)

/-- The byte read after a byte is written: the written one at its address, the old one elsewhere. -/
theorem spiByte_spiPut (m : List Host.Cell) (a k : Nat) (b : Byte) (h : Memory.wf m = true) :
    spiByte (spiPut m a b) k = if k = a then b else spiByte m k := by
  obtain ⟨hs, _⟩ := (memory_wf_iff m).1 h
  unfold spiByte spiPut mapGet
  split
  · next hb => rw [mapGet?_mapErase m a k hs]; split <;> simp [hb]
  · rw [mapGet?_mapSet m a k b]; split <;> simp

end Machine

end Sys2Proof
end

