-- ==== Sys2Proof/Laws/Exec.lean ====
section
/-! SUPPORT. What `exec` does with each command: its meaning by name, one equation per constructor. -/

namespace Sys2Proof.Machine

theorem exec_get (c : Submission) (edge : Bool) (s : State) : exec (.get c edge) s =
    execGet c edge s := rfl

theorem exec_getAsOf (c : Submission) (edge : Bool) (s : State) : exec (.getAsOf c edge) s =
    execGetAsOf c edge s := rfl

theorem exec_versions (c : Submission) (edge : Bool) (s : State) : exec (.versions c edge) s =
    execVersions c edge s := rfl

theorem exec_enumerate (c : Submission) (edge : Bool) (s : State) : exec (.enumerate c edge) s =
    execEnumerate c edge s := rfl

theorem exec_put (c : Submission) (edge : Bool) (s : State) : exec (.put c edge) s =
    execPut c edge s := rfl

theorem exec_putIf (c : Submission) (edge : Bool) (s : State) : exec (.putIf c edge) s =
    execPutIf c edge s := rfl

theorem exec_delete (c : Submission) (edge : Bool) (s : State) : exec (.delete c edge) s =
    execDelete c edge s := rfl

theorem exec_deleteSecure (c : Submission) (edge : Bool) (s : State) : exec (.deleteSecure c edge) s =
    execDeleteSecure c edge s := rfl

theorem exec_batch (c : Submission) (edge : Bool) (s : State) : exec (.batch c edge) s =
    execBatch c edge s := rfl

theorem exec_touch (c : Submission) (edge : Bool) (s : State) : exec (.touch c edge) s =
    execTouch c edge s := rfl

theorem exec_flush (c : Submission) (edge : Bool) (s : State) : exec (.flush c edge) s =
    execFlush c edge s := rfl

theorem exec_abort (c : Submission) (edge : Bool) (s : State) : exec (.abort c edge) s =
    execAbort c edge s := rfl

theorem exec_nop (c : Submission) (edge : Bool) (s : State) : exec (.nop c edge) s =
    execNop c edge s := rfl

theorem exec_queueCreate (c : Submission) (edge : Bool) (s : State) : exec (.queueCreate c edge) s =
    execQueueCreate c edge s := rfl

theorem exec_queueDelete (c : Submission) (edge : Bool) (s : State) : exec (.queueDelete c edge) s =
    execQueueDelete c edge s := rfl

theorem exec_queueReset (c : Submission) (edge : Bool) (s : State) : exec (.queueReset c edge) s =
    execQueueReset c edge s := rfl

theorem exec_namespaceSet (c : Submission) (edge : Bool) (s : State) : exec (.namespaceSet c edge) s =
    execNamespaceSet c edge s := rfl

theorem exec_namespaceDelete (c : Submission) (edge : Bool) (s : State) : exec (.namespaceDelete c edge) s =
    execNamespaceDelete c edge s := rfl

theorem exec_keyPageLoadLoad (c : Submission) (edge : Bool) (s : State) : exec (.keyPageLoadLoad c edge) s =
    execKeyPageLoadLoad c edge s := rfl

theorem exec_keyPageLoadKek (c : Submission) (edge : Bool) (s : State) : exec (.keyPageLoadKek c edge) s =
    execKeyPageLoadKek c edge s := rfl

theorem exec_keyPageRetire (c : Submission) (edge : Bool) (s : State) : exec (.keyPageRetire c edge) s =
    execKeyPageRetire c edge s := rfl

theorem exec_sessionOpen (c : Submission) (edge : Bool) (s : State) : exec (.sessionOpen c edge) s =
    execSessionOpen c edge s := rfl

theorem exec_sessionClose (c : Submission) (edge : Bool) (s : State) : exec (.sessionClose c edge) s =
    execSessionClose c edge s := rfl

theorem exec_healthGet (c : Submission) (edge : Bool) (s : State) : exec (.healthGet c edge) s =
    execHealthGet c edge s := rfl

theorem exec_timeGet (c : Submission) (edge : Bool) (s : State) : exec (.timeGet c edge) s =
    execTimeGet c edge s := rfl

theorem exec_scheduleSet (c : Submission) (edge : Bool) (s : State) : exec (.scheduleSet c edge) s =
    execScheduleSet c edge s := rfl

theorem exec_holdSet (c : Submission) (edge : Bool) (s : State) : exec (.holdSet c edge) s =
    execHoldSet c edge s := rfl

theorem exec_holdRelease (c : Submission) (edge : Bool) (s : State) : exec (.holdRelease c edge) s =
    execHoldRelease c edge s := rfl

theorem exec_timeSetConfigure (c : Submission) (edge : Bool) (s : State) : exec (.timeSetConfigure c edge) s =
    execTimeSetConfigure c edge s := rfl

theorem exec_timeSetSetTod (c : Submission) (edge : Bool) (s : State) : exec (.timeSetSetTod c edge) s =
    execTimeSetSetTod c edge s := rfl

theorem exec_timeSetReadmit (c : Submission) (edge : Bool) (s : State) : exec (.timeSetReadmit c edge) s =
    execTimeSetReadmit c edge s := rfl

theorem exec_recordReadRecords (c : Submission) (edge : Bool) (s : State) : exec (.recordReadRecords c edge) s =
    execRecordReadRecords c edge s := rfl

theorem exec_recordReadPages (c : Submission) (edge : Bool) (s : State) : exec (.recordReadPages c edge) s =
    execRecordReadPages c edge s := rfl

theorem exec_recordClear (c : Submission) (edge : Bool) (s : State) : exec (.recordClear c edge) s =
    execRecordClear c edge s := rfl

theorem exec_fwDownload (c : Submission) (edge : Bool) (s : State) : exec (.fwDownload c edge) s =
    execFwDownload c edge s := rfl

theorem exec_fwActivate (c : Submission) (edge : Bool) (s : State) : exec (.fwActivate c edge) s =
    execFwActivate c edge s := rfl

theorem exec_fwStatus (c : Submission) (edge : Bool) (s : State) : exec (.fwStatus c edge) s =
    execFwStatus c edge s := rfl

theorem exec_fwConfirm (c : Submission) (edge : Bool) (s : State) : exec (.fwConfirm c edge) s =
    execFwConfirm c edge s := rfl

theorem exec_roleSet (c : Submission) (edge : Bool) (s : State) : exec (.roleSet c edge) s =
    execRoleSet c edge s := rfl

theorem exec_mapSetIdentity (c : Submission) (edge : Bool) (s : State) : exec (.mapSetIdentity c edge) s =
    execMapSetIdentity c edge s := rfl

theorem exec_mapSetMap (c : Submission) (edge : Bool) (s : State) : exec (.mapSetMap c edge) s =
    execMapSetMap c edge s := rfl

theorem exec_pairStart (c : Submission) (edge : Bool) (s : State) : exec (.pairStart c edge) s =
    execPairStart c edge s := rfl

theorem exec_pairEndCancel (c : Submission) (edge : Bool) (s : State) : exec (.pairEndCancel c edge) s =
    execPairEndCancel c edge s := rfl

theorem exec_pairEndKeepSource (c : Submission) (edge : Bool) (s : State) : exec (.pairEndKeepSource c edge) s =
    execPairEndKeepSource c edge s := rfl

theorem exec_pairEndKeepTarget (c : Submission) (edge : Bool) (s : State) : exec (.pairEndKeepTarget c edge) s =
    execPairEndKeepTarget c edge s := rfl

theorem exec_linkTest (c : Submission) (edge : Bool) (s : State) : exec (.linkTest c edge) s =
    execLinkTest c edge s := rfl

theorem exec_identifyDevice (c : Submission) (edge : Bool) (s : State) : exec (.identifyDevice c edge) s =
    execIdentifyDevice c edge s := rfl

theorem exec_identifyNamespace (c : Submission) (edge : Bool) (s : State) : exec (.identifyNamespace c edge) s =
    execIdentifyNamespace c edge s := rfl

theorem exec_portSetQuad (c : Submission) (edge : Bool) (s : State) : exec (.portSetQuad c edge) s =
    execPortSetQuad c edge s := rfl

theorem exec_portSetPort (c : Submission) (edge : Bool) (s : State) : exec (.portSetPort c edge) s =
    execPortSetPort c edge s := rfl

theorem exec_portSetUdpPort (c : Submission) (edge : Bool) (s : State) : exec (.portSetUdpPort c edge) s =
    execPortSetUdpPort c edge s := rfl

theorem exec_apply (c : Submission) (edge : Bool) (s : State) : exec (.apply c edge) s =
    execApply c edge s := rfl

theorem exec_compare (c : Submission) (edge : Bool) (s : State) : exec (.compare c edge) s =
    execCompare c edge s := rfl

theorem exec_copyDone (c : Submission) (edge : Bool) (s : State) : exec (.copyDone c edge) s =
    execCopyDone c edge s := rfl

theorem exec_propose (c : Submission) (edge : Bool) (s : State) : exec (.propose c edge) s =
    execPropose c edge s := rfl

theorem exec_mark (c : Submission) (edge : Bool) (s : State) : exec (.mark c edge) s =
    execMark c edge s := rfl

theorem exec_proposeCompletion (pair status : Nat) (edge : Bool) (s : State) : exec (.proposeCompletion pair status edge) s =
    execProposeCompletion pair status edge s := rfl

theorem exec_markCompletion (pair : Nat) (edge : Bool) (s : State) : exec (.markCompletion pair edge) s =
    execMarkCompletion pair edge s := rfl

theorem exec_proposeSend (pair : Nat) (s : State) : exec (.proposeSend pair) s =
    execProposeSend pair s := rfl

theorem exec_markSend (pair : Nat) (s : State) : exec (.markSend pair) s =
    execMarkSend pair s := rfl

theorem exec_bulkCopyStep (pair : Nat) (reads : List CodewordOutcome) (edge : Bool) (s : State) : exec (.bulkCopyStep pair reads edge) s =
    execBulkCopyStep pair reads edge s := rfl

theorem exec_peerLost (pair : Nat) (s : State) : exec (.peerLost pair) s =
    execPeerLost pair s := rfl

theorem exec_sqTail (fn ctx : Nat) (value : BitVec 32) (s : State) : exec (.sqTail fn ctx value) s =
    execSqTail fn ctx value s := rfl

theorem exec_cqHead (fn ctx : Nat) (value : BitVec 32) (s : State) : exec (.cqHead fn ctx value) s =
    execCqHead fn ctx value s := rfl

theorem exec_adminSqTail (fn : Nat) (value : BitVec 32) (s : State) : exec (.adminSqTail fn value) s =
    execAdminSqTail fn value s := rfl

theorem exec_adminCqHead (fn : Nat) (value : BitVec 32) (s : State) : exec (.adminCqHead fn value) s =
    execAdminCqHead fn value s := rfl

theorem exec_eventHead (fn : Nat) (value : BitVec 32) (s : State) : exec (.eventHead fn value) s =
    execEventHead fn value s := rfl

theorem exec_admEnSet (fn : Nat) (s : State) : exec (.admEnSet fn) s =
    execAdmEnSet fn s := rfl

theorem exec_admEnClear (fn : Nat) (s : State) : exec (.admEnClear fn) s =
    execAdmEnClear fn s := rfl

theorem exec_evtEnSet (fn : Nat) (s : State) : exec (.evtEnSet fn) s =
    execEvtEnSet fn s := rfl

theorem exec_evtEnClear (fn : Nat) (s : State) : exec (.evtEnClear fn) s =
    execEvtEnClear fn s := rfl

theorem exec_basinSave (s : State) : exec (.basinSave) s =
    execBasinSave s := rfl

theorem exec_glenSave (s : State) : exec (.glenSave) s =
    execGlenSave s := rfl

theorem exec_ruleAdd (edge : Bool) (s : State) : exec (.ruleAdd edge) s =
    execRuleAdd edge s := rfl

theorem exec_ruleRemove (edge : Bool) (s : State) : exec (.ruleRemove edge) s =
    execRuleRemove edge s := rfl

theorem exec_ruleSetResult (edge : Bool) (s : State) : exec (.ruleSetResult edge) s =
    execRuleSetResult edge s := rfl

theorem exec_holeRestore (table : Nat) (s : State) : exec (.holeRestore table) s =
    execHoleRestore table s := rfl

theorem exec_lockSubmit (edge : Bool) (s : State) : exec (.lockSubmit edge) s =
    execLockSubmit edge s := rfl

theorem exec_testStart (s : State) : exec (.testStart) s =
    execTestStart s := rfl

theorem exec_testStop (elapsedMs : Nat) (results : List TestResult) (s : State) : exec (.testStop elapsedMs results) s =
    execTestStop elapsedMs results s := rfl

theorem exec_registerWrite (fn bar off width : Nat) (value : BitVec 64) (s : State) : exec (.registerWrite fn bar off width value) s =
    execRegisterWrite fn bar off width value s := rfl

theorem exec_tapInstructionLoad (code : BitVec 8) (s : State) : exec (.tapInstructionLoad code) s =
    execTapInstructionLoad code s := rfl

theorem exec_dataRingFetch (ctx : Nat) (entries : List (BitVec 512 × Area)) (s : State) : exec (.dataRingFetch ctx entries) s =
    execDataRingFetch ctx entries s := rfl

theorem exec_adminRingFetch (fn : Nat) (entries : List (BitVec 512 × Area)) (s : State) : exec (.adminRingFetch fn entries) s =
    execAdminRingFetch fn entries s := rfl

theorem exec_fetchFailure (ring : RingId) (status : Nat) (s : State) : exec (.fetchFailure ring status) s =
    execFetchFailure ring status s := rfl

theorem exec_dmaDone (id : Nat) (result : DmaResult) (edge : Bool) (s : State) : exec (.dmaDone id result edge) s =
    execDmaDone id result edge s := rfl

theorem exec_heldTimeout (ctx : Nat) (s : State) : exec (.heldTimeout ctx) s =
    execHeldTimeout ctx s := rfl

theorem exec_grainEdge (idle : Nat) (s : State) : exec (.grainEdge idle) s =
    execGrainEdge idle s := rfl

theorem exec_commandTimeout (id : Nat) (edge : Bool) (s : State) : exec (.commandTimeout id edge) s =
    execCommandTimeout id edge s := rfl

theorem exec_gateProceed (id : Nat) (s : State) : exec (.gateProceed id) s =
    execGateProceed id s := rfl

theorem exec_indexUpdateDone (id : Nat) (poisoned : Bool) (s : State) : exec (.indexUpdateDone id poisoned) s =
    execIndexUpdateDone id poisoned s := rfl

theorem exec_journalEntryWritten (id : Nat) (edge : Bool) (s : State) : exec (.journalEntryWritten id edge) s =
    execJournalEntryWritten id edge s := rfl

theorem exec_firstByteReleased (id : Nat) (edge : Bool) (s : State) : exec (.firstByteReleased id edge) s =
    execFirstByteReleased id edge s := rfl

theorem exec_bufferGrant (pool : Nat) (s : State) : exec (.bufferGrant pool) s =
    execBufferGrant pool s := rfl

theorem exec_bufferRelease (handle : Handle) (requester : OwnerTag) (edge : Bool) (s : State) : exec (.bufferRelease handle requester edge) s =
    execBufferRelease handle requester edge s := rfl

theorem exec_waitListTimeout (pool : Nat) (s : State) : exec (.waitListTimeout pool) s =
    execWaitListTimeout pool s := rfl

theorem exec_fetchHoldTimeout (s : State) : exec (.fetchHoldTimeout) s =
    execFetchHoldTimeout s := rfl

theorem exec_gorgeWorkUnit (fault : CipherFault) (s : State) : exec (.gorgeWorkUnit fault) s =
    execGorgeWorkUnit fault s := rfl

theorem exec_entropyTestFailure (test : Nat) (s : State) : exec (.entropyTestFailure test) s =
    execEntropyTestFailure test s := rfl

theorem exec_frameReceive (frame : RxFrame) (s : State) : exec (.frameReceive frame) s =
    execFrameReceive frame s := rfl

theorem exec_requestSegmentReceive (frame : LfFrame) (s : State) : exec (.requestSegmentReceive frame) s =
    execRequestSegmentReceive frame s := rfl

theorem exec_pingReceive (frame : LfFrame) (s : State) : exec (.pingReceive frame) s =
    execPingReceive frame s := rfl

theorem exec_pongReceive (frame : LfFrame) (s : State) : exec (.pongReceive frame) s =
    execPongReceive frame s := rfl

theorem exec_ackSend (session : Nat) (s : State) : exec (.ackSend session) s =
    execAckSend session s := rfl

theorem exec_creditSend (session : Nat) (s : State) : exec (.creditSend session) s =
    execCreditSend session s := rfl

theorem exec_reassemblyTimeout (session : Nat) (seq : BitVec 32) (s : State) : exec (.reassemblyTimeout session seq) s =
    execReassemblyTimeout session seq s := rfl

theorem exec_keepalivePing (session : Nat) (s : State) : exec (.keepalivePing session) s =
    execKeepalivePing session s := rfl

theorem exec_keepaliveExpiry (session : Nat) (edge : Bool) (s : State) : exec (.keepaliveExpiry session edge) s =
    execKeepaliveExpiry session edge s := rfl

theorem exec_frameCounterExhausted (session : Nat) (edge : Bool) (s : State) : exec (.frameCounterExhausted session edge) s =
    execFrameCounterExhausted session edge s := rfl

theorem exec_sessionFree (session : Nat) (s : State) : exec (.sessionFree session) s =
    execSessionFree session s := rfl

theorem exec_sessionOpenResolveTimeout (session : Nat) (s : State) : exec (.sessionOpenResolveTimeout session) s =
    execSessionOpenResolveTimeout session s := rfl

theorem exec_responseSegmentSend (session : Nat) (seq : BitVec 32) (s : State) : exec (.responseSegmentSend session seq) s =
    execResponseSegmentSend session seq s := rfl

theorem exec_frameTransmit (port : Nat) (late part : Bool) (s : State) : exec (.frameTransmit port late part) s =
    execFrameTransmit port late part s := rfl

theorem exec_thresholdDecay (port : Nat) (s : State) : exec (.thresholdDecay port) s =
    execThresholdDecay port s := rfl

theorem exec_controlFrameReceive (port : Nat) (frame : ControlFrame) (s : State) : exec (.controlFrameReceive port frame) s =
    execControlFrameReceive port frame s := rfl

theorem exec_syncReceive (exchange : SyncExchange) (s : State) : exec (.syncReceive exchange) s =
    execSyncReceive exchange s := rfl

theorem exec_timeStep (s : State) : exec (.timeStep) s =
    execTimeStep s := rfl

theorem exec_announceReceive (announce : Announce) (s : State) : exec (.announceReceive announce) s =
    execAnnounceReceive announce s := rfl

theorem exec_announceReceiptTimeout (port : Nat) (s : State) : exec (.announceReceiptTimeout port) s =
    execAnnounceReceiptTimeout port s := rfl

theorem exec_timePortReturn (s : State) : exec (.timePortReturn) s =
    execTimePortReturn s := rfl

theorem exec_pdelayReqReceive (port receiveNs transmitNs correction : Nat) (requester : BitVec 80) (seqId : BitVec 16) (s : State) : exec (.pdelayReqReceive port receiveNs transmitNs correction requester seqId) s =
    execPdelayReqReceive port receiveNs transmitNs correction requester seqId s := rfl

theorem exec_delayReqSend (port : Nat) (s : State) : exec (.delayReqSend port) s =
    execDelayReqSend port s := rfl

theorem exec_ppsInEdge (ns : Nat) (s : State) : exec (.ppsInEdge ns) s =
    execPpsInEdge ns s := rfl

theorem exec_ppsInMissing (s : State) : exec (.ppsInMissing) s =
    execPpsInMissing s := rfl

theorem exec_ppsOutEdge (s : State) : exec (.ppsOutEdge) s =
    execPpsOutEdge s := rfl

theorem exec_timebaseClkFault (ppm : Int) (s : State) : exec (.timebaseClkFault ppm) s =
    execTimebaseClkFault ppm s := rfl

theorem exec_holdoverHalf (s : State) : exec (.holdoverHalf) s =
    execHoldoverHalf s := rfl

theorem exec_holdoverLimitReached (s : State) : exec (.holdoverLimitReached) s =
    execHoldoverLimitReached s := rfl

theorem exec_calendarStartEdge (window : Nat) (edge : Bool) (s : State) : exec (.calendarStartEdge window edge) s =
    execCalendarStartEdge window edge s := rfl

theorem exec_calendarEndEdge (window : Nat) (edge : Bool) (s : State) : exec (.calendarEndEdge window edge) s =
    execCalendarEndEdge window edge s := rfl

theorem exec_idleTimerExpiry (power : Nat) (edge : Bool) (s : State) : exec (.idleTimerExpiry power edge) s =
    execIdleTimerExpiry power edge s := rfl

theorem exec_mapPublishReceive (datagram : MapDatagram) (edge : Bool) (s : State) : exec (.mapPublishReceive datagram edge) s =
    execMapPublishReceive datagram edge s := rfl

theorem exec_mapRequestReceive (datagram : MapDatagram) (s : State) : exec (.mapRequestReceive datagram) s =
    execMapRequestReceive datagram s := rfl

theorem exec_mapPublishTimer (s : State) : exec (.mapPublishTimer) s =
    execMapPublishTimer s := rfl

theorem exec_mapGatherTimeout (s : State) : exec (.mapGatherTimeout) s =
    execMapGatherTimeout s := rfl

theorem exec_mapSilenceTimeout (s : State) : exec (.mapSilenceTimeout) s =
    execMapSilenceTimeout s := rfl

theorem exec_autonegPageReceived (port : Nat) (s : State) : exec (.autonegPageReceived port) s =
    execAutonegPageReceived port s := rfl

theorem exec_linkTrainingDone (port : Nat) (taps : BitVec 24) (s : State) : exec (.linkTrainingDone port taps) s =
    execLinkTrainingDone port taps s := rfl

theorem exec_c2mLinkUp (port : Nat) (taps : BitVec 24) (s : State) : exec (.c2mLinkUp port taps) s =
    execC2mLinkUp port taps s := rfl

theorem exec_trainingTimeout (port : Nat) (s : State) : exec (.trainingTimeout port) s =
    execTrainingTimeout port s := rfl

theorem exec_autonegRestart (port : Nat) (s : State) : exec (.autonegRestart port) s =
    execAutonegRestart port s := rfl

theorem exec_linkFault (port cause : Nat) (s : State) : exec (.linkFault port cause) s =
    execLinkFault port cause s := rfl

theorem exec_preemptVerifyDone (port : Nat) (ok : Bool) (s : State) : exec (.preemptVerifyDone port ok) s =
    execPreemptVerifyDone port ok s := rfl

theorem exec_lpiEntry (port : Nat) (s : State) : exec (.lpiEntry port) s =
    execLpiEntry port s := rfl

theorem exec_powerOn (straps : Straps) (s : State) : exec (.powerOn straps) s =
    execPowerOn straps s := rfl

theorem exec_sysReset (straps : Straps) (s : State) : exec (.sysReset straps) s =
    execSysReset straps s := rfl

theorem exec_pwrGoodLoss (s : State) : exec (.pwrGoodLoss) s =
    execPwrGoodLoss s := rfl

theorem exec_pwrFailNotice (edge : Bool) (s : State) : exec (.pwrFailNotice edge) s =
    execPwrFailNotice edge s := rfl

theorem exec_pwrFailRelease (s : State) : exec (.pwrFailRelease) s =
    execPwrFailRelease s := rfl

theorem exec_holdupOkDeassert (s : State) : exec (.holdupOkDeassert) s =
    execHoldupOkDeassert s := rfl

theorem exec_holdupOkStable (s : State) : exec (.holdupOkStable) s =
    execHoldupOkStable s := rfl

theorem exec_temperatureSample (celsius : Int) (s : State) : exec (.temperatureSample celsius) s =
    execTemperatureSample celsius s := rfl

theorem exec_thermalWarning (celsius : Int) (s : State) : exec (.thermalWarning celsius) s =
    execThermalWarning celsius s := rfl

theorem exec_thermtrip (celsius : Int) (s : State) : exec (.thermtrip celsius) s =
    execThermtrip celsius s := rfl

theorem exec_thermalBackstop (s : State) : exec (.thermalBackstop) s =
    execThermalBackstop s := rfl

theorem exec_fatalMemoryFault (core addr : Nat) (s : State) : exec (.fatalMemoryFault core addr) s =
    execFatalMemoryFault core addr s := rfl

theorem exec_perst (edge : Bool) (s : State) : exec (.perst edge) s =
    execPerst edge s := rfl

theorem exec_hotReset (edge : Bool) (s : State) : exec (.hotReset edge) s =
    execHotReset edge s := rfl

theorem exec_pcieLinkDown (edge : Bool) (s : State) : exec (.pcieLinkDown edge) s =
    execPcieLinkDown edge s := rfl

theorem exec_pcieLinkChange (speed width : Nat) (s : State) : exec (.pcieLinkChange speed width) s =
    execPcieLinkChange speed width s := rfl

theorem exec_functionLevelReset (fn : Nat) (edge : Bool) (s : State) : exec (.functionLevelReset fn edge) s =
    execFunctionLevelReset fn edge s := rfl

theorem exec_vfEnableClear (edge : Bool) (s : State) : exec (.vfEnableClear edge) s =
    execVfEnableClear edge s := rfl

theorem exec_d3hotEntry (fn : Nat) (s : State) : exec (.d3hotEntry fn) s =
    execD3hotEntry fn s := rfl

theorem exec_d0Return (fn : Nat) (s : State) : exec (.d0Return fn) s =
    execD0Return fn s := rfl

theorem exec_pcieLoopback (enter : Bool) (s : State) : exec (.pcieLoopback enter) s =
    execPcieLoopback enter s := rfl

theorem exec_fillDone (training : DramTraining) (rom : RomFindings) (s : State) : exec (.fillDone training rom) s =
    execFillDone training rom s := rfl

theorem exec_rebuildRun (findings : RebuildFindings) (s : State) : exec (.rebuildRun findings) s =
    execRebuildRun findings s := rfl

theorem exec_serviceEntry (s : State) : exec (.serviceEntry) s =
    execServiceEntry s := rfl

theorem exec_activationPreparationDone (edge : Bool) (s : State) : exec (.activationPreparationDone edge) s =
    execActivationPreparationDone edge s := rfl

theorem exec_quiesceTimeout (s : State) : exec (.quiesceTimeout) s =
    execQuiesceTimeout s := rfl

theorem exec_warmRestart (rom : RomFindings) (s : State) : exec (.warmRestart rom) s =
    execWarmRestart rom s := rfl

theorem exec_trialHalfWindow (s : State) : exec (.trialHalfWindow) s =
    execTrialHalfWindow s := rfl

theorem exec_trialWindowExpiry (edge : Bool) (s : State) : exec (.trialWindowExpiry edge) s =
    execTrialWindowExpiry edge s := rfl

theorem exec_linkTestQuiesceTimeout (s : State) : exec (.linkTestQuiesceTimeout) s =
    execLinkTestQuiesceTimeout s := rfl

theorem exec_linkTestEnd (results : List TestResult) (s : State) : exec (.linkTestEnd results) s =
    execLinkTestEnd results s := rfl

theorem exec_programDone (slot : Nat) (edge : Bool) (s : State) : exec (.programDone slot edge) s =
    execProgramDone slot edge s := rfl

theorem exec_programFailure (slot channel : Nat) (edge : Bool) (s : State) : exec (.programFailure slot channel edge) s =
    execProgramFailure slot channel edge s := rfl

theorem exec_eraseDone (channel die block : Nat) (edge : Bool) (s : State) : exec (.eraseDone channel die block edge) s =
    execEraseDone channel die block edge s := rfl

theorem exec_eraseFailure (channel die block : Nat) (edge : Bool) (s : State) : exec (.eraseFailure channel die block edge) s =
    execEraseFailure channel die block edge s := rfl

theorem exec_codewordReadDone (channel die : Nat) (outcome : CodewordOutcome) (edge : Bool) (s : State) : exec (.codewordReadDone channel die outcome edge) s =
    execCodewordReadDone channel die outcome edge s := rfl

theorem exec_xorRebuild (id : Nat) (edge : Bool) (s : State) : exec (.xorRebuild id edge) s =
    execXorRebuild id edge s := rfl

theorem exec_forcedProgramIdle (slot : Nat) (s : State) : exec (.forcedProgramIdle slot) s =
    execForcedProgramIdle slot s := rfl

theorem exec_forcedProgramWriteThrough (slot : Nat) (s : State) : exec (.forcedProgramWriteThrough slot) s =
    execForcedProgramWriteThrough slot s := rfl

theorem exec_forcedProgramPool6 (s : State) : exec (.forcedProgramPool6) s =
    execForcedProgramPool6 s := rfl

theorem exec_gcStep (reads : List CodewordOutcome) (lost : Bool) (edge : Bool) (s : State) : exec (.gcStep reads lost edge) s =
    execGcStep reads lost edge s := rfl

theorem exec_foldingStep (reads : List CodewordOutcome) (lost : Bool) (edge : Bool) (s : State) : exec (.foldingStep reads lost edge) s =
    execFoldingStep reads lost edge s := rfl

theorem exec_refreshStep (reads : List CodewordOutcome) (lost : Bool) (edge : Bool) (s : State) : exec (.refreshStep reads lost edge) s =
    execRefreshStep reads lost edge s := rfl

theorem exec_patrolRead (segment channel page : Nat) (reads : List CodewordOutcome) (edge : Bool) (s : State) : exec (.patrolRead segment channel page reads edge) s =
    execPatrolRead segment channel page reads edge s := rfl

theorem exec_patrolRateUpdate (edge : Bool) (s : State) : exec (.patrolRateUpdate edge) s =
    execPatrolRateUpdate edge s := rfl

theorem exec_patrolReread (segment channel : Nat) (reads : List CodewordOutcome) (edge : Bool) (s : State) : exec (.patrolReread segment channel reads edge) s =
    execPatrolReread segment channel reads edge s := rfl

theorem exec_patrolCycleEnd (edge : Bool) (s : State) : exec (.patrolCycleEnd edge) s =
    execPatrolCycleEnd edge s := rfl

theorem exec_checkpointTimer (lines : List (DramLine × LineOutcome)) (edge : Bool) (s : State) : exec (.checkpointTimer lines edge) s =
    execCheckpointTimer lines edge s := rfl

theorem exec_retentionSweep (edge : Bool) (s : State) : exec (.retentionSweep edge) s =
    execRetentionSweep edge s := rfl

theorem exec_metadataMerge (logical unit channel die : Nat) (inOrder copyFails : Bool) (s : State) : exec (.metadataMerge logical unit channel die inOrder copyFails) s =
    execMetadataMerge logical unit channel die inOrder copyFails s := rfl

theorem exec_secureDeleteErase (id : Nat) (s : State) : exec (.secureDeleteErase id) s =
    execSecureDeleteErase id s := rfl

theorem exec_namespaceRemovalDone (ns : Nat) (s : State) : exec (.namespaceRemovalDone ns) s =
    execNamespaceRemovalDone ns s := rfl

theorem exec_rekeySweepStep (page : Nat) (reads : List CodewordOutcome) (tagFails : Bool) (edge : Bool) (s : State) : exec (.rekeySweepStep page reads tagFails edge) s =
    execRekeySweepStep page reads tagFails edge s := rfl

theorem exec_mergeEntryRetire (line : DramLine) (cause : MergeCause) (outcome : LineOutcome) (s : State) : exec (.mergeEntryRetire line cause outcome) s =
    execMergeEntryRetire line cause outcome s := rfl

theorem exec_scrubRead (line : DramLine) (outcome : LineOutcome) (s : State) : exec (.scrubRead line outcome) s =
    execScrubRead line outcome s := rfl

theorem exec_glenScrub (bank row : Nat) (copy : SramFault) (s : State) : exec (.glenScrub bank row copy) s =
    execGlenScrub bank row copy s := rfl

theorem exec_recorderFlushDone (edge : Bool) (s : State) : exec (.recorderFlushDone edge) s =
    execRecorderFlushDone edge s := rfl

theorem exec_settingsStore (s : State) : exec (.settingsStore) s =
    execSettingsStore s := rfl

theorem exec_healthStore (s : State) : exec (.healthStore) s =
    execHealthStore s := rfl

theorem exec_smbusAlertResponse (s : State) : exec (.smbusAlertResponse) s =
    execSmbusAlertResponse s := rfl

theorem exec_setEndpointId (eid : BitVec 8) (s : State) : exec (.setEndpointId eid) s =
    execSetEndpointId eid s := rfl

theorem exec_getEndpointId (s : State) : exec (.getEndpointId) s =
    execGetEndpointId s := rfl

theorem exec_getMctpVersionSupport (type : BitVec 8) (s : State) : exec (.getMctpVersionSupport type) s =
    execGetMctpVersionSupport type s := rfl

theorem exec_getMessageTypeSupport (s : State) : exec (.getMessageTypeSupport) s =
    execGetMessageTypeSupport s := rfl

theorem exec_getVersion (s : State) : exec (.getVersion) s =
    execGetVersion s := rfl

theorem exec_getCapabilities (s : State) : exec (.getCapabilities) s =
    execGetCapabilities s := rfl

theorem exec_negotiateAlgorithms (p384 sha384 : Bool) (s : State) : exec (.negotiateAlgorithms p384 sha384) s =
    execNegotiateAlgorithms p384 sha384 s := rfl

theorem exec_getDigests (s : State) : exec (.getDigests) s =
    execGetDigests s := rfl

theorem exec_getCertificate (slot offset length : Nat) (s : State) : exec (.getCertificate slot offset length) s =
    execGetCertificate slot offset length s := rfl

theorem exec_challenge (slot : Nat) (nonce : BitVec 256) (s : State) : exec (.challenge slot nonce) s =
    execChallenge slot nonce s := rfl

theorem exec_getMeasurements (index : MeasurementIndex) (nonce : BitVec 256) (s : State) : exec (.getMeasurements index nonce) s =
    execGetMeasurements index nonce s := rfl

theorem exec_vendorDefinedRequest (c : Submission) (edge : Bool) (s : State) : exec (.vendorDefinedRequest c edge) s =
    execVendorDefinedRequest c edge s := rfl

theorem exec_getTid (s : State) : exec (.getTid) s =
    execGetTid s := rfl

theorem exec_getPldmVersion (type : Nat) (s : State) : exec (.getPldmVersion type) s =
    execGetPldmVersion type s := rfl

theorem exec_getPldmTypes (s : State) : exec (.getPldmTypes) s =
    execGetPldmTypes s := rfl

theorem exec_getPldmCommands (type : Nat) (s : State) : exec (.getPldmCommands type) s =
    execGetPldmCommands type s := rfl

theorem exec_getSensorReading (sensor : Nat) (s : State) : exec (.getSensorReading sensor) s =
    execGetSensorReading sensor s := rfl

theorem exec_getStateSensorReadings (sensor : Nat) (s : State) : exec (.getStateSensorReadings sensor) s =
    execGetStateSensorReadings sensor s := rfl

theorem exec_getPdrRepositoryInfo (s : State) : exec (.getPdrRepositoryInfo) s =
    execGetPdrRepositoryInfo s := rfl

theorem exec_getPdr (record : Nat) (s : State) : exec (.getPdr record) s =
    execGetPdr record s := rfl

theorem exec_receiveLpi (port : Nat) (enter : Bool) (s : State) : exec (.receiveLpi port enter) s =
    execReceiveLpi port enter s := rfl

theorem exec_checkerLock (target : Nat) (s : State) : exec (.checkerLock target) s =
    execCheckerLock target s := rfl

theorem exec_checkerLockLoss (target : Nat) (s : State) : exec (.checkerLockLoss target) s =
    execCheckerLockLoss target s := rfl

theorem exec_entropyStartupTestPass (s : State) : exec (.entropyStartupTestPass) s =
    execEntropyStartupTestPass s := rfl

theorem exec_powerStateExitDone (s : State) : exec (.powerStateExitDone) s =
    execPowerStateExitDone s := rfl

theorem exec_msixVectorUnmask (fn vector : Nat) (s : State) : exec (.msixVectorUnmask fn vector) s =
    execMsixVectorUnmask fn vector s := rfl

theorem exec_peerSessionFrameReceive (frame : PeerFrame) (edge : Bool) (s : State) : exec (.peerSessionFrameReceive frame edge) s =
    execPeerSessionFrameReceive frame edge s := rfl

theorem exec_pairMessageRetransmit (pair : Nat) (seq : BitVec 32) (s : State) : exec (.pairMessageRetransmit pair seq) s =
    execPairMessageRetransmit pair seq s := rfl

theorem exec_secureDeleteRelocationStep (id : Nat) (reads : List CodewordOutcome) (edge : Bool) (s : State) : exec (.secureDeleteRelocationStep id reads edge) s =
    execSecureDeleteRelocationStep id reads edge s := rfl

theorem exec_perstDeassertion (s : State) : exec (.perstDeassertion) s =
    execPerstDeassertion s := rfl

theorem exec_junctionBelowWarning (celsius : Int) (s : State) : exec (.junctionBelowWarning celsius) s =
    execJunctionBelowWarning celsius s := rfl

theorem exec_lldpTransmit (port : Nat) (s : State) : exec (.lldpTransmit port) s =
    execLldpTransmit port s := rfl

theorem exec_testDurationEnd (results : List TestResult) (s : State) : exec (.testDurationEnd results) s =
    execTestDurationEnd results s := rfl

theorem exec_latchingRead (fn bar off width : Nat) (s : State) : exec (.latchingRead fn bar off width) s =
    execLatchingRead fn bar off width s := rfl

end Sys2Proof.Machine
end

