-- ==== Sys2Proof/Laws/State.lean ====
section
/-! SUPPORT. One lemma per field per update of the state: the updated group is the function's value, every other group is
as before. -/

namespace Sys2Proof.Machine

@[simp] theorem State.setMode_pending (s : State) (m : Mode) : (s.setMode m).pending = s.pending := rfl
@[simp] theorem State.setMode_mode (s : State) (m : Mode) : (s.setMode m).mode = m := rfl
@[simp] theorem State.setMode_time (s : State) (m : Mode) : (s.setMode m).time = s.time := rfl
@[simp] theorem State.setMode_col (s : State) (m : Mode) : (s.setMode m).col = s.col := rfl
@[simp] theorem State.setMode_works (s : State) (m : Mode) : (s.setMode m).works = s.works := rfl
@[simp] theorem State.setMode_host (s : State) (m : Mode) : (s.setMode m).host = s.host := rfl
@[simp] theorem State.setMode_events (s : State) (m : Mode) : (s.setMode m).events = s.events := rfl
@[simp] theorem State.setMode_terrace (s : State) (m : Mode) : (s.setMode m).terrace = s.terrace := rfl
@[simp] theorem State.setMode_index (s : State) (m : Mode) : (s.setMode m).index = s.index := rfl
@[simp] theorem State.setMode_glen (s : State) (m : Mode) : (s.setMode m).glen = s.glen := rfl
@[simp] theorem State.setMode_basin (s : State) (m : Mode) : (s.setMode m).basin = s.basin := rfl
@[simp] theorem State.setMode_gorge (s : State) (m : Mode) : (s.setMode m).gorge = s.gorge := rfl
@[simp] theorem State.setMode_wire (s : State) (m : Mode) : (s.setMode m).wire = s.wire := rfl
@[simp] theorem State.setMode_ports (s : State) (m : Mode) : (s.setMode m).ports = s.ports := rfl
@[simp] theorem State.setMode_delta (s : State) (m : Mode) : (s.setMode m).delta = s.delta := rfl
@[simp] theorem State.setMode_dram (s : State) (m : Mode) : (s.setMode m).dram = s.dram := rfl
@[simp] theorem State.setMode_cluster (s : State) (m : Mode) : (s.setMode m).cluster = s.cluster := rfl
@[simp] theorem State.setMode_spi (s : State) (m : Mode) : (s.setMode m).spi = s.spi := rfl
@[simp] theorem State.setMode_update (s : State) (m : Mode) : (s.setMode m).update = s.update := rfl
@[simp] theorem State.setMode_mgmt (s : State) (m : Mode) : (s.setMode m).mgmt = s.mgmt := rfl
@[simp] theorem State.setMode_pins (s : State) (m : Mode) : (s.setMode m).pins = s.pins := rfl
@[simp] theorem State.setMode_test (s : State) (m : Mode) : (s.setMode m).test = s.test := rfl
@[simp] theorem State.setMode_written (s : State) (m : Mode) : (s.setMode m).written = s.written := rfl
@[simp] theorem State.setMode_inForce (s : State) (m : Mode) : (s.setMode m).inForce = s.inForce := rfl
@[simp] theorem State.setMode_stored (s : State) (m : Mode) : (s.setMode m).stored = s.stored := rfl
@[simp] theorem State.setMode_latches (s : State) (m : Mode) : (s.setMode m).latches = s.latches := rfl
@[simp] theorem State.setMode_lows (s : State) (m : Mode) : (s.setMode m).lows = s.lows := rfl
@[simp] theorem State.setMode_out (s : State) (m : Mode) : (s.setMode m).out = s.out := rfl
@[simp] theorem State.setMode_free (s : State) (m : Mode) : (s.setMode m).free = s.free := rfl
@[simp] theorem State.setPending_pending (s : State) (q : List Instr) : (s.setPending q).pending = q := rfl
@[simp] theorem State.setPending_mode (s : State) (q : List Instr) : (s.setPending q).mode = s.mode := rfl
@[simp] theorem State.setPending_time (s : State) (q : List Instr) : (s.setPending q).time = s.time := rfl
@[simp] theorem State.setPending_col (s : State) (q : List Instr) : (s.setPending q).col = s.col := rfl
@[simp] theorem State.setPending_works (s : State) (q : List Instr) : (s.setPending q).works = s.works := rfl
@[simp] theorem State.setPending_host (s : State) (q : List Instr) : (s.setPending q).host = s.host := rfl
@[simp] theorem State.setPending_events (s : State) (q : List Instr) : (s.setPending q).events = s.events := rfl
@[simp] theorem State.setPending_terrace (s : State) (q : List Instr) : (s.setPending q).terrace = s.terrace := rfl
@[simp] theorem State.setPending_index (s : State) (q : List Instr) : (s.setPending q).index = s.index := rfl
@[simp] theorem State.setPending_glen (s : State) (q : List Instr) : (s.setPending q).glen = s.glen := rfl
@[simp] theorem State.setPending_basin (s : State) (q : List Instr) : (s.setPending q).basin = s.basin := rfl
@[simp] theorem State.setPending_gorge (s : State) (q : List Instr) : (s.setPending q).gorge = s.gorge := rfl
@[simp] theorem State.setPending_wire (s : State) (q : List Instr) : (s.setPending q).wire = s.wire := rfl
@[simp] theorem State.setPending_ports (s : State) (q : List Instr) : (s.setPending q).ports = s.ports := rfl
@[simp] theorem State.setPending_delta (s : State) (q : List Instr) : (s.setPending q).delta = s.delta := rfl
@[simp] theorem State.setPending_dram (s : State) (q : List Instr) : (s.setPending q).dram = s.dram := rfl
@[simp] theorem State.setPending_cluster (s : State) (q : List Instr) : (s.setPending q).cluster = s.cluster := rfl
@[simp] theorem State.setPending_spi (s : State) (q : List Instr) : (s.setPending q).spi = s.spi := rfl
@[simp] theorem State.setPending_update (s : State) (q : List Instr) : (s.setPending q).update = s.update := rfl
@[simp] theorem State.setPending_mgmt (s : State) (q : List Instr) : (s.setPending q).mgmt = s.mgmt := rfl
@[simp] theorem State.setPending_pins (s : State) (q : List Instr) : (s.setPending q).pins = s.pins := rfl
@[simp] theorem State.setPending_test (s : State) (q : List Instr) : (s.setPending q).test = s.test := rfl
@[simp] theorem State.setPending_written (s : State) (q : List Instr) : (s.setPending q).written = s.written := rfl
@[simp] theorem State.setPending_inForce (s : State) (q : List Instr) : (s.setPending q).inForce = s.inForce := rfl
@[simp] theorem State.setPending_stored (s : State) (q : List Instr) : (s.setPending q).stored = s.stored := rfl
@[simp] theorem State.setPending_latches (s : State) (q : List Instr) : (s.setPending q).latches = s.latches := rfl
@[simp] theorem State.setPending_lows (s : State) (q : List Instr) : (s.setPending q).lows = s.lows := rfl
@[simp] theorem State.setPending_out (s : State) (q : List Instr) : (s.setPending q).out = s.out := rfl
@[simp] theorem State.setPending_free (s : State) (q : List Instr) : (s.setPending q).free = s.free := rfl
@[simp] theorem State.setFree_pending (s : State) (n : Nat) : (s.setFree n).pending = s.pending := rfl
@[simp] theorem State.setFree_mode (s : State) (n : Nat) : (s.setFree n).mode = s.mode := rfl
@[simp] theorem State.setFree_time (s : State) (n : Nat) : (s.setFree n).time = s.time := rfl
@[simp] theorem State.setFree_col (s : State) (n : Nat) : (s.setFree n).col = s.col := rfl
@[simp] theorem State.setFree_works (s : State) (n : Nat) : (s.setFree n).works = s.works := rfl
@[simp] theorem State.setFree_host (s : State) (n : Nat) : (s.setFree n).host = s.host := rfl
@[simp] theorem State.setFree_events (s : State) (n : Nat) : (s.setFree n).events = s.events := rfl
@[simp] theorem State.setFree_terrace (s : State) (n : Nat) : (s.setFree n).terrace = s.terrace := rfl
@[simp] theorem State.setFree_index (s : State) (n : Nat) : (s.setFree n).index = s.index := rfl
@[simp] theorem State.setFree_glen (s : State) (n : Nat) : (s.setFree n).glen = s.glen := rfl
@[simp] theorem State.setFree_basin (s : State) (n : Nat) : (s.setFree n).basin = s.basin := rfl
@[simp] theorem State.setFree_gorge (s : State) (n : Nat) : (s.setFree n).gorge = s.gorge := rfl
@[simp] theorem State.setFree_wire (s : State) (n : Nat) : (s.setFree n).wire = s.wire := rfl
@[simp] theorem State.setFree_ports (s : State) (n : Nat) : (s.setFree n).ports = s.ports := rfl
@[simp] theorem State.setFree_delta (s : State) (n : Nat) : (s.setFree n).delta = s.delta := rfl
@[simp] theorem State.setFree_dram (s : State) (n : Nat) : (s.setFree n).dram = s.dram := rfl
@[simp] theorem State.setFree_cluster (s : State) (n : Nat) : (s.setFree n).cluster = s.cluster := rfl
@[simp] theorem State.setFree_spi (s : State) (n : Nat) : (s.setFree n).spi = s.spi := rfl
@[simp] theorem State.setFree_update (s : State) (n : Nat) : (s.setFree n).update = s.update := rfl
@[simp] theorem State.setFree_mgmt (s : State) (n : Nat) : (s.setFree n).mgmt = s.mgmt := rfl
@[simp] theorem State.setFree_pins (s : State) (n : Nat) : (s.setFree n).pins = s.pins := rfl
@[simp] theorem State.setFree_test (s : State) (n : Nat) : (s.setFree n).test = s.test := rfl
@[simp] theorem State.setFree_written (s : State) (n : Nat) : (s.setFree n).written = s.written := rfl
@[simp] theorem State.setFree_inForce (s : State) (n : Nat) : (s.setFree n).inForce = s.inForce := rfl
@[simp] theorem State.setFree_stored (s : State) (n : Nat) : (s.setFree n).stored = s.stored := rfl
@[simp] theorem State.setFree_latches (s : State) (n : Nat) : (s.setFree n).latches = s.latches := rfl
@[simp] theorem State.setFree_lows (s : State) (n : Nat) : (s.setFree n).lows = s.lows := rfl
@[simp] theorem State.setFree_out (s : State) (n : Nat) : (s.setFree n).out = s.out := rfl
@[simp] theorem State.setFree_free (s : State) (n : Nat) : (s.setFree n).free = n := rfl
@[simp] theorem State.updTime_pending (s : State) (f : Time → Time) : (s.updTime f).pending = s.pending := rfl
@[simp] theorem State.updTime_mode (s : State) (f : Time → Time) : (s.updTime f).mode = s.mode := rfl
@[simp] theorem State.updTime_time (s : State) (f : Time → Time) : (s.updTime f).time = f s.time := rfl
@[simp] theorem State.updTime_col (s : State) (f : Time → Time) : (s.updTime f).col = s.col := rfl
@[simp] theorem State.updTime_works (s : State) (f : Time → Time) : (s.updTime f).works = s.works := rfl
@[simp] theorem State.updTime_host (s : State) (f : Time → Time) : (s.updTime f).host = s.host := rfl
@[simp] theorem State.updTime_events (s : State) (f : Time → Time) : (s.updTime f).events = s.events := rfl
@[simp] theorem State.updTime_terrace (s : State) (f : Time → Time) : (s.updTime f).terrace = s.terrace := rfl
@[simp] theorem State.updTime_index (s : State) (f : Time → Time) : (s.updTime f).index = s.index := rfl
@[simp] theorem State.updTime_glen (s : State) (f : Time → Time) : (s.updTime f).glen = s.glen := rfl
@[simp] theorem State.updTime_basin (s : State) (f : Time → Time) : (s.updTime f).basin = s.basin := rfl
@[simp] theorem State.updTime_gorge (s : State) (f : Time → Time) : (s.updTime f).gorge = s.gorge := rfl
@[simp] theorem State.updTime_wire (s : State) (f : Time → Time) : (s.updTime f).wire = s.wire := rfl
@[simp] theorem State.updTime_ports (s : State) (f : Time → Time) : (s.updTime f).ports = s.ports := rfl
@[simp] theorem State.updTime_delta (s : State) (f : Time → Time) : (s.updTime f).delta = s.delta := rfl
@[simp] theorem State.updTime_dram (s : State) (f : Time → Time) : (s.updTime f).dram = s.dram := rfl
@[simp] theorem State.updTime_cluster (s : State) (f : Time → Time) : (s.updTime f).cluster = s.cluster := rfl
@[simp] theorem State.updTime_spi (s : State) (f : Time → Time) : (s.updTime f).spi = s.spi := rfl
@[simp] theorem State.updTime_update (s : State) (f : Time → Time) : (s.updTime f).update = s.update := rfl
@[simp] theorem State.updTime_mgmt (s : State) (f : Time → Time) : (s.updTime f).mgmt = s.mgmt := rfl
@[simp] theorem State.updTime_pins (s : State) (f : Time → Time) : (s.updTime f).pins = s.pins := rfl
@[simp] theorem State.updTime_test (s : State) (f : Time → Time) : (s.updTime f).test = s.test := rfl
@[simp] theorem State.updTime_written (s : State) (f : Time → Time) : (s.updTime f).written = s.written := rfl
@[simp] theorem State.updTime_inForce (s : State) (f : Time → Time) : (s.updTime f).inForce = s.inForce := rfl
@[simp] theorem State.updTime_stored (s : State) (f : Time → Time) : (s.updTime f).stored = s.stored := rfl
@[simp] theorem State.updTime_latches (s : State) (f : Time → Time) : (s.updTime f).latches = s.latches := rfl
@[simp] theorem State.updTime_lows (s : State) (f : Time → Time) : (s.updTime f).lows = s.lows := rfl
@[simp] theorem State.updTime_out (s : State) (f : Time → Time) : (s.updTime f).out = s.out := rfl
@[simp] theorem State.updTime_free (s : State) (f : Time → Time) : (s.updTime f).free = s.free := rfl
@[simp] theorem State.updCol_pending (s : State) (f : Col → Col) : (s.updCol f).pending = s.pending := rfl
@[simp] theorem State.updCol_mode (s : State) (f : Col → Col) : (s.updCol f).mode = s.mode := rfl
@[simp] theorem State.updCol_time (s : State) (f : Col → Col) : (s.updCol f).time = s.time := rfl
@[simp] theorem State.updCol_col (s : State) (f : Col → Col) : (s.updCol f).col = f s.col := rfl
@[simp] theorem State.updCol_works (s : State) (f : Col → Col) : (s.updCol f).works = s.works := rfl
@[simp] theorem State.updCol_host (s : State) (f : Col → Col) : (s.updCol f).host = s.host := rfl
@[simp] theorem State.updCol_events (s : State) (f : Col → Col) : (s.updCol f).events = s.events := rfl
@[simp] theorem State.updCol_terrace (s : State) (f : Col → Col) : (s.updCol f).terrace = s.terrace := rfl
@[simp] theorem State.updCol_index (s : State) (f : Col → Col) : (s.updCol f).index = s.index := rfl
@[simp] theorem State.updCol_glen (s : State) (f : Col → Col) : (s.updCol f).glen = s.glen := rfl
@[simp] theorem State.updCol_basin (s : State) (f : Col → Col) : (s.updCol f).basin = s.basin := rfl
@[simp] theorem State.updCol_gorge (s : State) (f : Col → Col) : (s.updCol f).gorge = s.gorge := rfl
@[simp] theorem State.updCol_wire (s : State) (f : Col → Col) : (s.updCol f).wire = s.wire := rfl
@[simp] theorem State.updCol_ports (s : State) (f : Col → Col) : (s.updCol f).ports = s.ports := rfl
@[simp] theorem State.updCol_delta (s : State) (f : Col → Col) : (s.updCol f).delta = s.delta := rfl
@[simp] theorem State.updCol_dram (s : State) (f : Col → Col) : (s.updCol f).dram = s.dram := rfl
@[simp] theorem State.updCol_cluster (s : State) (f : Col → Col) : (s.updCol f).cluster = s.cluster := rfl
@[simp] theorem State.updCol_spi (s : State) (f : Col → Col) : (s.updCol f).spi = s.spi := rfl
@[simp] theorem State.updCol_update (s : State) (f : Col → Col) : (s.updCol f).update = s.update := rfl
@[simp] theorem State.updCol_mgmt (s : State) (f : Col → Col) : (s.updCol f).mgmt = s.mgmt := rfl
@[simp] theorem State.updCol_pins (s : State) (f : Col → Col) : (s.updCol f).pins = s.pins := rfl
@[simp] theorem State.updCol_test (s : State) (f : Col → Col) : (s.updCol f).test = s.test := rfl
@[simp] theorem State.updCol_written (s : State) (f : Col → Col) : (s.updCol f).written = s.written := rfl
@[simp] theorem State.updCol_inForce (s : State) (f : Col → Col) : (s.updCol f).inForce = s.inForce := rfl
@[simp] theorem State.updCol_stored (s : State) (f : Col → Col) : (s.updCol f).stored = s.stored := rfl
@[simp] theorem State.updCol_latches (s : State) (f : Col → Col) : (s.updCol f).latches = s.latches := rfl
@[simp] theorem State.updCol_lows (s : State) (f : Col → Col) : (s.updCol f).lows = s.lows := rfl
@[simp] theorem State.updCol_out (s : State) (f : Col → Col) : (s.updCol f).out = s.out := rfl
@[simp] theorem State.updCol_free (s : State) (f : Col → Col) : (s.updCol f).free = s.free := rfl
@[simp] theorem State.updWorks_pending (s : State) (f : List Work → List Work) : (s.updWorks f).pending = s.pending := rfl
@[simp] theorem State.updWorks_mode (s : State) (f : List Work → List Work) : (s.updWorks f).mode = s.mode := rfl
@[simp] theorem State.updWorks_time (s : State) (f : List Work → List Work) : (s.updWorks f).time = s.time := rfl
@[simp] theorem State.updWorks_col (s : State) (f : List Work → List Work) : (s.updWorks f).col = s.col := rfl
@[simp] theorem State.updWorks_works (s : State) (f : List Work → List Work) : (s.updWorks f).works = f s.works := rfl
@[simp] theorem State.updWorks_host (s : State) (f : List Work → List Work) : (s.updWorks f).host = s.host := rfl
@[simp] theorem State.updWorks_events (s : State) (f : List Work → List Work) : (s.updWorks f).events = s.events := rfl
@[simp] theorem State.updWorks_terrace (s : State) (f : List Work → List Work) : (s.updWorks f).terrace = s.terrace := rfl
@[simp] theorem State.updWorks_index (s : State) (f : List Work → List Work) : (s.updWorks f).index = s.index := rfl
@[simp] theorem State.updWorks_glen (s : State) (f : List Work → List Work) : (s.updWorks f).glen = s.glen := rfl
@[simp] theorem State.updWorks_basin (s : State) (f : List Work → List Work) : (s.updWorks f).basin = s.basin := rfl
@[simp] theorem State.updWorks_gorge (s : State) (f : List Work → List Work) : (s.updWorks f).gorge = s.gorge := rfl
@[simp] theorem State.updWorks_wire (s : State) (f : List Work → List Work) : (s.updWorks f).wire = s.wire := rfl
@[simp] theorem State.updWorks_ports (s : State) (f : List Work → List Work) : (s.updWorks f).ports = s.ports := rfl
@[simp] theorem State.updWorks_delta (s : State) (f : List Work → List Work) : (s.updWorks f).delta = s.delta := rfl
@[simp] theorem State.updWorks_dram (s : State) (f : List Work → List Work) : (s.updWorks f).dram = s.dram := rfl
@[simp] theorem State.updWorks_cluster (s : State) (f : List Work → List Work) : (s.updWorks f).cluster = s.cluster := rfl
@[simp] theorem State.updWorks_spi (s : State) (f : List Work → List Work) : (s.updWorks f).spi = s.spi := rfl
@[simp] theorem State.updWorks_update (s : State) (f : List Work → List Work) : (s.updWorks f).update = s.update := rfl
@[simp] theorem State.updWorks_mgmt (s : State) (f : List Work → List Work) : (s.updWorks f).mgmt = s.mgmt := rfl
@[simp] theorem State.updWorks_pins (s : State) (f : List Work → List Work) : (s.updWorks f).pins = s.pins := rfl
@[simp] theorem State.updWorks_test (s : State) (f : List Work → List Work) : (s.updWorks f).test = s.test := rfl
@[simp] theorem State.updWorks_written (s : State) (f : List Work → List Work) : (s.updWorks f).written = s.written := rfl
@[simp] theorem State.updWorks_inForce (s : State) (f : List Work → List Work) : (s.updWorks f).inForce = s.inForce := rfl
@[simp] theorem State.updWorks_stored (s : State) (f : List Work → List Work) : (s.updWorks f).stored = s.stored := rfl
@[simp] theorem State.updWorks_latches (s : State) (f : List Work → List Work) : (s.updWorks f).latches = s.latches := rfl
@[simp] theorem State.updWorks_lows (s : State) (f : List Work → List Work) : (s.updWorks f).lows = s.lows := rfl
@[simp] theorem State.updWorks_out (s : State) (f : List Work → List Work) : (s.updWorks f).out = s.out := rfl
@[simp] theorem State.updWorks_free (s : State) (f : List Work → List Work) : (s.updWorks f).free = s.free := rfl
@[simp] theorem State.updHost_pending (s : State) (f : HostSide → HostSide) : (s.updHost f).pending = s.pending := rfl
@[simp] theorem State.updHost_mode (s : State) (f : HostSide → HostSide) : (s.updHost f).mode = s.mode := rfl
@[simp] theorem State.updHost_time (s : State) (f : HostSide → HostSide) : (s.updHost f).time = s.time := rfl
@[simp] theorem State.updHost_col (s : State) (f : HostSide → HostSide) : (s.updHost f).col = s.col := rfl
@[simp] theorem State.updHost_works (s : State) (f : HostSide → HostSide) : (s.updHost f).works = s.works := rfl
@[simp] theorem State.updHost_host (s : State) (f : HostSide → HostSide) : (s.updHost f).host = f s.host := rfl
@[simp] theorem State.updHost_events (s : State) (f : HostSide → HostSide) : (s.updHost f).events = s.events := rfl
@[simp] theorem State.updHost_terrace (s : State) (f : HostSide → HostSide) : (s.updHost f).terrace = s.terrace := rfl
@[simp] theorem State.updHost_index (s : State) (f : HostSide → HostSide) : (s.updHost f).index = s.index := rfl
@[simp] theorem State.updHost_glen (s : State) (f : HostSide → HostSide) : (s.updHost f).glen = s.glen := rfl
@[simp] theorem State.updHost_basin (s : State) (f : HostSide → HostSide) : (s.updHost f).basin = s.basin := rfl
@[simp] theorem State.updHost_gorge (s : State) (f : HostSide → HostSide) : (s.updHost f).gorge = s.gorge := rfl
@[simp] theorem State.updHost_wire (s : State) (f : HostSide → HostSide) : (s.updHost f).wire = s.wire := rfl
@[simp] theorem State.updHost_ports (s : State) (f : HostSide → HostSide) : (s.updHost f).ports = s.ports := rfl
@[simp] theorem State.updHost_delta (s : State) (f : HostSide → HostSide) : (s.updHost f).delta = s.delta := rfl
@[simp] theorem State.updHost_dram (s : State) (f : HostSide → HostSide) : (s.updHost f).dram = s.dram := rfl
@[simp] theorem State.updHost_cluster (s : State) (f : HostSide → HostSide) : (s.updHost f).cluster = s.cluster := rfl
@[simp] theorem State.updHost_spi (s : State) (f : HostSide → HostSide) : (s.updHost f).spi = s.spi := rfl
@[simp] theorem State.updHost_update (s : State) (f : HostSide → HostSide) : (s.updHost f).update = s.update := rfl
@[simp] theorem State.updHost_mgmt (s : State) (f : HostSide → HostSide) : (s.updHost f).mgmt = s.mgmt := rfl
@[simp] theorem State.updHost_pins (s : State) (f : HostSide → HostSide) : (s.updHost f).pins = s.pins := rfl
@[simp] theorem State.updHost_test (s : State) (f : HostSide → HostSide) : (s.updHost f).test = s.test := rfl
@[simp] theorem State.updHost_written (s : State) (f : HostSide → HostSide) : (s.updHost f).written = s.written := rfl
@[simp] theorem State.updHost_inForce (s : State) (f : HostSide → HostSide) : (s.updHost f).inForce = s.inForce := rfl
@[simp] theorem State.updHost_stored (s : State) (f : HostSide → HostSide) : (s.updHost f).stored = s.stored := rfl
@[simp] theorem State.updHost_latches (s : State) (f : HostSide → HostSide) : (s.updHost f).latches = s.latches := rfl
@[simp] theorem State.updHost_lows (s : State) (f : HostSide → HostSide) : (s.updHost f).lows = s.lows := rfl
@[simp] theorem State.updHost_out (s : State) (f : HostSide → HostSide) : (s.updHost f).out = s.out := rfl
@[simp] theorem State.updHost_free (s : State) (f : HostSide → HostSide) : (s.updHost f).free = s.free := rfl
@[simp] theorem State.updEvents_pending (s : State) (f : Events → Events) : (s.updEvents f).pending = s.pending := rfl
@[simp] theorem State.updEvents_mode (s : State) (f : Events → Events) : (s.updEvents f).mode = s.mode := rfl
@[simp] theorem State.updEvents_time (s : State) (f : Events → Events) : (s.updEvents f).time = s.time := rfl
@[simp] theorem State.updEvents_col (s : State) (f : Events → Events) : (s.updEvents f).col = s.col := rfl
@[simp] theorem State.updEvents_works (s : State) (f : Events → Events) : (s.updEvents f).works = s.works := rfl
@[simp] theorem State.updEvents_host (s : State) (f : Events → Events) : (s.updEvents f).host = s.host := rfl
@[simp] theorem State.updEvents_events (s : State) (f : Events → Events) : (s.updEvents f).events = f s.events := rfl
@[simp] theorem State.updEvents_terrace (s : State) (f : Events → Events) : (s.updEvents f).terrace = s.terrace := rfl
@[simp] theorem State.updEvents_index (s : State) (f : Events → Events) : (s.updEvents f).index = s.index := rfl
@[simp] theorem State.updEvents_glen (s : State) (f : Events → Events) : (s.updEvents f).glen = s.glen := rfl
@[simp] theorem State.updEvents_basin (s : State) (f : Events → Events) : (s.updEvents f).basin = s.basin := rfl
@[simp] theorem State.updEvents_gorge (s : State) (f : Events → Events) : (s.updEvents f).gorge = s.gorge := rfl
@[simp] theorem State.updEvents_wire (s : State) (f : Events → Events) : (s.updEvents f).wire = s.wire := rfl
@[simp] theorem State.updEvents_ports (s : State) (f : Events → Events) : (s.updEvents f).ports = s.ports := rfl
@[simp] theorem State.updEvents_delta (s : State) (f : Events → Events) : (s.updEvents f).delta = s.delta := rfl
@[simp] theorem State.updEvents_dram (s : State) (f : Events → Events) : (s.updEvents f).dram = s.dram := rfl
@[simp] theorem State.updEvents_cluster (s : State) (f : Events → Events) : (s.updEvents f).cluster = s.cluster := rfl
@[simp] theorem State.updEvents_spi (s : State) (f : Events → Events) : (s.updEvents f).spi = s.spi := rfl
@[simp] theorem State.updEvents_update (s : State) (f : Events → Events) : (s.updEvents f).update = s.update := rfl
@[simp] theorem State.updEvents_mgmt (s : State) (f : Events → Events) : (s.updEvents f).mgmt = s.mgmt := rfl
@[simp] theorem State.updEvents_pins (s : State) (f : Events → Events) : (s.updEvents f).pins = s.pins := rfl
@[simp] theorem State.updEvents_test (s : State) (f : Events → Events) : (s.updEvents f).test = s.test := rfl
@[simp] theorem State.updEvents_written (s : State) (f : Events → Events) : (s.updEvents f).written = s.written := rfl
@[simp] theorem State.updEvents_inForce (s : State) (f : Events → Events) : (s.updEvents f).inForce = s.inForce := rfl
@[simp] theorem State.updEvents_stored (s : State) (f : Events → Events) : (s.updEvents f).stored = s.stored := rfl
@[simp] theorem State.updEvents_latches (s : State) (f : Events → Events) : (s.updEvents f).latches = s.latches := rfl
@[simp] theorem State.updEvents_lows (s : State) (f : Events → Events) : (s.updEvents f).lows = s.lows := rfl
@[simp] theorem State.updEvents_out (s : State) (f : Events → Events) : (s.updEvents f).out = s.out := rfl
@[simp] theorem State.updEvents_free (s : State) (f : Events → Events) : (s.updEvents f).free = s.free := rfl
@[simp] theorem State.updTerrace_pending (s : State) (f : Terrace → Terrace) : (s.updTerrace f).pending = s.pending := rfl
@[simp] theorem State.updTerrace_mode (s : State) (f : Terrace → Terrace) : (s.updTerrace f).mode = s.mode := rfl
@[simp] theorem State.updTerrace_time (s : State) (f : Terrace → Terrace) : (s.updTerrace f).time = s.time := rfl
@[simp] theorem State.updTerrace_col (s : State) (f : Terrace → Terrace) : (s.updTerrace f).col = s.col := rfl
@[simp] theorem State.updTerrace_works (s : State) (f : Terrace → Terrace) : (s.updTerrace f).works = s.works := rfl
@[simp] theorem State.updTerrace_host (s : State) (f : Terrace → Terrace) : (s.updTerrace f).host = s.host := rfl
@[simp] theorem State.updTerrace_events (s : State) (f : Terrace → Terrace) : (s.updTerrace f).events = s.events := rfl
@[simp] theorem State.updTerrace_terrace (s : State) (f : Terrace → Terrace) : (s.updTerrace f).terrace = f s.terrace := rfl
@[simp] theorem State.updTerrace_index (s : State) (f : Terrace → Terrace) : (s.updTerrace f).index = s.index := rfl
@[simp] theorem State.updTerrace_glen (s : State) (f : Terrace → Terrace) : (s.updTerrace f).glen = s.glen := rfl
@[simp] theorem State.updTerrace_basin (s : State) (f : Terrace → Terrace) : (s.updTerrace f).basin = s.basin := rfl
@[simp] theorem State.updTerrace_gorge (s : State) (f : Terrace → Terrace) : (s.updTerrace f).gorge = s.gorge := rfl
@[simp] theorem State.updTerrace_wire (s : State) (f : Terrace → Terrace) : (s.updTerrace f).wire = s.wire := rfl
@[simp] theorem State.updTerrace_ports (s : State) (f : Terrace → Terrace) : (s.updTerrace f).ports = s.ports := rfl
@[simp] theorem State.updTerrace_delta (s : State) (f : Terrace → Terrace) : (s.updTerrace f).delta = s.delta := rfl
@[simp] theorem State.updTerrace_dram (s : State) (f : Terrace → Terrace) : (s.updTerrace f).dram = s.dram := rfl
@[simp] theorem State.updTerrace_cluster (s : State) (f : Terrace → Terrace) : (s.updTerrace f).cluster = s.cluster := rfl
@[simp] theorem State.updTerrace_spi (s : State) (f : Terrace → Terrace) : (s.updTerrace f).spi = s.spi := rfl
@[simp] theorem State.updTerrace_update (s : State) (f : Terrace → Terrace) : (s.updTerrace f).update = s.update := rfl
@[simp] theorem State.updTerrace_mgmt (s : State) (f : Terrace → Terrace) : (s.updTerrace f).mgmt = s.mgmt := rfl
@[simp] theorem State.updTerrace_pins (s : State) (f : Terrace → Terrace) : (s.updTerrace f).pins = s.pins := rfl
@[simp] theorem State.updTerrace_test (s : State) (f : Terrace → Terrace) : (s.updTerrace f).test = s.test := rfl
@[simp] theorem State.updTerrace_written (s : State) (f : Terrace → Terrace) : (s.updTerrace f).written = s.written := rfl
@[simp] theorem State.updTerrace_inForce (s : State) (f : Terrace → Terrace) : (s.updTerrace f).inForce = s.inForce := rfl
@[simp] theorem State.updTerrace_stored (s : State) (f : Terrace → Terrace) : (s.updTerrace f).stored = s.stored := rfl
@[simp] theorem State.updTerrace_latches (s : State) (f : Terrace → Terrace) : (s.updTerrace f).latches = s.latches := rfl
@[simp] theorem State.updTerrace_lows (s : State) (f : Terrace → Terrace) : (s.updTerrace f).lows = s.lows := rfl
@[simp] theorem State.updTerrace_out (s : State) (f : Terrace → Terrace) : (s.updTerrace f).out = s.out := rfl
@[simp] theorem State.updTerrace_free (s : State) (f : Terrace → Terrace) : (s.updTerrace f).free = s.free := rfl
@[simp] theorem State.updIndex_pending (s : State) (f : Index → Index) : (s.updIndex f).pending = s.pending := rfl
@[simp] theorem State.updIndex_mode (s : State) (f : Index → Index) : (s.updIndex f).mode = s.mode := rfl
@[simp] theorem State.updIndex_time (s : State) (f : Index → Index) : (s.updIndex f).time = s.time := rfl
@[simp] theorem State.updIndex_col (s : State) (f : Index → Index) : (s.updIndex f).col = s.col := rfl
@[simp] theorem State.updIndex_works (s : State) (f : Index → Index) : (s.updIndex f).works = s.works := rfl
@[simp] theorem State.updIndex_host (s : State) (f : Index → Index) : (s.updIndex f).host = s.host := rfl
@[simp] theorem State.updIndex_events (s : State) (f : Index → Index) : (s.updIndex f).events = s.events := rfl
@[simp] theorem State.updIndex_terrace (s : State) (f : Index → Index) : (s.updIndex f).terrace = s.terrace := rfl
@[simp] theorem State.updIndex_index (s : State) (f : Index → Index) : (s.updIndex f).index = f s.index := rfl
@[simp] theorem State.updIndex_glen (s : State) (f : Index → Index) : (s.updIndex f).glen = s.glen := rfl
@[simp] theorem State.updIndex_basin (s : State) (f : Index → Index) : (s.updIndex f).basin = s.basin := rfl
@[simp] theorem State.updIndex_gorge (s : State) (f : Index → Index) : (s.updIndex f).gorge = s.gorge := rfl
@[simp] theorem State.updIndex_wire (s : State) (f : Index → Index) : (s.updIndex f).wire = s.wire := rfl
@[simp] theorem State.updIndex_ports (s : State) (f : Index → Index) : (s.updIndex f).ports = s.ports := rfl
@[simp] theorem State.updIndex_delta (s : State) (f : Index → Index) : (s.updIndex f).delta = s.delta := rfl
@[simp] theorem State.updIndex_dram (s : State) (f : Index → Index) : (s.updIndex f).dram = s.dram := rfl
@[simp] theorem State.updIndex_cluster (s : State) (f : Index → Index) : (s.updIndex f).cluster = s.cluster := rfl
@[simp] theorem State.updIndex_spi (s : State) (f : Index → Index) : (s.updIndex f).spi = s.spi := rfl
@[simp] theorem State.updIndex_update (s : State) (f : Index → Index) : (s.updIndex f).update = s.update := rfl
@[simp] theorem State.updIndex_mgmt (s : State) (f : Index → Index) : (s.updIndex f).mgmt = s.mgmt := rfl
@[simp] theorem State.updIndex_pins (s : State) (f : Index → Index) : (s.updIndex f).pins = s.pins := rfl
@[simp] theorem State.updIndex_test (s : State) (f : Index → Index) : (s.updIndex f).test = s.test := rfl
@[simp] theorem State.updIndex_written (s : State) (f : Index → Index) : (s.updIndex f).written = s.written := rfl
@[simp] theorem State.updIndex_inForce (s : State) (f : Index → Index) : (s.updIndex f).inForce = s.inForce := rfl
@[simp] theorem State.updIndex_stored (s : State) (f : Index → Index) : (s.updIndex f).stored = s.stored := rfl
@[simp] theorem State.updIndex_latches (s : State) (f : Index → Index) : (s.updIndex f).latches = s.latches := rfl
@[simp] theorem State.updIndex_lows (s : State) (f : Index → Index) : (s.updIndex f).lows = s.lows := rfl
@[simp] theorem State.updIndex_out (s : State) (f : Index → Index) : (s.updIndex f).out = s.out := rfl
@[simp] theorem State.updIndex_free (s : State) (f : Index → Index) : (s.updIndex f).free = s.free := rfl
@[simp] theorem State.updGlen_pending (s : State) (f : Glen → Glen) : (s.updGlen f).pending = s.pending := rfl
@[simp] theorem State.updGlen_mode (s : State) (f : Glen → Glen) : (s.updGlen f).mode = s.mode := rfl
@[simp] theorem State.updGlen_time (s : State) (f : Glen → Glen) : (s.updGlen f).time = s.time := rfl
@[simp] theorem State.updGlen_col (s : State) (f : Glen → Glen) : (s.updGlen f).col = s.col := rfl
@[simp] theorem State.updGlen_works (s : State) (f : Glen → Glen) : (s.updGlen f).works = s.works := rfl
@[simp] theorem State.updGlen_host (s : State) (f : Glen → Glen) : (s.updGlen f).host = s.host := rfl
@[simp] theorem State.updGlen_events (s : State) (f : Glen → Glen) : (s.updGlen f).events = s.events := rfl
@[simp] theorem State.updGlen_terrace (s : State) (f : Glen → Glen) : (s.updGlen f).terrace = s.terrace := rfl
@[simp] theorem State.updGlen_index (s : State) (f : Glen → Glen) : (s.updGlen f).index = s.index := rfl
@[simp] theorem State.updGlen_glen (s : State) (f : Glen → Glen) : (s.updGlen f).glen = f s.glen := rfl
@[simp] theorem State.updGlen_basin (s : State) (f : Glen → Glen) : (s.updGlen f).basin = s.basin := rfl
@[simp] theorem State.updGlen_gorge (s : State) (f : Glen → Glen) : (s.updGlen f).gorge = s.gorge := rfl
@[simp] theorem State.updGlen_wire (s : State) (f : Glen → Glen) : (s.updGlen f).wire = s.wire := rfl
@[simp] theorem State.updGlen_ports (s : State) (f : Glen → Glen) : (s.updGlen f).ports = s.ports := rfl
@[simp] theorem State.updGlen_delta (s : State) (f : Glen → Glen) : (s.updGlen f).delta = s.delta := rfl
@[simp] theorem State.updGlen_dram (s : State) (f : Glen → Glen) : (s.updGlen f).dram = s.dram := rfl
@[simp] theorem State.updGlen_cluster (s : State) (f : Glen → Glen) : (s.updGlen f).cluster = s.cluster := rfl
@[simp] theorem State.updGlen_spi (s : State) (f : Glen → Glen) : (s.updGlen f).spi = s.spi := rfl
@[simp] theorem State.updGlen_update (s : State) (f : Glen → Glen) : (s.updGlen f).update = s.update := rfl
@[simp] theorem State.updGlen_mgmt (s : State) (f : Glen → Glen) : (s.updGlen f).mgmt = s.mgmt := rfl
@[simp] theorem State.updGlen_pins (s : State) (f : Glen → Glen) : (s.updGlen f).pins = s.pins := rfl
@[simp] theorem State.updGlen_test (s : State) (f : Glen → Glen) : (s.updGlen f).test = s.test := rfl
@[simp] theorem State.updGlen_written (s : State) (f : Glen → Glen) : (s.updGlen f).written = s.written := rfl
@[simp] theorem State.updGlen_inForce (s : State) (f : Glen → Glen) : (s.updGlen f).inForce = s.inForce := rfl
@[simp] theorem State.updGlen_stored (s : State) (f : Glen → Glen) : (s.updGlen f).stored = s.stored := rfl
@[simp] theorem State.updGlen_latches (s : State) (f : Glen → Glen) : (s.updGlen f).latches = s.latches := rfl
@[simp] theorem State.updGlen_lows (s : State) (f : Glen → Glen) : (s.updGlen f).lows = s.lows := rfl
@[simp] theorem State.updGlen_out (s : State) (f : Glen → Glen) : (s.updGlen f).out = s.out := rfl
@[simp] theorem State.updGlen_free (s : State) (f : Glen → Glen) : (s.updGlen f).free = s.free := rfl
@[simp] theorem State.updBasin_pending (s : State) (f : Basin → Basin) : (s.updBasin f).pending = s.pending := rfl
@[simp] theorem State.updBasin_mode (s : State) (f : Basin → Basin) : (s.updBasin f).mode = s.mode := rfl
@[simp] theorem State.updBasin_time (s : State) (f : Basin → Basin) : (s.updBasin f).time = s.time := rfl
@[simp] theorem State.updBasin_col (s : State) (f : Basin → Basin) : (s.updBasin f).col = s.col := rfl
@[simp] theorem State.updBasin_works (s : State) (f : Basin → Basin) : (s.updBasin f).works = s.works := rfl
@[simp] theorem State.updBasin_host (s : State) (f : Basin → Basin) : (s.updBasin f).host = s.host := rfl
@[simp] theorem State.updBasin_events (s : State) (f : Basin → Basin) : (s.updBasin f).events = s.events := rfl
@[simp] theorem State.updBasin_terrace (s : State) (f : Basin → Basin) : (s.updBasin f).terrace = s.terrace := rfl
@[simp] theorem State.updBasin_index (s : State) (f : Basin → Basin) : (s.updBasin f).index = s.index := rfl
@[simp] theorem State.updBasin_glen (s : State) (f : Basin → Basin) : (s.updBasin f).glen = s.glen := rfl
@[simp] theorem State.updBasin_basin (s : State) (f : Basin → Basin) : (s.updBasin f).basin = f s.basin := rfl
@[simp] theorem State.updBasin_gorge (s : State) (f : Basin → Basin) : (s.updBasin f).gorge = s.gorge := rfl
@[simp] theorem State.updBasin_wire (s : State) (f : Basin → Basin) : (s.updBasin f).wire = s.wire := rfl
@[simp] theorem State.updBasin_ports (s : State) (f : Basin → Basin) : (s.updBasin f).ports = s.ports := rfl
@[simp] theorem State.updBasin_delta (s : State) (f : Basin → Basin) : (s.updBasin f).delta = s.delta := rfl
@[simp] theorem State.updBasin_dram (s : State) (f : Basin → Basin) : (s.updBasin f).dram = s.dram := rfl
@[simp] theorem State.updBasin_cluster (s : State) (f : Basin → Basin) : (s.updBasin f).cluster = s.cluster := rfl
@[simp] theorem State.updBasin_spi (s : State) (f : Basin → Basin) : (s.updBasin f).spi = s.spi := rfl
@[simp] theorem State.updBasin_update (s : State) (f : Basin → Basin) : (s.updBasin f).update = s.update := rfl
@[simp] theorem State.updBasin_mgmt (s : State) (f : Basin → Basin) : (s.updBasin f).mgmt = s.mgmt := rfl
@[simp] theorem State.updBasin_pins (s : State) (f : Basin → Basin) : (s.updBasin f).pins = s.pins := rfl
@[simp] theorem State.updBasin_test (s : State) (f : Basin → Basin) : (s.updBasin f).test = s.test := rfl
@[simp] theorem State.updBasin_written (s : State) (f : Basin → Basin) : (s.updBasin f).written = s.written := rfl
@[simp] theorem State.updBasin_inForce (s : State) (f : Basin → Basin) : (s.updBasin f).inForce = s.inForce := rfl
@[simp] theorem State.updBasin_stored (s : State) (f : Basin → Basin) : (s.updBasin f).stored = s.stored := rfl
@[simp] theorem State.updBasin_latches (s : State) (f : Basin → Basin) : (s.updBasin f).latches = s.latches := rfl
@[simp] theorem State.updBasin_lows (s : State) (f : Basin → Basin) : (s.updBasin f).lows = s.lows := rfl
@[simp] theorem State.updBasin_out (s : State) (f : Basin → Basin) : (s.updBasin f).out = s.out := rfl
@[simp] theorem State.updBasin_free (s : State) (f : Basin → Basin) : (s.updBasin f).free = s.free := rfl
@[simp] theorem State.updGorge_pending (s : State) (f : Gorge → Gorge) : (s.updGorge f).pending = s.pending := rfl
@[simp] theorem State.updGorge_mode (s : State) (f : Gorge → Gorge) : (s.updGorge f).mode = s.mode := rfl
@[simp] theorem State.updGorge_time (s : State) (f : Gorge → Gorge) : (s.updGorge f).time = s.time := rfl
@[simp] theorem State.updGorge_col (s : State) (f : Gorge → Gorge) : (s.updGorge f).col = s.col := rfl
@[simp] theorem State.updGorge_works (s : State) (f : Gorge → Gorge) : (s.updGorge f).works = s.works := rfl
@[simp] theorem State.updGorge_host (s : State) (f : Gorge → Gorge) : (s.updGorge f).host = s.host := rfl
@[simp] theorem State.updGorge_events (s : State) (f : Gorge → Gorge) : (s.updGorge f).events = s.events := rfl
@[simp] theorem State.updGorge_terrace (s : State) (f : Gorge → Gorge) : (s.updGorge f).terrace = s.terrace := rfl
@[simp] theorem State.updGorge_index (s : State) (f : Gorge → Gorge) : (s.updGorge f).index = s.index := rfl
@[simp] theorem State.updGorge_glen (s : State) (f : Gorge → Gorge) : (s.updGorge f).glen = s.glen := rfl
@[simp] theorem State.updGorge_basin (s : State) (f : Gorge → Gorge) : (s.updGorge f).basin = s.basin := rfl
@[simp] theorem State.updGorge_gorge (s : State) (f : Gorge → Gorge) : (s.updGorge f).gorge = f s.gorge := rfl
@[simp] theorem State.updGorge_wire (s : State) (f : Gorge → Gorge) : (s.updGorge f).wire = s.wire := rfl
@[simp] theorem State.updGorge_ports (s : State) (f : Gorge → Gorge) : (s.updGorge f).ports = s.ports := rfl
@[simp] theorem State.updGorge_delta (s : State) (f : Gorge → Gorge) : (s.updGorge f).delta = s.delta := rfl
@[simp] theorem State.updGorge_dram (s : State) (f : Gorge → Gorge) : (s.updGorge f).dram = s.dram := rfl
@[simp] theorem State.updGorge_cluster (s : State) (f : Gorge → Gorge) : (s.updGorge f).cluster = s.cluster := rfl
@[simp] theorem State.updGorge_spi (s : State) (f : Gorge → Gorge) : (s.updGorge f).spi = s.spi := rfl
@[simp] theorem State.updGorge_update (s : State) (f : Gorge → Gorge) : (s.updGorge f).update = s.update := rfl
@[simp] theorem State.updGorge_mgmt (s : State) (f : Gorge → Gorge) : (s.updGorge f).mgmt = s.mgmt := rfl
@[simp] theorem State.updGorge_pins (s : State) (f : Gorge → Gorge) : (s.updGorge f).pins = s.pins := rfl
@[simp] theorem State.updGorge_test (s : State) (f : Gorge → Gorge) : (s.updGorge f).test = s.test := rfl
@[simp] theorem State.updGorge_written (s : State) (f : Gorge → Gorge) : (s.updGorge f).written = s.written := rfl
@[simp] theorem State.updGorge_inForce (s : State) (f : Gorge → Gorge) : (s.updGorge f).inForce = s.inForce := rfl
@[simp] theorem State.updGorge_stored (s : State) (f : Gorge → Gorge) : (s.updGorge f).stored = s.stored := rfl
@[simp] theorem State.updGorge_latches (s : State) (f : Gorge → Gorge) : (s.updGorge f).latches = s.latches := rfl
@[simp] theorem State.updGorge_lows (s : State) (f : Gorge → Gorge) : (s.updGorge f).lows = s.lows := rfl
@[simp] theorem State.updGorge_out (s : State) (f : Gorge → Gorge) : (s.updGorge f).out = s.out := rfl
@[simp] theorem State.updGorge_free (s : State) (f : Gorge → Gorge) : (s.updGorge f).free = s.free := rfl
@[simp] theorem State.updWire_pending (s : State) (f : Wire → Wire) : (s.updWire f).pending = s.pending := rfl
@[simp] theorem State.updWire_mode (s : State) (f : Wire → Wire) : (s.updWire f).mode = s.mode := rfl
@[simp] theorem State.updWire_time (s : State) (f : Wire → Wire) : (s.updWire f).time = s.time := rfl
@[simp] theorem State.updWire_col (s : State) (f : Wire → Wire) : (s.updWire f).col = s.col := rfl
@[simp] theorem State.updWire_works (s : State) (f : Wire → Wire) : (s.updWire f).works = s.works := rfl
@[simp] theorem State.updWire_host (s : State) (f : Wire → Wire) : (s.updWire f).host = s.host := rfl
@[simp] theorem State.updWire_events (s : State) (f : Wire → Wire) : (s.updWire f).events = s.events := rfl
@[simp] theorem State.updWire_terrace (s : State) (f : Wire → Wire) : (s.updWire f).terrace = s.terrace := rfl
@[simp] theorem State.updWire_index (s : State) (f : Wire → Wire) : (s.updWire f).index = s.index := rfl
@[simp] theorem State.updWire_glen (s : State) (f : Wire → Wire) : (s.updWire f).glen = s.glen := rfl
@[simp] theorem State.updWire_basin (s : State) (f : Wire → Wire) : (s.updWire f).basin = s.basin := rfl
@[simp] theorem State.updWire_gorge (s : State) (f : Wire → Wire) : (s.updWire f).gorge = s.gorge := rfl
@[simp] theorem State.updWire_wire (s : State) (f : Wire → Wire) : (s.updWire f).wire = f s.wire := rfl
@[simp] theorem State.updWire_ports (s : State) (f : Wire → Wire) : (s.updWire f).ports = s.ports := rfl
@[simp] theorem State.updWire_delta (s : State) (f : Wire → Wire) : (s.updWire f).delta = s.delta := rfl
@[simp] theorem State.updWire_dram (s : State) (f : Wire → Wire) : (s.updWire f).dram = s.dram := rfl
@[simp] theorem State.updWire_cluster (s : State) (f : Wire → Wire) : (s.updWire f).cluster = s.cluster := rfl
@[simp] theorem State.updWire_spi (s : State) (f : Wire → Wire) : (s.updWire f).spi = s.spi := rfl
@[simp] theorem State.updWire_update (s : State) (f : Wire → Wire) : (s.updWire f).update = s.update := rfl
@[simp] theorem State.updWire_mgmt (s : State) (f : Wire → Wire) : (s.updWire f).mgmt = s.mgmt := rfl
@[simp] theorem State.updWire_pins (s : State) (f : Wire → Wire) : (s.updWire f).pins = s.pins := rfl
@[simp] theorem State.updWire_test (s : State) (f : Wire → Wire) : (s.updWire f).test = s.test := rfl
@[simp] theorem State.updWire_written (s : State) (f : Wire → Wire) : (s.updWire f).written = s.written := rfl
@[simp] theorem State.updWire_inForce (s : State) (f : Wire → Wire) : (s.updWire f).inForce = s.inForce := rfl
@[simp] theorem State.updWire_stored (s : State) (f : Wire → Wire) : (s.updWire f).stored = s.stored := rfl
@[simp] theorem State.updWire_latches (s : State) (f : Wire → Wire) : (s.updWire f).latches = s.latches := rfl
@[simp] theorem State.updWire_lows (s : State) (f : Wire → Wire) : (s.updWire f).lows = s.lows := rfl
@[simp] theorem State.updWire_out (s : State) (f : Wire → Wire) : (s.updWire f).out = s.out := rfl
@[simp] theorem State.updWire_free (s : State) (f : Wire → Wire) : (s.updWire f).free = s.free := rfl
@[simp] theorem State.updPorts_pending (s : State) (f : Ports → Ports) : (s.updPorts f).pending = s.pending := rfl
@[simp] theorem State.updPorts_mode (s : State) (f : Ports → Ports) : (s.updPorts f).mode = s.mode := rfl
@[simp] theorem State.updPorts_time (s : State) (f : Ports → Ports) : (s.updPorts f).time = s.time := rfl
@[simp] theorem State.updPorts_col (s : State) (f : Ports → Ports) : (s.updPorts f).col = s.col := rfl
@[simp] theorem State.updPorts_works (s : State) (f : Ports → Ports) : (s.updPorts f).works = s.works := rfl
@[simp] theorem State.updPorts_host (s : State) (f : Ports → Ports) : (s.updPorts f).host = s.host := rfl
@[simp] theorem State.updPorts_events (s : State) (f : Ports → Ports) : (s.updPorts f).events = s.events := rfl
@[simp] theorem State.updPorts_terrace (s : State) (f : Ports → Ports) : (s.updPorts f).terrace = s.terrace := rfl
@[simp] theorem State.updPorts_index (s : State) (f : Ports → Ports) : (s.updPorts f).index = s.index := rfl
@[simp] theorem State.updPorts_glen (s : State) (f : Ports → Ports) : (s.updPorts f).glen = s.glen := rfl
@[simp] theorem State.updPorts_basin (s : State) (f : Ports → Ports) : (s.updPorts f).basin = s.basin := rfl
@[simp] theorem State.updPorts_gorge (s : State) (f : Ports → Ports) : (s.updPorts f).gorge = s.gorge := rfl
@[simp] theorem State.updPorts_wire (s : State) (f : Ports → Ports) : (s.updPorts f).wire = s.wire := rfl
@[simp] theorem State.updPorts_ports (s : State) (f : Ports → Ports) : (s.updPorts f).ports = f s.ports := rfl
@[simp] theorem State.updPorts_delta (s : State) (f : Ports → Ports) : (s.updPorts f).delta = s.delta := rfl
@[simp] theorem State.updPorts_dram (s : State) (f : Ports → Ports) : (s.updPorts f).dram = s.dram := rfl
@[simp] theorem State.updPorts_cluster (s : State) (f : Ports → Ports) : (s.updPorts f).cluster = s.cluster := rfl
@[simp] theorem State.updPorts_spi (s : State) (f : Ports → Ports) : (s.updPorts f).spi = s.spi := rfl
@[simp] theorem State.updPorts_update (s : State) (f : Ports → Ports) : (s.updPorts f).update = s.update := rfl
@[simp] theorem State.updPorts_mgmt (s : State) (f : Ports → Ports) : (s.updPorts f).mgmt = s.mgmt := rfl
@[simp] theorem State.updPorts_pins (s : State) (f : Ports → Ports) : (s.updPorts f).pins = s.pins := rfl
@[simp] theorem State.updPorts_test (s : State) (f : Ports → Ports) : (s.updPorts f).test = s.test := rfl
@[simp] theorem State.updPorts_written (s : State) (f : Ports → Ports) : (s.updPorts f).written = s.written := rfl
@[simp] theorem State.updPorts_inForce (s : State) (f : Ports → Ports) : (s.updPorts f).inForce = s.inForce := rfl
@[simp] theorem State.updPorts_stored (s : State) (f : Ports → Ports) : (s.updPorts f).stored = s.stored := rfl
@[simp] theorem State.updPorts_latches (s : State) (f : Ports → Ports) : (s.updPorts f).latches = s.latches := rfl
@[simp] theorem State.updPorts_lows (s : State) (f : Ports → Ports) : (s.updPorts f).lows = s.lows := rfl
@[simp] theorem State.updPorts_out (s : State) (f : Ports → Ports) : (s.updPorts f).out = s.out := rfl
@[simp] theorem State.updPorts_free (s : State) (f : Ports → Ports) : (s.updPorts f).free = s.free := rfl
@[simp] theorem State.updDelta_pending (s : State) (f : Delta → Delta) : (s.updDelta f).pending = s.pending := rfl
@[simp] theorem State.updDelta_mode (s : State) (f : Delta → Delta) : (s.updDelta f).mode = s.mode := rfl
@[simp] theorem State.updDelta_time (s : State) (f : Delta → Delta) : (s.updDelta f).time = s.time := rfl
@[simp] theorem State.updDelta_col (s : State) (f : Delta → Delta) : (s.updDelta f).col = s.col := rfl
@[simp] theorem State.updDelta_works (s : State) (f : Delta → Delta) : (s.updDelta f).works = s.works := rfl
@[simp] theorem State.updDelta_host (s : State) (f : Delta → Delta) : (s.updDelta f).host = s.host := rfl
@[simp] theorem State.updDelta_events (s : State) (f : Delta → Delta) : (s.updDelta f).events = s.events := rfl
@[simp] theorem State.updDelta_terrace (s : State) (f : Delta → Delta) : (s.updDelta f).terrace = s.terrace := rfl
@[simp] theorem State.updDelta_index (s : State) (f : Delta → Delta) : (s.updDelta f).index = s.index := rfl
@[simp] theorem State.updDelta_glen (s : State) (f : Delta → Delta) : (s.updDelta f).glen = s.glen := rfl
@[simp] theorem State.updDelta_basin (s : State) (f : Delta → Delta) : (s.updDelta f).basin = s.basin := rfl
@[simp] theorem State.updDelta_gorge (s : State) (f : Delta → Delta) : (s.updDelta f).gorge = s.gorge := rfl
@[simp] theorem State.updDelta_wire (s : State) (f : Delta → Delta) : (s.updDelta f).wire = s.wire := rfl
@[simp] theorem State.updDelta_ports (s : State) (f : Delta → Delta) : (s.updDelta f).ports = s.ports := rfl
@[simp] theorem State.updDelta_delta (s : State) (f : Delta → Delta) : (s.updDelta f).delta = f s.delta := rfl
@[simp] theorem State.updDelta_dram (s : State) (f : Delta → Delta) : (s.updDelta f).dram = s.dram := rfl
@[simp] theorem State.updDelta_cluster (s : State) (f : Delta → Delta) : (s.updDelta f).cluster = s.cluster := rfl
@[simp] theorem State.updDelta_spi (s : State) (f : Delta → Delta) : (s.updDelta f).spi = s.spi := rfl
@[simp] theorem State.updDelta_update (s : State) (f : Delta → Delta) : (s.updDelta f).update = s.update := rfl
@[simp] theorem State.updDelta_mgmt (s : State) (f : Delta → Delta) : (s.updDelta f).mgmt = s.mgmt := rfl
@[simp] theorem State.updDelta_pins (s : State) (f : Delta → Delta) : (s.updDelta f).pins = s.pins := rfl
@[simp] theorem State.updDelta_test (s : State) (f : Delta → Delta) : (s.updDelta f).test = s.test := rfl
@[simp] theorem State.updDelta_written (s : State) (f : Delta → Delta) : (s.updDelta f).written = s.written := rfl
@[simp] theorem State.updDelta_inForce (s : State) (f : Delta → Delta) : (s.updDelta f).inForce = s.inForce := rfl
@[simp] theorem State.updDelta_stored (s : State) (f : Delta → Delta) : (s.updDelta f).stored = s.stored := rfl
@[simp] theorem State.updDelta_latches (s : State) (f : Delta → Delta) : (s.updDelta f).latches = s.latches := rfl
@[simp] theorem State.updDelta_lows (s : State) (f : Delta → Delta) : (s.updDelta f).lows = s.lows := rfl
@[simp] theorem State.updDelta_out (s : State) (f : Delta → Delta) : (s.updDelta f).out = s.out := rfl
@[simp] theorem State.updDelta_free (s : State) (f : Delta → Delta) : (s.updDelta f).free = s.free := rfl
@[simp] theorem State.updDram_pending (s : State) (f : Dram → Dram) : (s.updDram f).pending = s.pending := rfl
@[simp] theorem State.updDram_mode (s : State) (f : Dram → Dram) : (s.updDram f).mode = s.mode := rfl
@[simp] theorem State.updDram_time (s : State) (f : Dram → Dram) : (s.updDram f).time = s.time := rfl
@[simp] theorem State.updDram_col (s : State) (f : Dram → Dram) : (s.updDram f).col = s.col := rfl
@[simp] theorem State.updDram_works (s : State) (f : Dram → Dram) : (s.updDram f).works = s.works := rfl
@[simp] theorem State.updDram_host (s : State) (f : Dram → Dram) : (s.updDram f).host = s.host := rfl
@[simp] theorem State.updDram_events (s : State) (f : Dram → Dram) : (s.updDram f).events = s.events := rfl
@[simp] theorem State.updDram_terrace (s : State) (f : Dram → Dram) : (s.updDram f).terrace = s.terrace := rfl
@[simp] theorem State.updDram_index (s : State) (f : Dram → Dram) : (s.updDram f).index = s.index := rfl
@[simp] theorem State.updDram_glen (s : State) (f : Dram → Dram) : (s.updDram f).glen = s.glen := rfl
@[simp] theorem State.updDram_basin (s : State) (f : Dram → Dram) : (s.updDram f).basin = s.basin := rfl
@[simp] theorem State.updDram_gorge (s : State) (f : Dram → Dram) : (s.updDram f).gorge = s.gorge := rfl
@[simp] theorem State.updDram_wire (s : State) (f : Dram → Dram) : (s.updDram f).wire = s.wire := rfl
@[simp] theorem State.updDram_ports (s : State) (f : Dram → Dram) : (s.updDram f).ports = s.ports := rfl
@[simp] theorem State.updDram_delta (s : State) (f : Dram → Dram) : (s.updDram f).delta = s.delta := rfl
@[simp] theorem State.updDram_dram (s : State) (f : Dram → Dram) : (s.updDram f).dram = f s.dram := rfl
@[simp] theorem State.updDram_cluster (s : State) (f : Dram → Dram) : (s.updDram f).cluster = s.cluster := rfl
@[simp] theorem State.updDram_spi (s : State) (f : Dram → Dram) : (s.updDram f).spi = s.spi := rfl
@[simp] theorem State.updDram_update (s : State) (f : Dram → Dram) : (s.updDram f).update = s.update := rfl
@[simp] theorem State.updDram_mgmt (s : State) (f : Dram → Dram) : (s.updDram f).mgmt = s.mgmt := rfl
@[simp] theorem State.updDram_pins (s : State) (f : Dram → Dram) : (s.updDram f).pins = s.pins := rfl
@[simp] theorem State.updDram_test (s : State) (f : Dram → Dram) : (s.updDram f).test = s.test := rfl
@[simp] theorem State.updDram_written (s : State) (f : Dram → Dram) : (s.updDram f).written = s.written := rfl
@[simp] theorem State.updDram_inForce (s : State) (f : Dram → Dram) : (s.updDram f).inForce = s.inForce := rfl
@[simp] theorem State.updDram_stored (s : State) (f : Dram → Dram) : (s.updDram f).stored = s.stored := rfl
@[simp] theorem State.updDram_latches (s : State) (f : Dram → Dram) : (s.updDram f).latches = s.latches := rfl
@[simp] theorem State.updDram_lows (s : State) (f : Dram → Dram) : (s.updDram f).lows = s.lows := rfl
@[simp] theorem State.updDram_out (s : State) (f : Dram → Dram) : (s.updDram f).out = s.out := rfl
@[simp] theorem State.updDram_free (s : State) (f : Dram → Dram) : (s.updDram f).free = s.free := rfl
@[simp] theorem State.updCluster_pending (s : State) (f : Cluster → Cluster) : (s.updCluster f).pending = s.pending := rfl
@[simp] theorem State.updCluster_mode (s : State) (f : Cluster → Cluster) : (s.updCluster f).mode = s.mode := rfl
@[simp] theorem State.updCluster_time (s : State) (f : Cluster → Cluster) : (s.updCluster f).time = s.time := rfl
@[simp] theorem State.updCluster_col (s : State) (f : Cluster → Cluster) : (s.updCluster f).col = s.col := rfl
@[simp] theorem State.updCluster_works (s : State) (f : Cluster → Cluster) : (s.updCluster f).works = s.works := rfl
@[simp] theorem State.updCluster_host (s : State) (f : Cluster → Cluster) : (s.updCluster f).host = s.host := rfl
@[simp] theorem State.updCluster_events (s : State) (f : Cluster → Cluster) : (s.updCluster f).events = s.events := rfl
@[simp] theorem State.updCluster_terrace (s : State) (f : Cluster → Cluster) : (s.updCluster f).terrace = s.terrace := rfl
@[simp] theorem State.updCluster_index (s : State) (f : Cluster → Cluster) : (s.updCluster f).index = s.index := rfl
@[simp] theorem State.updCluster_glen (s : State) (f : Cluster → Cluster) : (s.updCluster f).glen = s.glen := rfl
@[simp] theorem State.updCluster_basin (s : State) (f : Cluster → Cluster) : (s.updCluster f).basin = s.basin := rfl
@[simp] theorem State.updCluster_gorge (s : State) (f : Cluster → Cluster) : (s.updCluster f).gorge = s.gorge := rfl
@[simp] theorem State.updCluster_wire (s : State) (f : Cluster → Cluster) : (s.updCluster f).wire = s.wire := rfl
@[simp] theorem State.updCluster_ports (s : State) (f : Cluster → Cluster) : (s.updCluster f).ports = s.ports := rfl
@[simp] theorem State.updCluster_delta (s : State) (f : Cluster → Cluster) : (s.updCluster f).delta = s.delta := rfl
@[simp] theorem State.updCluster_dram (s : State) (f : Cluster → Cluster) : (s.updCluster f).dram = s.dram := rfl
@[simp] theorem State.updCluster_cluster (s : State) (f : Cluster → Cluster) : (s.updCluster f).cluster = f s.cluster := rfl
@[simp] theorem State.updCluster_spi (s : State) (f : Cluster → Cluster) : (s.updCluster f).spi = s.spi := rfl
@[simp] theorem State.updCluster_update (s : State) (f : Cluster → Cluster) : (s.updCluster f).update = s.update := rfl
@[simp] theorem State.updCluster_mgmt (s : State) (f : Cluster → Cluster) : (s.updCluster f).mgmt = s.mgmt := rfl
@[simp] theorem State.updCluster_pins (s : State) (f : Cluster → Cluster) : (s.updCluster f).pins = s.pins := rfl
@[simp] theorem State.updCluster_test (s : State) (f : Cluster → Cluster) : (s.updCluster f).test = s.test := rfl
@[simp] theorem State.updCluster_written (s : State) (f : Cluster → Cluster) : (s.updCluster f).written = s.written := rfl
@[simp] theorem State.updCluster_inForce (s : State) (f : Cluster → Cluster) : (s.updCluster f).inForce = s.inForce := rfl
@[simp] theorem State.updCluster_stored (s : State) (f : Cluster → Cluster) : (s.updCluster f).stored = s.stored := rfl
@[simp] theorem State.updCluster_latches (s : State) (f : Cluster → Cluster) : (s.updCluster f).latches = s.latches := rfl
@[simp] theorem State.updCluster_lows (s : State) (f : Cluster → Cluster) : (s.updCluster f).lows = s.lows := rfl
@[simp] theorem State.updCluster_out (s : State) (f : Cluster → Cluster) : (s.updCluster f).out = s.out := rfl
@[simp] theorem State.updCluster_free (s : State) (f : Cluster → Cluster) : (s.updCluster f).free = s.free := rfl
@[simp] theorem State.updSpi_pending (s : State) (f : Spi → Spi) : (s.updSpi f).pending = s.pending := rfl
@[simp] theorem State.updSpi_mode (s : State) (f : Spi → Spi) : (s.updSpi f).mode = s.mode := rfl
@[simp] theorem State.updSpi_time (s : State) (f : Spi → Spi) : (s.updSpi f).time = s.time := rfl
@[simp] theorem State.updSpi_col (s : State) (f : Spi → Spi) : (s.updSpi f).col = s.col := rfl
@[simp] theorem State.updSpi_works (s : State) (f : Spi → Spi) : (s.updSpi f).works = s.works := rfl
@[simp] theorem State.updSpi_host (s : State) (f : Spi → Spi) : (s.updSpi f).host = s.host := rfl
@[simp] theorem State.updSpi_events (s : State) (f : Spi → Spi) : (s.updSpi f).events = s.events := rfl
@[simp] theorem State.updSpi_terrace (s : State) (f : Spi → Spi) : (s.updSpi f).terrace = s.terrace := rfl
@[simp] theorem State.updSpi_index (s : State) (f : Spi → Spi) : (s.updSpi f).index = s.index := rfl
@[simp] theorem State.updSpi_glen (s : State) (f : Spi → Spi) : (s.updSpi f).glen = s.glen := rfl
@[simp] theorem State.updSpi_basin (s : State) (f : Spi → Spi) : (s.updSpi f).basin = s.basin := rfl
@[simp] theorem State.updSpi_gorge (s : State) (f : Spi → Spi) : (s.updSpi f).gorge = s.gorge := rfl
@[simp] theorem State.updSpi_wire (s : State) (f : Spi → Spi) : (s.updSpi f).wire = s.wire := rfl
@[simp] theorem State.updSpi_ports (s : State) (f : Spi → Spi) : (s.updSpi f).ports = s.ports := rfl
@[simp] theorem State.updSpi_delta (s : State) (f : Spi → Spi) : (s.updSpi f).delta = s.delta := rfl
@[simp] theorem State.updSpi_dram (s : State) (f : Spi → Spi) : (s.updSpi f).dram = s.dram := rfl
@[simp] theorem State.updSpi_cluster (s : State) (f : Spi → Spi) : (s.updSpi f).cluster = s.cluster := rfl
@[simp] theorem State.updSpi_spi (s : State) (f : Spi → Spi) : (s.updSpi f).spi = f s.spi := rfl
@[simp] theorem State.updSpi_update (s : State) (f : Spi → Spi) : (s.updSpi f).update = s.update := rfl
@[simp] theorem State.updSpi_mgmt (s : State) (f : Spi → Spi) : (s.updSpi f).mgmt = s.mgmt := rfl
@[simp] theorem State.updSpi_pins (s : State) (f : Spi → Spi) : (s.updSpi f).pins = s.pins := rfl
@[simp] theorem State.updSpi_test (s : State) (f : Spi → Spi) : (s.updSpi f).test = s.test := rfl
@[simp] theorem State.updSpi_written (s : State) (f : Spi → Spi) : (s.updSpi f).written = s.written := rfl
@[simp] theorem State.updSpi_inForce (s : State) (f : Spi → Spi) : (s.updSpi f).inForce = s.inForce := rfl
@[simp] theorem State.updSpi_stored (s : State) (f : Spi → Spi) : (s.updSpi f).stored = s.stored := rfl
@[simp] theorem State.updSpi_latches (s : State) (f : Spi → Spi) : (s.updSpi f).latches = s.latches := rfl
@[simp] theorem State.updSpi_lows (s : State) (f : Spi → Spi) : (s.updSpi f).lows = s.lows := rfl
@[simp] theorem State.updSpi_out (s : State) (f : Spi → Spi) : (s.updSpi f).out = s.out := rfl
@[simp] theorem State.updSpi_free (s : State) (f : Spi → Spi) : (s.updSpi f).free = s.free := rfl
@[simp] theorem State.updUpdate_pending (s : State) (f : Update → Update) : (s.updUpdate f).pending = s.pending := rfl
@[simp] theorem State.updUpdate_mode (s : State) (f : Update → Update) : (s.updUpdate f).mode = s.mode := rfl
@[simp] theorem State.updUpdate_time (s : State) (f : Update → Update) : (s.updUpdate f).time = s.time := rfl
@[simp] theorem State.updUpdate_col (s : State) (f : Update → Update) : (s.updUpdate f).col = s.col := rfl
@[simp] theorem State.updUpdate_works (s : State) (f : Update → Update) : (s.updUpdate f).works = s.works := rfl
@[simp] theorem State.updUpdate_host (s : State) (f : Update → Update) : (s.updUpdate f).host = s.host := rfl
@[simp] theorem State.updUpdate_events (s : State) (f : Update → Update) : (s.updUpdate f).events = s.events := rfl
@[simp] theorem State.updUpdate_terrace (s : State) (f : Update → Update) : (s.updUpdate f).terrace = s.terrace := rfl
@[simp] theorem State.updUpdate_index (s : State) (f : Update → Update) : (s.updUpdate f).index = s.index := rfl
@[simp] theorem State.updUpdate_glen (s : State) (f : Update → Update) : (s.updUpdate f).glen = s.glen := rfl
@[simp] theorem State.updUpdate_basin (s : State) (f : Update → Update) : (s.updUpdate f).basin = s.basin := rfl
@[simp] theorem State.updUpdate_gorge (s : State) (f : Update → Update) : (s.updUpdate f).gorge = s.gorge := rfl
@[simp] theorem State.updUpdate_wire (s : State) (f : Update → Update) : (s.updUpdate f).wire = s.wire := rfl
@[simp] theorem State.updUpdate_ports (s : State) (f : Update → Update) : (s.updUpdate f).ports = s.ports := rfl
@[simp] theorem State.updUpdate_delta (s : State) (f : Update → Update) : (s.updUpdate f).delta = s.delta := rfl
@[simp] theorem State.updUpdate_dram (s : State) (f : Update → Update) : (s.updUpdate f).dram = s.dram := rfl
@[simp] theorem State.updUpdate_cluster (s : State) (f : Update → Update) : (s.updUpdate f).cluster = s.cluster := rfl
@[simp] theorem State.updUpdate_spi (s : State) (f : Update → Update) : (s.updUpdate f).spi = s.spi := rfl
@[simp] theorem State.updUpdate_update (s : State) (f : Update → Update) : (s.updUpdate f).update = f s.update := rfl
@[simp] theorem State.updUpdate_mgmt (s : State) (f : Update → Update) : (s.updUpdate f).mgmt = s.mgmt := rfl
@[simp] theorem State.updUpdate_pins (s : State) (f : Update → Update) : (s.updUpdate f).pins = s.pins := rfl
@[simp] theorem State.updUpdate_test (s : State) (f : Update → Update) : (s.updUpdate f).test = s.test := rfl
@[simp] theorem State.updUpdate_written (s : State) (f : Update → Update) : (s.updUpdate f).written = s.written := rfl
@[simp] theorem State.updUpdate_inForce (s : State) (f : Update → Update) : (s.updUpdate f).inForce = s.inForce := rfl
@[simp] theorem State.updUpdate_stored (s : State) (f : Update → Update) : (s.updUpdate f).stored = s.stored := rfl
@[simp] theorem State.updUpdate_latches (s : State) (f : Update → Update) : (s.updUpdate f).latches = s.latches := rfl
@[simp] theorem State.updUpdate_lows (s : State) (f : Update → Update) : (s.updUpdate f).lows = s.lows := rfl
@[simp] theorem State.updUpdate_out (s : State) (f : Update → Update) : (s.updUpdate f).out = s.out := rfl
@[simp] theorem State.updUpdate_free (s : State) (f : Update → Update) : (s.updUpdate f).free = s.free := rfl
@[simp] theorem State.updMgmt_pending (s : State) (f : Mgmt → Mgmt) : (s.updMgmt f).pending = s.pending := rfl
@[simp] theorem State.updMgmt_mode (s : State) (f : Mgmt → Mgmt) : (s.updMgmt f).mode = s.mode := rfl
@[simp] theorem State.updMgmt_time (s : State) (f : Mgmt → Mgmt) : (s.updMgmt f).time = s.time := rfl
@[simp] theorem State.updMgmt_col (s : State) (f : Mgmt → Mgmt) : (s.updMgmt f).col = s.col := rfl
@[simp] theorem State.updMgmt_works (s : State) (f : Mgmt → Mgmt) : (s.updMgmt f).works = s.works := rfl
@[simp] theorem State.updMgmt_host (s : State) (f : Mgmt → Mgmt) : (s.updMgmt f).host = s.host := rfl
@[simp] theorem State.updMgmt_events (s : State) (f : Mgmt → Mgmt) : (s.updMgmt f).events = s.events := rfl
@[simp] theorem State.updMgmt_terrace (s : State) (f : Mgmt → Mgmt) : (s.updMgmt f).terrace = s.terrace := rfl
@[simp] theorem State.updMgmt_index (s : State) (f : Mgmt → Mgmt) : (s.updMgmt f).index = s.index := rfl
@[simp] theorem State.updMgmt_glen (s : State) (f : Mgmt → Mgmt) : (s.updMgmt f).glen = s.glen := rfl
@[simp] theorem State.updMgmt_basin (s : State) (f : Mgmt → Mgmt) : (s.updMgmt f).basin = s.basin := rfl
@[simp] theorem State.updMgmt_gorge (s : State) (f : Mgmt → Mgmt) : (s.updMgmt f).gorge = s.gorge := rfl
@[simp] theorem State.updMgmt_wire (s : State) (f : Mgmt → Mgmt) : (s.updMgmt f).wire = s.wire := rfl
@[simp] theorem State.updMgmt_ports (s : State) (f : Mgmt → Mgmt) : (s.updMgmt f).ports = s.ports := rfl
@[simp] theorem State.updMgmt_delta (s : State) (f : Mgmt → Mgmt) : (s.updMgmt f).delta = s.delta := rfl
@[simp] theorem State.updMgmt_dram (s : State) (f : Mgmt → Mgmt) : (s.updMgmt f).dram = s.dram := rfl
@[simp] theorem State.updMgmt_cluster (s : State) (f : Mgmt → Mgmt) : (s.updMgmt f).cluster = s.cluster := rfl
@[simp] theorem State.updMgmt_spi (s : State) (f : Mgmt → Mgmt) : (s.updMgmt f).spi = s.spi := rfl
@[simp] theorem State.updMgmt_update (s : State) (f : Mgmt → Mgmt) : (s.updMgmt f).update = s.update := rfl
@[simp] theorem State.updMgmt_mgmt (s : State) (f : Mgmt → Mgmt) : (s.updMgmt f).mgmt = f s.mgmt := rfl
@[simp] theorem State.updMgmt_pins (s : State) (f : Mgmt → Mgmt) : (s.updMgmt f).pins = s.pins := rfl
@[simp] theorem State.updMgmt_test (s : State) (f : Mgmt → Mgmt) : (s.updMgmt f).test = s.test := rfl
@[simp] theorem State.updMgmt_written (s : State) (f : Mgmt → Mgmt) : (s.updMgmt f).written = s.written := rfl
@[simp] theorem State.updMgmt_inForce (s : State) (f : Mgmt → Mgmt) : (s.updMgmt f).inForce = s.inForce := rfl
@[simp] theorem State.updMgmt_stored (s : State) (f : Mgmt → Mgmt) : (s.updMgmt f).stored = s.stored := rfl
@[simp] theorem State.updMgmt_latches (s : State) (f : Mgmt → Mgmt) : (s.updMgmt f).latches = s.latches := rfl
@[simp] theorem State.updMgmt_lows (s : State) (f : Mgmt → Mgmt) : (s.updMgmt f).lows = s.lows := rfl
@[simp] theorem State.updMgmt_out (s : State) (f : Mgmt → Mgmt) : (s.updMgmt f).out = s.out := rfl
@[simp] theorem State.updMgmt_free (s : State) (f : Mgmt → Mgmt) : (s.updMgmt f).free = s.free := rfl
@[simp] theorem State.updPins_pending (s : State) (f : Pins → Pins) : (s.updPins f).pending = s.pending := rfl
@[simp] theorem State.updPins_mode (s : State) (f : Pins → Pins) : (s.updPins f).mode = s.mode := rfl
@[simp] theorem State.updPins_time (s : State) (f : Pins → Pins) : (s.updPins f).time = s.time := rfl
@[simp] theorem State.updPins_col (s : State) (f : Pins → Pins) : (s.updPins f).col = s.col := rfl
@[simp] theorem State.updPins_works (s : State) (f : Pins → Pins) : (s.updPins f).works = s.works := rfl
@[simp] theorem State.updPins_host (s : State) (f : Pins → Pins) : (s.updPins f).host = s.host := rfl
@[simp] theorem State.updPins_events (s : State) (f : Pins → Pins) : (s.updPins f).events = s.events := rfl
@[simp] theorem State.updPins_terrace (s : State) (f : Pins → Pins) : (s.updPins f).terrace = s.terrace := rfl
@[simp] theorem State.updPins_index (s : State) (f : Pins → Pins) : (s.updPins f).index = s.index := rfl
@[simp] theorem State.updPins_glen (s : State) (f : Pins → Pins) : (s.updPins f).glen = s.glen := rfl
@[simp] theorem State.updPins_basin (s : State) (f : Pins → Pins) : (s.updPins f).basin = s.basin := rfl
@[simp] theorem State.updPins_gorge (s : State) (f : Pins → Pins) : (s.updPins f).gorge = s.gorge := rfl
@[simp] theorem State.updPins_wire (s : State) (f : Pins → Pins) : (s.updPins f).wire = s.wire := rfl
@[simp] theorem State.updPins_ports (s : State) (f : Pins → Pins) : (s.updPins f).ports = s.ports := rfl
@[simp] theorem State.updPins_delta (s : State) (f : Pins → Pins) : (s.updPins f).delta = s.delta := rfl
@[simp] theorem State.updPins_dram (s : State) (f : Pins → Pins) : (s.updPins f).dram = s.dram := rfl
@[simp] theorem State.updPins_cluster (s : State) (f : Pins → Pins) : (s.updPins f).cluster = s.cluster := rfl
@[simp] theorem State.updPins_spi (s : State) (f : Pins → Pins) : (s.updPins f).spi = s.spi := rfl
@[simp] theorem State.updPins_update (s : State) (f : Pins → Pins) : (s.updPins f).update = s.update := rfl
@[simp] theorem State.updPins_mgmt (s : State) (f : Pins → Pins) : (s.updPins f).mgmt = s.mgmt := rfl
@[simp] theorem State.updPins_pins (s : State) (f : Pins → Pins) : (s.updPins f).pins = f s.pins := rfl
@[simp] theorem State.updPins_test (s : State) (f : Pins → Pins) : (s.updPins f).test = s.test := rfl
@[simp] theorem State.updPins_written (s : State) (f : Pins → Pins) : (s.updPins f).written = s.written := rfl
@[simp] theorem State.updPins_inForce (s : State) (f : Pins → Pins) : (s.updPins f).inForce = s.inForce := rfl
@[simp] theorem State.updPins_stored (s : State) (f : Pins → Pins) : (s.updPins f).stored = s.stored := rfl
@[simp] theorem State.updPins_latches (s : State) (f : Pins → Pins) : (s.updPins f).latches = s.latches := rfl
@[simp] theorem State.updPins_lows (s : State) (f : Pins → Pins) : (s.updPins f).lows = s.lows := rfl
@[simp] theorem State.updPins_out (s : State) (f : Pins → Pins) : (s.updPins f).out = s.out := rfl
@[simp] theorem State.updPins_free (s : State) (f : Pins → Pins) : (s.updPins f).free = s.free := rfl
@[simp] theorem State.updTest_pending (s : State) (f : Test → Test) : (s.updTest f).pending = s.pending := rfl
@[simp] theorem State.updTest_mode (s : State) (f : Test → Test) : (s.updTest f).mode = s.mode := rfl
@[simp] theorem State.updTest_time (s : State) (f : Test → Test) : (s.updTest f).time = s.time := rfl
@[simp] theorem State.updTest_col (s : State) (f : Test → Test) : (s.updTest f).col = s.col := rfl
@[simp] theorem State.updTest_works (s : State) (f : Test → Test) : (s.updTest f).works = s.works := rfl
@[simp] theorem State.updTest_host (s : State) (f : Test → Test) : (s.updTest f).host = s.host := rfl
@[simp] theorem State.updTest_events (s : State) (f : Test → Test) : (s.updTest f).events = s.events := rfl
@[simp] theorem State.updTest_terrace (s : State) (f : Test → Test) : (s.updTest f).terrace = s.terrace := rfl
@[simp] theorem State.updTest_index (s : State) (f : Test → Test) : (s.updTest f).index = s.index := rfl
@[simp] theorem State.updTest_glen (s : State) (f : Test → Test) : (s.updTest f).glen = s.glen := rfl
@[simp] theorem State.updTest_basin (s : State) (f : Test → Test) : (s.updTest f).basin = s.basin := rfl
@[simp] theorem State.updTest_gorge (s : State) (f : Test → Test) : (s.updTest f).gorge = s.gorge := rfl
@[simp] theorem State.updTest_wire (s : State) (f : Test → Test) : (s.updTest f).wire = s.wire := rfl
@[simp] theorem State.updTest_ports (s : State) (f : Test → Test) : (s.updTest f).ports = s.ports := rfl
@[simp] theorem State.updTest_delta (s : State) (f : Test → Test) : (s.updTest f).delta = s.delta := rfl
@[simp] theorem State.updTest_dram (s : State) (f : Test → Test) : (s.updTest f).dram = s.dram := rfl
@[simp] theorem State.updTest_cluster (s : State) (f : Test → Test) : (s.updTest f).cluster = s.cluster := rfl
@[simp] theorem State.updTest_spi (s : State) (f : Test → Test) : (s.updTest f).spi = s.spi := rfl
@[simp] theorem State.updTest_update (s : State) (f : Test → Test) : (s.updTest f).update = s.update := rfl
@[simp] theorem State.updTest_mgmt (s : State) (f : Test → Test) : (s.updTest f).mgmt = s.mgmt := rfl
@[simp] theorem State.updTest_pins (s : State) (f : Test → Test) : (s.updTest f).pins = s.pins := rfl
@[simp] theorem State.updTest_test (s : State) (f : Test → Test) : (s.updTest f).test = f s.test := rfl
@[simp] theorem State.updTest_written (s : State) (f : Test → Test) : (s.updTest f).written = s.written := rfl
@[simp] theorem State.updTest_inForce (s : State) (f : Test → Test) : (s.updTest f).inForce = s.inForce := rfl
@[simp] theorem State.updTest_stored (s : State) (f : Test → Test) : (s.updTest f).stored = s.stored := rfl
@[simp] theorem State.updTest_latches (s : State) (f : Test → Test) : (s.updTest f).latches = s.latches := rfl
@[simp] theorem State.updTest_lows (s : State) (f : Test → Test) : (s.updTest f).lows = s.lows := rfl
@[simp] theorem State.updTest_out (s : State) (f : Test → Test) : (s.updTest f).out = s.out := rfl
@[simp] theorem State.updTest_free (s : State) (f : Test → Test) : (s.updTest f).free = s.free := rfl
@[simp] theorem State.updWritten_pending (s : State) (f : Settings → Settings) : (s.updWritten f).pending = s.pending := rfl
@[simp] theorem State.updWritten_mode (s : State) (f : Settings → Settings) : (s.updWritten f).mode = s.mode := rfl
@[simp] theorem State.updWritten_time (s : State) (f : Settings → Settings) : (s.updWritten f).time = s.time := rfl
@[simp] theorem State.updWritten_col (s : State) (f : Settings → Settings) : (s.updWritten f).col = s.col := rfl
@[simp] theorem State.updWritten_works (s : State) (f : Settings → Settings) : (s.updWritten f).works = s.works := rfl
@[simp] theorem State.updWritten_host (s : State) (f : Settings → Settings) : (s.updWritten f).host = s.host := rfl
@[simp] theorem State.updWritten_events (s : State) (f : Settings → Settings) : (s.updWritten f).events = s.events := rfl
@[simp] theorem State.updWritten_terrace (s : State) (f : Settings → Settings) : (s.updWritten f).terrace = s.terrace := rfl
@[simp] theorem State.updWritten_index (s : State) (f : Settings → Settings) : (s.updWritten f).index = s.index := rfl
@[simp] theorem State.updWritten_glen (s : State) (f : Settings → Settings) : (s.updWritten f).glen = s.glen := rfl
@[simp] theorem State.updWritten_basin (s : State) (f : Settings → Settings) : (s.updWritten f).basin = s.basin := rfl
@[simp] theorem State.updWritten_gorge (s : State) (f : Settings → Settings) : (s.updWritten f).gorge = s.gorge := rfl
@[simp] theorem State.updWritten_wire (s : State) (f : Settings → Settings) : (s.updWritten f).wire = s.wire := rfl
@[simp] theorem State.updWritten_ports (s : State) (f : Settings → Settings) : (s.updWritten f).ports = s.ports := rfl
@[simp] theorem State.updWritten_delta (s : State) (f : Settings → Settings) : (s.updWritten f).delta = s.delta := rfl
@[simp] theorem State.updWritten_dram (s : State) (f : Settings → Settings) : (s.updWritten f).dram = s.dram := rfl
@[simp] theorem State.updWritten_cluster (s : State) (f : Settings → Settings) : (s.updWritten f).cluster = s.cluster := rfl
@[simp] theorem State.updWritten_spi (s : State) (f : Settings → Settings) : (s.updWritten f).spi = s.spi := rfl
@[simp] theorem State.updWritten_update (s : State) (f : Settings → Settings) : (s.updWritten f).update = s.update := rfl
@[simp] theorem State.updWritten_mgmt (s : State) (f : Settings → Settings) : (s.updWritten f).mgmt = s.mgmt := rfl
@[simp] theorem State.updWritten_pins (s : State) (f : Settings → Settings) : (s.updWritten f).pins = s.pins := rfl
@[simp] theorem State.updWritten_test (s : State) (f : Settings → Settings) : (s.updWritten f).test = s.test := rfl
@[simp] theorem State.updWritten_written (s : State) (f : Settings → Settings) : (s.updWritten f).written = f s.written := rfl
@[simp] theorem State.updWritten_inForce (s : State) (f : Settings → Settings) : (s.updWritten f).inForce = s.inForce := rfl
@[simp] theorem State.updWritten_stored (s : State) (f : Settings → Settings) : (s.updWritten f).stored = s.stored := rfl
@[simp] theorem State.updWritten_latches (s : State) (f : Settings → Settings) : (s.updWritten f).latches = s.latches := rfl
@[simp] theorem State.updWritten_lows (s : State) (f : Settings → Settings) : (s.updWritten f).lows = s.lows := rfl
@[simp] theorem State.updWritten_out (s : State) (f : Settings → Settings) : (s.updWritten f).out = s.out := rfl
@[simp] theorem State.updWritten_free (s : State) (f : Settings → Settings) : (s.updWritten f).free = s.free := rfl
@[simp] theorem State.updInForce_pending (s : State) (f : Settings → Settings) : (s.updInForce f).pending = s.pending := rfl
@[simp] theorem State.updInForce_mode (s : State) (f : Settings → Settings) : (s.updInForce f).mode = s.mode := rfl
@[simp] theorem State.updInForce_time (s : State) (f : Settings → Settings) : (s.updInForce f).time = s.time := rfl
@[simp] theorem State.updInForce_col (s : State) (f : Settings → Settings) : (s.updInForce f).col = s.col := rfl
@[simp] theorem State.updInForce_works (s : State) (f : Settings → Settings) : (s.updInForce f).works = s.works := rfl
@[simp] theorem State.updInForce_host (s : State) (f : Settings → Settings) : (s.updInForce f).host = s.host := rfl
@[simp] theorem State.updInForce_events (s : State) (f : Settings → Settings) : (s.updInForce f).events = s.events := rfl
@[simp] theorem State.updInForce_terrace (s : State) (f : Settings → Settings) : (s.updInForce f).terrace = s.terrace := rfl
@[simp] theorem State.updInForce_index (s : State) (f : Settings → Settings) : (s.updInForce f).index = s.index := rfl
@[simp] theorem State.updInForce_glen (s : State) (f : Settings → Settings) : (s.updInForce f).glen = s.glen := rfl
@[simp] theorem State.updInForce_basin (s : State) (f : Settings → Settings) : (s.updInForce f).basin = s.basin := rfl
@[simp] theorem State.updInForce_gorge (s : State) (f : Settings → Settings) : (s.updInForce f).gorge = s.gorge := rfl
@[simp] theorem State.updInForce_wire (s : State) (f : Settings → Settings) : (s.updInForce f).wire = s.wire := rfl
@[simp] theorem State.updInForce_ports (s : State) (f : Settings → Settings) : (s.updInForce f).ports = s.ports := rfl
@[simp] theorem State.updInForce_delta (s : State) (f : Settings → Settings) : (s.updInForce f).delta = s.delta := rfl
@[simp] theorem State.updInForce_dram (s : State) (f : Settings → Settings) : (s.updInForce f).dram = s.dram := rfl
@[simp] theorem State.updInForce_cluster (s : State) (f : Settings → Settings) : (s.updInForce f).cluster = s.cluster := rfl
@[simp] theorem State.updInForce_spi (s : State) (f : Settings → Settings) : (s.updInForce f).spi = s.spi := rfl
@[simp] theorem State.updInForce_update (s : State) (f : Settings → Settings) : (s.updInForce f).update = s.update := rfl
@[simp] theorem State.updInForce_mgmt (s : State) (f : Settings → Settings) : (s.updInForce f).mgmt = s.mgmt := rfl
@[simp] theorem State.updInForce_pins (s : State) (f : Settings → Settings) : (s.updInForce f).pins = s.pins := rfl
@[simp] theorem State.updInForce_test (s : State) (f : Settings → Settings) : (s.updInForce f).test = s.test := rfl
@[simp] theorem State.updInForce_written (s : State) (f : Settings → Settings) : (s.updInForce f).written = s.written := rfl
@[simp] theorem State.updInForce_inForce (s : State) (f : Settings → Settings) : (s.updInForce f).inForce = f s.inForce := rfl
@[simp] theorem State.updInForce_stored (s : State) (f : Settings → Settings) : (s.updInForce f).stored = s.stored := rfl
@[simp] theorem State.updInForce_latches (s : State) (f : Settings → Settings) : (s.updInForce f).latches = s.latches := rfl
@[simp] theorem State.updInForce_lows (s : State) (f : Settings → Settings) : (s.updInForce f).lows = s.lows := rfl
@[simp] theorem State.updInForce_out (s : State) (f : Settings → Settings) : (s.updInForce f).out = s.out := rfl
@[simp] theorem State.updInForce_free (s : State) (f : Settings → Settings) : (s.updInForce f).free = s.free := rfl
@[simp] theorem State.updStored_pending (s : State) (f : Settings → Settings) : (s.updStored f).pending = s.pending := rfl
@[simp] theorem State.updStored_mode (s : State) (f : Settings → Settings) : (s.updStored f).mode = s.mode := rfl
@[simp] theorem State.updStored_time (s : State) (f : Settings → Settings) : (s.updStored f).time = s.time := rfl
@[simp] theorem State.updStored_col (s : State) (f : Settings → Settings) : (s.updStored f).col = s.col := rfl
@[simp] theorem State.updStored_works (s : State) (f : Settings → Settings) : (s.updStored f).works = s.works := rfl
@[simp] theorem State.updStored_host (s : State) (f : Settings → Settings) : (s.updStored f).host = s.host := rfl
@[simp] theorem State.updStored_events (s : State) (f : Settings → Settings) : (s.updStored f).events = s.events := rfl
@[simp] theorem State.updStored_terrace (s : State) (f : Settings → Settings) : (s.updStored f).terrace = s.terrace := rfl
@[simp] theorem State.updStored_index (s : State) (f : Settings → Settings) : (s.updStored f).index = s.index := rfl
@[simp] theorem State.updStored_glen (s : State) (f : Settings → Settings) : (s.updStored f).glen = s.glen := rfl
@[simp] theorem State.updStored_basin (s : State) (f : Settings → Settings) : (s.updStored f).basin = s.basin := rfl
@[simp] theorem State.updStored_gorge (s : State) (f : Settings → Settings) : (s.updStored f).gorge = s.gorge := rfl
@[simp] theorem State.updStored_wire (s : State) (f : Settings → Settings) : (s.updStored f).wire = s.wire := rfl
@[simp] theorem State.updStored_ports (s : State) (f : Settings → Settings) : (s.updStored f).ports = s.ports := rfl
@[simp] theorem State.updStored_delta (s : State) (f : Settings → Settings) : (s.updStored f).delta = s.delta := rfl
@[simp] theorem State.updStored_dram (s : State) (f : Settings → Settings) : (s.updStored f).dram = s.dram := rfl
@[simp] theorem State.updStored_cluster (s : State) (f : Settings → Settings) : (s.updStored f).cluster = s.cluster := rfl
@[simp] theorem State.updStored_spi (s : State) (f : Settings → Settings) : (s.updStored f).spi = s.spi := rfl
@[simp] theorem State.updStored_update (s : State) (f : Settings → Settings) : (s.updStored f).update = s.update := rfl
@[simp] theorem State.updStored_mgmt (s : State) (f : Settings → Settings) : (s.updStored f).mgmt = s.mgmt := rfl
@[simp] theorem State.updStored_pins (s : State) (f : Settings → Settings) : (s.updStored f).pins = s.pins := rfl
@[simp] theorem State.updStored_test (s : State) (f : Settings → Settings) : (s.updStored f).test = s.test := rfl
@[simp] theorem State.updStored_written (s : State) (f : Settings → Settings) : (s.updStored f).written = s.written := rfl
@[simp] theorem State.updStored_inForce (s : State) (f : Settings → Settings) : (s.updStored f).inForce = s.inForce := rfl
@[simp] theorem State.updStored_stored (s : State) (f : Settings → Settings) : (s.updStored f).stored = f s.stored := rfl
@[simp] theorem State.updStored_latches (s : State) (f : Settings → Settings) : (s.updStored f).latches = s.latches := rfl
@[simp] theorem State.updStored_lows (s : State) (f : Settings → Settings) : (s.updStored f).lows = s.lows := rfl
@[simp] theorem State.updStored_out (s : State) (f : Settings → Settings) : (s.updStored f).out = s.out := rfl
@[simp] theorem State.updStored_free (s : State) (f : Settings → Settings) : (s.updStored f).free = s.free := rfl
@[simp] theorem State.updLatches_pending (s : State) (f : NatMap (BitVec 32) → NatMap (BitVec 32)) : (s.updLatches f).pending = s.pending := rfl
@[simp] theorem State.updLatches_mode (s : State) (f : NatMap (BitVec 32) → NatMap (BitVec 32)) : (s.updLatches f).mode = s.mode := rfl
@[simp] theorem State.updLatches_time (s : State) (f : NatMap (BitVec 32) → NatMap (BitVec 32)) : (s.updLatches f).time = s.time := rfl
@[simp] theorem State.updLatches_col (s : State) (f : NatMap (BitVec 32) → NatMap (BitVec 32)) : (s.updLatches f).col = s.col := rfl
@[simp] theorem State.updLatches_works (s : State) (f : NatMap (BitVec 32) → NatMap (BitVec 32)) : (s.updLatches f).works = s.works := rfl
@[simp] theorem State.updLatches_host (s : State) (f : NatMap (BitVec 32) → NatMap (BitVec 32)) : (s.updLatches f).host = s.host := rfl
@[simp] theorem State.updLatches_events (s : State) (f : NatMap (BitVec 32) → NatMap (BitVec 32)) : (s.updLatches f).events = s.events := rfl
@[simp] theorem State.updLatches_terrace (s : State) (f : NatMap (BitVec 32) → NatMap (BitVec 32)) : (s.updLatches f).terrace = s.terrace := rfl
@[simp] theorem State.updLatches_index (s : State) (f : NatMap (BitVec 32) → NatMap (BitVec 32)) : (s.updLatches f).index = s.index := rfl
@[simp] theorem State.updLatches_glen (s : State) (f : NatMap (BitVec 32) → NatMap (BitVec 32)) : (s.updLatches f).glen = s.glen := rfl
@[simp] theorem State.updLatches_basin (s : State) (f : NatMap (BitVec 32) → NatMap (BitVec 32)) : (s.updLatches f).basin = s.basin := rfl
@[simp] theorem State.updLatches_gorge (s : State) (f : NatMap (BitVec 32) → NatMap (BitVec 32)) : (s.updLatches f).gorge = s.gorge := rfl
@[simp] theorem State.updLatches_wire (s : State) (f : NatMap (BitVec 32) → NatMap (BitVec 32)) : (s.updLatches f).wire = s.wire := rfl
@[simp] theorem State.updLatches_ports (s : State) (f : NatMap (BitVec 32) → NatMap (BitVec 32)) : (s.updLatches f).ports = s.ports := rfl
@[simp] theorem State.updLatches_delta (s : State) (f : NatMap (BitVec 32) → NatMap (BitVec 32)) : (s.updLatches f).delta = s.delta := rfl
@[simp] theorem State.updLatches_dram (s : State) (f : NatMap (BitVec 32) → NatMap (BitVec 32)) : (s.updLatches f).dram = s.dram := rfl
@[simp] theorem State.updLatches_cluster (s : State) (f : NatMap (BitVec 32) → NatMap (BitVec 32)) : (s.updLatches f).cluster = s.cluster := rfl
@[simp] theorem State.updLatches_spi (s : State) (f : NatMap (BitVec 32) → NatMap (BitVec 32)) : (s.updLatches f).spi = s.spi := rfl
@[simp] theorem State.updLatches_update (s : State) (f : NatMap (BitVec 32) → NatMap (BitVec 32)) : (s.updLatches f).update = s.update := rfl
@[simp] theorem State.updLatches_mgmt (s : State) (f : NatMap (BitVec 32) → NatMap (BitVec 32)) : (s.updLatches f).mgmt = s.mgmt := rfl
@[simp] theorem State.updLatches_pins (s : State) (f : NatMap (BitVec 32) → NatMap (BitVec 32)) : (s.updLatches f).pins = s.pins := rfl
@[simp] theorem State.updLatches_test (s : State) (f : NatMap (BitVec 32) → NatMap (BitVec 32)) : (s.updLatches f).test = s.test := rfl
@[simp] theorem State.updLatches_written (s : State) (f : NatMap (BitVec 32) → NatMap (BitVec 32)) : (s.updLatches f).written = s.written := rfl
@[simp] theorem State.updLatches_inForce (s : State) (f : NatMap (BitVec 32) → NatMap (BitVec 32)) : (s.updLatches f).inForce = s.inForce := rfl
@[simp] theorem State.updLatches_stored (s : State) (f : NatMap (BitVec 32) → NatMap (BitVec 32)) : (s.updLatches f).stored = s.stored := rfl
@[simp] theorem State.updLatches_latches (s : State) (f : NatMap (BitVec 32) → NatMap (BitVec 32)) : (s.updLatches f).latches = f s.latches := rfl
@[simp] theorem State.updLatches_lows (s : State) (f : NatMap (BitVec 32) → NatMap (BitVec 32)) : (s.updLatches f).lows = s.lows := rfl
@[simp] theorem State.updLatches_out (s : State) (f : NatMap (BitVec 32) → NatMap (BitVec 32)) : (s.updLatches f).out = s.out := rfl
@[simp] theorem State.updLatches_free (s : State) (f : NatMap (BitVec 32) → NatMap (BitVec 32)) : (s.updLatches f).free = s.free := rfl
@[simp] theorem State.updLows_pending (s : State) (f : NatMap (BitVec 32) → NatMap (BitVec 32)) : (s.updLows f).pending = s.pending := rfl
@[simp] theorem State.updLows_mode (s : State) (f : NatMap (BitVec 32) → NatMap (BitVec 32)) : (s.updLows f).mode = s.mode := rfl
@[simp] theorem State.updLows_time (s : State) (f : NatMap (BitVec 32) → NatMap (BitVec 32)) : (s.updLows f).time = s.time := rfl
@[simp] theorem State.updLows_col (s : State) (f : NatMap (BitVec 32) → NatMap (BitVec 32)) : (s.updLows f).col = s.col := rfl
@[simp] theorem State.updLows_works (s : State) (f : NatMap (BitVec 32) → NatMap (BitVec 32)) : (s.updLows f).works = s.works := rfl
@[simp] theorem State.updLows_host (s : State) (f : NatMap (BitVec 32) → NatMap (BitVec 32)) : (s.updLows f).host = s.host := rfl
@[simp] theorem State.updLows_events (s : State) (f : NatMap (BitVec 32) → NatMap (BitVec 32)) : (s.updLows f).events = s.events := rfl
@[simp] theorem State.updLows_terrace (s : State) (f : NatMap (BitVec 32) → NatMap (BitVec 32)) : (s.updLows f).terrace = s.terrace := rfl
@[simp] theorem State.updLows_index (s : State) (f : NatMap (BitVec 32) → NatMap (BitVec 32)) : (s.updLows f).index = s.index := rfl
@[simp] theorem State.updLows_glen (s : State) (f : NatMap (BitVec 32) → NatMap (BitVec 32)) : (s.updLows f).glen = s.glen := rfl
@[simp] theorem State.updLows_basin (s : State) (f : NatMap (BitVec 32) → NatMap (BitVec 32)) : (s.updLows f).basin = s.basin := rfl
@[simp] theorem State.updLows_gorge (s : State) (f : NatMap (BitVec 32) → NatMap (BitVec 32)) : (s.updLows f).gorge = s.gorge := rfl
@[simp] theorem State.updLows_wire (s : State) (f : NatMap (BitVec 32) → NatMap (BitVec 32)) : (s.updLows f).wire = s.wire := rfl
@[simp] theorem State.updLows_ports (s : State) (f : NatMap (BitVec 32) → NatMap (BitVec 32)) : (s.updLows f).ports = s.ports := rfl
@[simp] theorem State.updLows_delta (s : State) (f : NatMap (BitVec 32) → NatMap (BitVec 32)) : (s.updLows f).delta = s.delta := rfl
@[simp] theorem State.updLows_dram (s : State) (f : NatMap (BitVec 32) → NatMap (BitVec 32)) : (s.updLows f).dram = s.dram := rfl
@[simp] theorem State.updLows_cluster (s : State) (f : NatMap (BitVec 32) → NatMap (BitVec 32)) : (s.updLows f).cluster = s.cluster := rfl
@[simp] theorem State.updLows_spi (s : State) (f : NatMap (BitVec 32) → NatMap (BitVec 32)) : (s.updLows f).spi = s.spi := rfl
@[simp] theorem State.updLows_update (s : State) (f : NatMap (BitVec 32) → NatMap (BitVec 32)) : (s.updLows f).update = s.update := rfl
@[simp] theorem State.updLows_mgmt (s : State) (f : NatMap (BitVec 32) → NatMap (BitVec 32)) : (s.updLows f).mgmt = s.mgmt := rfl
@[simp] theorem State.updLows_pins (s : State) (f : NatMap (BitVec 32) → NatMap (BitVec 32)) : (s.updLows f).pins = s.pins := rfl
@[simp] theorem State.updLows_test (s : State) (f : NatMap (BitVec 32) → NatMap (BitVec 32)) : (s.updLows f).test = s.test := rfl
@[simp] theorem State.updLows_written (s : State) (f : NatMap (BitVec 32) → NatMap (BitVec 32)) : (s.updLows f).written = s.written := rfl
@[simp] theorem State.updLows_inForce (s : State) (f : NatMap (BitVec 32) → NatMap (BitVec 32)) : (s.updLows f).inForce = s.inForce := rfl
@[simp] theorem State.updLows_stored (s : State) (f : NatMap (BitVec 32) → NatMap (BitVec 32)) : (s.updLows f).stored = s.stored := rfl
@[simp] theorem State.updLows_latches (s : State) (f : NatMap (BitVec 32) → NatMap (BitVec 32)) : (s.updLows f).latches = s.latches := rfl
@[simp] theorem State.updLows_lows (s : State) (f : NatMap (BitVec 32) → NatMap (BitVec 32)) : (s.updLows f).lows = f s.lows := rfl
@[simp] theorem State.updLows_out (s : State) (f : NatMap (BitVec 32) → NatMap (BitVec 32)) : (s.updLows f).out = s.out := rfl
@[simp] theorem State.updLows_free (s : State) (f : NatMap (BitVec 32) → NatMap (BitVec 32)) : (s.updLows f).free = s.free := rfl
@[simp] theorem State.updOut_pending (s : State) (f : List Output → List Output) : (s.updOut f).pending = s.pending := rfl
@[simp] theorem State.updOut_mode (s : State) (f : List Output → List Output) : (s.updOut f).mode = s.mode := rfl
@[simp] theorem State.updOut_time (s : State) (f : List Output → List Output) : (s.updOut f).time = s.time := rfl
@[simp] theorem State.updOut_col (s : State) (f : List Output → List Output) : (s.updOut f).col = s.col := rfl
@[simp] theorem State.updOut_works (s : State) (f : List Output → List Output) : (s.updOut f).works = s.works := rfl
@[simp] theorem State.updOut_host (s : State) (f : List Output → List Output) : (s.updOut f).host = s.host := rfl
@[simp] theorem State.updOut_events (s : State) (f : List Output → List Output) : (s.updOut f).events = s.events := rfl
@[simp] theorem State.updOut_terrace (s : State) (f : List Output → List Output) : (s.updOut f).terrace = s.terrace := rfl
@[simp] theorem State.updOut_index (s : State) (f : List Output → List Output) : (s.updOut f).index = s.index := rfl
@[simp] theorem State.updOut_glen (s : State) (f : List Output → List Output) : (s.updOut f).glen = s.glen := rfl
@[simp] theorem State.updOut_basin (s : State) (f : List Output → List Output) : (s.updOut f).basin = s.basin := rfl
@[simp] theorem State.updOut_gorge (s : State) (f : List Output → List Output) : (s.updOut f).gorge = s.gorge := rfl
@[simp] theorem State.updOut_wire (s : State) (f : List Output → List Output) : (s.updOut f).wire = s.wire := rfl
@[simp] theorem State.updOut_ports (s : State) (f : List Output → List Output) : (s.updOut f).ports = s.ports := rfl
@[simp] theorem State.updOut_delta (s : State) (f : List Output → List Output) : (s.updOut f).delta = s.delta := rfl
@[simp] theorem State.updOut_dram (s : State) (f : List Output → List Output) : (s.updOut f).dram = s.dram := rfl
@[simp] theorem State.updOut_cluster (s : State) (f : List Output → List Output) : (s.updOut f).cluster = s.cluster := rfl
@[simp] theorem State.updOut_spi (s : State) (f : List Output → List Output) : (s.updOut f).spi = s.spi := rfl
@[simp] theorem State.updOut_update (s : State) (f : List Output → List Output) : (s.updOut f).update = s.update := rfl
@[simp] theorem State.updOut_mgmt (s : State) (f : List Output → List Output) : (s.updOut f).mgmt = s.mgmt := rfl
@[simp] theorem State.updOut_pins (s : State) (f : List Output → List Output) : (s.updOut f).pins = s.pins := rfl
@[simp] theorem State.updOut_test (s : State) (f : List Output → List Output) : (s.updOut f).test = s.test := rfl
@[simp] theorem State.updOut_written (s : State) (f : List Output → List Output) : (s.updOut f).written = s.written := rfl
@[simp] theorem State.updOut_inForce (s : State) (f : List Output → List Output) : (s.updOut f).inForce = s.inForce := rfl
@[simp] theorem State.updOut_stored (s : State) (f : List Output → List Output) : (s.updOut f).stored = s.stored := rfl
@[simp] theorem State.updOut_latches (s : State) (f : List Output → List Output) : (s.updOut f).latches = s.latches := rfl
@[simp] theorem State.updOut_lows (s : State) (f : List Output → List Output) : (s.updOut f).lows = s.lows := rfl
@[simp] theorem State.updOut_out (s : State) (f : List Output → List Output) : (s.updOut f).out = f s.out := rfl
@[simp] theorem State.updOut_free (s : State) (f : List Output → List Output) : (s.updOut f).free = s.free := rfl

end Sys2Proof.Machine
end

