-- ==== Sys2Proof/Laws/Finish.lean ====
section
/-! SUPPORT. What every command runs through: how a command answers, that it leaves the queue alone, and that nothing follows of
itself in a calm state. -/

namespace Sys2Proof.Machine

/-- Nothing follows of itself in a calm state. -/
theorem State.finish_of_calm {s : State} (h : Calm s) : s.finish = s := by
  obtain ⟨hw, hp, hl, hr, hh, hroom, hrings, hsteps, hdies⟩ := h
  unfold State.finish
  split
  · rfl
  · have e1 : s.settle = s := by simp [State.settle, hw]
    have e2 : s.retryPlaces = s := by simp [State.retryPlaces, hw]
    have e3 : s.lostSweep = s := by simp [State.lostSweep, hl]
    have e4 : s.pairSettle = s := by simp [State.pairSettle, hp]
    have e5 : s.testStarts = s := by simp [State.testStarts, hr]
    have e6 : s.fetchHoldUpdate = s := by
      unfold State.fetchHoldUpdate
      rw [if_neg (by omega)]
      show { s with host := { s.host with fetchHold := none } } = s
      rw [← hh]
    have e7 : s.diesTake = s := by simp [State.diesTake, hdies, hsteps]
    simp [e1, hw, e2, e3, e4, e5, e6, hrings, e7]

@[simp] theorem State.keepQueue_pending (s t : State) : (s.keepQueue t).pending = s.pending := rfl

/-- A state whose queue is the step's own stays as it is. -/
theorem State.keepQueue_of_eq {s t : State} (h : t.pending = s.pending) : s.keepQueue t = t := by
  unfold State.keepQueue State.setPending; rw [← h]

@[simp] theorem State.keepQueue_self (s : State) : s.keepQueue s = s := rfl

theorem State.act_pos {s : State} {ok : Bool} {f : State → State} (h : ok = true) :
    s.act ok f = .next (s.keepQueue (f s).finish) := by simp [State.act, h]

theorem State.act_neg {s : State} {ok : Bool} {f : State → State} (h : ok = false) : s.act ok f = .next s := by simp [State.act, h]

/-- A command that takes effect where nothing follows of itself. -/
theorem State.act_calm {s t : State} {ok : Bool} {f : State → State} (h : ok = true) (ht : f s = t) (hc : Calm t)
    (hq : t.pending = s.pending) : s.act ok f = .next t := by
  rw [State.act_pos h, ht, State.finish_of_calm hc, State.keepQueue_of_eq hq]

theorem State.stamped_wait {s : State} {ok : Bool} {f : State → State} (h : ok = true) :
    s.stamped ok false f = .next (s.keepQueue (f s).finish) := by simp [State.stamped, h]

theorem State.stamped_edge {s : State} {ok : Bool} {f : State → State} (h : ok = true) (hg : s.nextGrain < Config.maxGrain) :
    s.stamped ok true f = .next (s.keepQueue (f s).grainEdge) := by
  simp [State.stamped, h, Nat.not_le.2 hg]

/-- What `act` answers keeps the queue. -/
theorem State.act_queue {s t : State} {ok : Bool} {f : State → State} (h : s.act ok f = .next t) : t.pending = s.pending := by
  unfold State.act at h
  cases ok <;> simp at h <;> subst h <;> rfl

/-- What `stamped` answers keeps the queue. -/
theorem State.stamped_queue {s t : State} {ok edge : Bool} {f : State → State} (h : s.stamped ok edge f = .next t) :
    t.pending = s.pending := by
  unfold State.stamped at h
  split at h
  · cases h; rfl
  · split at h
    · cases h; rfl
    · split at h
      · cases h
      · cases h; rfl

end Sys2Proof.Machine
end

