-- ==== Sys2Proof/Laws/Ops.lean ====
section
/-! SUPPORT. What each shared operation can change, said once: the state it answers is the state it was given with new contents in
the named groups and in no other. -/

namespace Sys2Proof.Machine

variable (s : State)

/-- Sealing a slot touches the recorder only. -/
theorem State.sealSlot_frame (part : Bool) : ∃ x, s.sealSlot part = { s with terrace := x } := by
  unfold State.sealSlot
  split
  · exact ⟨s.terrace, rfl⟩
  · exact ⟨_, rfl⟩

/-- A record touches the recorder only. -/
theorem State.addRecord_frame (type : Nat) (st : Stamp) (data : Bytes) :
    ∃ x, (s.addRecord type st data).1 = { s with terrace := x } := by
  simp only [State.addRecord]
  split
  · split <;> exact ⟨_, rfl⟩
  · obtain ⟨x, hx⟩ := (s.updTerrace fun t => { t with nextSeq := (t.nextSeq + 1) % 4294967296 }).sealSlot_frame false
    rw [hx]
    split <;> exact ⟨_, rfl⟩

/-- A record with its "not kept" event touches the events and the recorder. -/
theorem State.record_frame (type : Nat) (st : Stamp) (data : Bytes) :
    ∃ e x, s.record type st data = { s with events := e, terrace := x } := by
  unfold State.record
  obtain ⟨x, hx⟩ := s.addRecord_frame type st data
  split
  · next t h => rw [h] at hx; exact ⟨s.events, x, hx⟩
  · next t h =>
    rw [h] at hx
    change t = _ at hx
    subst hx
    split
    · exact ⟨_, _, rfl⟩
    · next n l _ =>
      obtain ⟨y, hy⟩ := (({ s with terrace := x }.updEvents fun e => { e with limits := l }).raiseOnly 210 0 0 (eventData [(4, n)])).addRecord_frame 5 0
        (eventPayload 210 0 true (eventData [(4, n)]))
      exact ⟨_, _, hy⟩

/-- A raise without a record touches the events. -/
theorem State.raiseOnly_frame (source fn : Nat) (st : Stamp) (data : BitVec 128) :
    ∃ e, s.raiseOnly source fn st data = { s with events := e } := ⟨_, rfl⟩

/-- A raise with its record touches the events and the recorder. -/
theorem State.raise_frame (source fn : Nat) (st : Stamp) (type : Nat) (data : BitVec 128) :
    ∃ e x, s.raise source fn st type data = { s with events := e, terrace := x } := by
  obtain ⟨e, x, h⟩ := (s.raiseOnly source fn st data).record_frame type st (eventPayload source fn true data)
  exact ⟨e, x, h⟩

/-- A raise under a limit touches the events and the recorder. -/
theorem State.raiseLimited_frame (source sub fn : Nat) (st : Stamp) (type : Option Nat) (data : Nat → BitVec 128) :
    ∃ e x, s.raiseLimited source sub fn st type data = { s with events := e, terrace := x } := by
  unfold State.raiseLimited
  split
  · exact ⟨_, _, rfl⟩
  · next n l _ =>
    cases type with
    | none => exact ⟨_, _, rfl⟩
    | some ty =>
      obtain ⟨e, x, h⟩ := (s.updEvents fun e => { e with limits := l }).raise_frame source fn st ty (data n)
      exact ⟨e, x, h⟩

/-- A count on a port touches the port's counters, and the events at a half range. -/
theorem State.count_frame (p i n : Nat) :
    ∃ e, s.count p i n = { (s.updPort p fun x => { x with cnt := mapSet x.cnt i ((mapGet 0 x.cnt i + n) % 2 ^ 40) }) with events := e } := by
  have h : (s.updPort p fun x => { x with cnt := mapSet x.cnt i ((mapGet 0 (s.port p).cnt i + n) % 2 ^ 40) }) =
      s.updPort p fun x => { x with cnt := mapSet x.cnt i ((mapGet 0 x.cnt i + n) % 2 ^ 40) } := rfl
  simp only [State.count, h]
  split
  · exact ⟨_, rfl⟩
  · exact ⟨_, rfl⟩

/-- The end of transmit LPI touches the ports and the events. -/
theorem State.lpiTxEnd_frame (p : Nat) : ∃ x e, s.lpiTxEnd p = { s with ports := x, events := e } := by
  simp only [State.lpiTxEnd]
  split
  · obtain ⟨e, h⟩ := (s.updPort p fun x => { x with lpiTx := false }).count_frame p 71 (s.localUs - (s.port p).lpiTxAt)
    rw [h]; exact ⟨_, _, rfl⟩
  · exact ⟨_, _, rfl⟩

/-- Queueing a frame touches the ports and the events. -/
theorem State.enqueue_frame (p : Nat) (f : TxFrame) : ∃ x e, s.enqueue p f = { s with ports := x, events := e } := by
  simp only [State.enqueue]
  split
  · obtain ⟨x, e, h⟩ := (s.updPort p fun x => { x with queue := x.queue ++ [{ f with
      src := x.config.unicast.headD 0, express := decide (s.filterResult (f.fields p) = 0) }] }).lpiTxEnd_frame p
    rw [h]; exact ⟨_, _, rfl⟩
  · obtain ⟨e, h⟩ := s.count_frame p 73 1
    rw [h]; exact ⟨_, _, rfl⟩

/-- An arrival at the intake touches Col. -/
theorem State.arrive_frame (e : Event) : ∃ c, s.arrive e = { s with col := c } := ⟨_, rfl⟩

/-- A draw of the DRBG touches Gorge and the count of free values. -/
theorem State.drbg_frame : ∃ g f, s.drbg = { s with gorge := g, free := f } := ⟨_, _, rfl⟩

/-- Work on a cipher pair touches Gorge and the count of free values. -/
theorem State.maskRun_frame (blocks : Nat) : ∃ g f, s.maskRun blocks = { s with gorge := g, free := f } := by
  have two (g : Gorge) : ∃ g' f, ({ s with gorge := g } : State).drbg.drbg = { s with gorge := g', free := f } := by
    obtain ⟨g1, f1, h1⟩ := State.drbg_frame { s with gorge := g }
    obtain ⟨g2, f2, h2⟩ := State.drbg_frame { s with gorge := g1, free := f1 }
    exact ⟨g2, f2, by rw [h1, h2]⟩
  simp only [State.maskRun]
  split
  · exact ⟨_, _, rfl⟩
  · split
    · exact two _
    · exact ⟨_, _, rfl⟩

/-- A SECURE frame's pass does the same. -/
theorem State.frameUnit_frame (bytes : Nat) : ∃ g f, s.frameUnit bytes = { s with gorge := g, free := f } := by
  obtain ⟨g, f, h⟩ := State.maskRun_frame (s.updGorge fun g => { g with secureFrames := inc64 g.secureFrames }) (ceilDiv bytes 16)
  exact ⟨g, f, h⟩

/-- A session frame touches the session, Gorge with the count of free values, the ports and the events; where the frame counter is
exhausted, the session's reset arrives at Col instead. -/
theorem State.sendFrame_frame (n type flags : Nat) (seq : BitVec 32) (index count : Nat) (payload : Bytes) :
    ∃ w g x e c f, s.sendFrame n type flags seq index count payload =
      { s with wire := w, gorge := g, ports := x, events := e, col := c, free := f } := by
  simp only [State.sendFrame]
  split
  · exact ⟨_, _, _, _, _, _, rfl⟩
  · split
    · exact ⟨_, _, _, _, _, _, rfl⟩
    · obtain ⟨x, e, h⟩ := State.enqueue_frame _ _ _
      rw [h]
      split
      · obtain ⟨g, f, h⟩ := s.frameUnit_frame payload.length
        rw [h]; exact ⟨_, _, _, _, _, _, rfl⟩
      · exact ⟨_, _, _, _, _, _, rfl⟩

/-- The events of a pool at its mark touch the events and the recorder. -/
theorem State.lowEvents_frame (p : Nat) : ∃ e x, s.lowEvents p = { s with events := e, terrace := x } := by
  have both (t : State) (d : Nat → BitVec 128) (c : Prop) [Decidable c] :
      ∃ e x, (if c then t.raiseLimited 176 0 0 0 (some 0x400) d else t) = { t with events := e, terrace := x } := by
    split
    · exact t.raiseLimited_frame ..
    · exact ⟨_, _, rfl⟩
  simp only [State.lowEvents]
  obtain ⟨e, x, h⟩ := both s (fun n => eventData [(1, p), (4, (s.pool p).free), (4, s.lowWater p), (4, n)]) ((s.pool p).free = s.lowWater p)
  rw [h]
  obtain ⟨e, x, h⟩ := both { s with events := e, terrace := x } (fun n => eventData [(1, p), (4, (s.pool p).free), (4, s.rxReserve), (4, n)])
    (p = 3 ∧ (s.pool p).free = s.rxReserve)
  exact ⟨e, x, h⟩

/-- Taking a buffer touches Basin, the events and the recorder. -/
theorem State.takeBuffer_frame (p : Nat) (o : OwnerTag) :
    ∃ b e x, (s.takeBuffer p o).1 = { s with basin := b, events := e, terrace := x } := by
  simp only [State.takeBuffer]
  obtain ⟨e, x, h⟩ := State.lowEvents_frame _ p
  rw [h]
  exact ⟨_, _, _, rfl⟩

/-- A handle that fails its checks touches Basin's counters, the events and the recorder. -/
theorem State.handleFault_frame (h : Handle) (o : OwnerTag) (op check : Nat) :
    ∃ b e x, s.handleFault h o op check = { s with basin := b, events := e, terrace := x } := by
  simp only [State.handleFault]
  split
  · obtain ⟨e, x, h⟩ := State.raiseLimited_frame _ 178 0 0 0 (some 0x401) _
    rw [h]; exact ⟨_, _, _, rfl⟩
  · split
    · obtain ⟨e, x, h⟩ := State.raiseLimited_frame _ 179 0 0 0 (some 0x401) _
      rw [h]; exact ⟨_, _, _, rfl⟩
    · obtain ⟨e, x, h⟩ := State.raiseLimited_frame _ 180 0 0 0 (some 0x401) _
      rw [h]; exact ⟨_, _, _, rfl⟩

/-- A release touches Basin, the events and the recorder. -/
theorem State.freeBuffer_frame (h : Handle) (o : OwnerTag) :
    ∃ b e x, s.freeBuffer h o = { s with basin := b, events := e, terrace := x } := by
  simp only [State.freeBuffer]
  split
  · exact ⟨_, _, _, rfl⟩
  · exact s.handleFault_frame h o 2 _

/-- An event of the physical function is raised, or kept for the entry into REBUILD. -/
theorem State.raiseDevice_frame (source type : Nat) (st : Stamp) (data : BitVec 128) :
    ∃ u e x, s.raiseDevice source type st data = { s with update := u, events := e, terrace := x } := by
  unfold State.raiseDevice
  split
  · exact ⟨_, _, _, rfl⟩
  · exact ⟨_, _, _, rfl⟩
  · obtain ⟨e, x, h⟩ := s.raise_frame source 0 st type data
    exact ⟨_, _, _, h⟩

/-- A sealing of the time touches the time, the events and the recorder. -/
theorem State.timeSeal_frame (st : Stamp) : ∃ t e x, s.timeSeal st = { s with time := t, events := e, terrace := x } := by
  simp only [State.timeSeal]
  split
  · exact ⟨_, _, _, rfl⟩
  · obtain ⟨e, x, h⟩ := State.record_frame _ 2 st _
    rw [h]; exact ⟨_, _, _, rfl⟩

/-- A change of time quality touches the time, the events, the recorder and the events kept for REBUILD. -/
theorem State.setQuality_frame (q : Quality) (st : Stamp) :
    ∃ t u e x, s.setQuality q st = { s with time := t, update := u, events := e, terrace := x } := by
  simp only [State.setQuality]
  split
  · exact ⟨_, _, _, _, rfl⟩
  · obtain ⟨u, e, x, h⟩ := State.raiseDevice_frame _ 16 0x100 st _
    rw [h]
    split
    · split
      · obtain ⟨e, x, h⟩ := State.raise_frame _ 24 0 0 0x103 _
        rw [h]
        obtain ⟨t, e, x, h⟩ := State.timeSeal_frame _ _
        rw [h]; exact ⟨_, _, _, _, rfl⟩
      · obtain ⟨t, e, x, h⟩ := State.timeSeal_frame _ _
        rw [h]; exact ⟨_, _, _, _, rfl⟩
    · exact ⟨_, _, _, _, rfl⟩

end Sys2Proof.Machine
end

