-- ==== Sys2Proof/Tests/Slice0.lean ====
section
/-! SUPPORT. Tests of the model: well-formedness refuses each ill-formed term, no word spells a command, witnesses of the statements'
hypotheses, and small results taken from the spec's examples and tables. -/

namespace Sys2Proof.Tests

open Machine

set_option maxRecDepth 8000

/-! ## Helpers -/

/-- A descriptor of zeros. -/
def zero : Descriptor where
  opcode := 0
  flags := 0
  tag := 0
  ns := 0
  keyLen := 0
  valLen := 0
  timeout := 0
  aux := 0
  stampArg := 0
  valAddr := 0
  keyField := 0

/-- A command on data ring 3, on the admin ring of function 0, on session 7, on the management path. -/
def onRing (d : Descriptor) (area : Area := []) : Submission := { carrier := .ring 3, desc := d, area := area }
def onAdmin (d : Descriptor) (area : Area := []) : Submission := { carrier := .admin 0, desc := d, area := area }
def onWire (q : BitVec 32) (d : Descriptor) (area : Area := []) : Submission := { carrier := .wire 7 q, desc := d, area := area }
def onMgmt (d : Descriptor) (area : Area := []) : Submission := { carrier := .mgmt, desc := d, area := area }

/-- A device in SERVICE in grain 5, LOCKED, with function 0, its ring 3, namespace 1 on key page 0, buffers in every pool. -/
def ready : State := { State.reset with
  mode := .service
  time := { running := true, isSet := true, quality := .locked, lockedBoot := true, counter := 5 * Config.grainUnit }
  host := { fns := [(0, { ctrl := 1, admReady := true })], rings := [(3, { fn := 0 })] }
  basin := { pools := (List.range 8).map fun p => (p, { count := 1024, free := 1024 }) }
  index := { spaces := [(1, { params := { secure := true, expiry := true, horizon := 1 } })], wseqEnd := 1024 }
  gorge := { pages := [(0, { current := { number := 1 }, reserved := 1024 })], drbg := 1 }
  delta := { inUse := [0] } }

/-- The state and work in which a command alone in its grain executes, where it passes its checks. -/
def aloneAt (s : State) (c : Submission) : Option (State × Work) :=
  match (s.submit c).col.intake with
  | [.cmd a] =>
    if s.powered = true ∧ s.time.running = true ∧ s.nextGrain < Config.maxGrain ∧ a.c = c ∧ (s.submit c).col.carry = [] ∧
        (s.submit c).grain = s.grain ∧ (s.submit c).powered = true then
      match atStamp ((s.submit c).updCol fun k => { k with intake := [], carry := [], last := stampOf s.grain 0 }) a (stampOf s.grain 0) with
      | some (b, w) => if (isAdminOp w.op = true → b.adminFail w.sub = none) ∧ b.orderHeld w = false then some (b, w) else none
      | none => none
    else none
  | _ => none

/-- A command executes alone in a state, and what executes meets a test. -/
def meets (s : State) (c : Submission) (p : State → Work → Bool) : Bool :=
  match aloneAt s c with
  | some (b, w) => p b w
  | none => false

/-- What the test means: the hypotheses of a statement about a command at its stamp hold together. -/
theorem alone_of_meets {s : State} {c : Submission} {p : State → Work → Bool} (h : meets s c p = true) :
    ∃ b w, Alone s c b w ∧ p b w = true := by
  unfold meets at h
  split at h
  · next b w e =>
    refine ⟨b, w, ?_, h⟩
    unfold aloneAt at e
    split at e
    · next a ha =>
      split at e
      · next hc =>
        obtain ⟨h1, h2, h3, h4, h5, h6, h7⟩ := hc
        split at e
        · next b' w' hs =>
          split at e
          · next hf =>
            cases e
            exact ⟨h1, h2, h3, ⟨a, h4, ha, h5, h6, h7, hs⟩, hf.1, hf.2⟩
          · cases e
        · cases e
      · cases e
    · cases e
  · cases h

/-! ## Well-formed commands, and words -/

/-- A well-formed command of each kind of operand. -/
theorem test_well_formed : ∀ i ∈ ([.get (onRing zero [(0, [1, 2]), (2, [3])]) true, .put (onWire 5 zero) false, .timeGet (onAdmin zero) true,
    .nop (onMgmt zero) true, .proposeCompletion 1023 0 true, .sqTail 63 4095 7, .holeRestore 1, .registerWrite 63 4 0 8 0, .bufferGrant 7,
    .bufferRelease ⟨7, 9, 255⟩ ⟨5, 4159⟩ true, .gorgeWorkUnit (.laneMismatch [15]), .idleTimerExpiry 3 true, .pcieLinkChange 5 16,
    .msixVectorUnmask 0 2047, .msixVectorUnmask 1 31] : List Instr), wellFormed i = true := by decide

/-- Carriers, functions, contexts and memories that do not exist are refused. -/
theorem test_ill_formed_carriers : ∀ i ∈ ([.get ⟨.ring 4096, zero, []⟩ true, .timeGet ⟨.admin 64, zero, []⟩ true,
    .put ⟨.wire 4096 0, zero, []⟩ true, .put (onRing zero [(0, [])]) true, .put (onRing zero [(0, [1, 2]), (1, [3])]) true,
    .vendorDefinedRequest ⟨.ring 4096, zero, []⟩ true, .sqTail 64 0 0, .sqTail 0 4096 0, .cqHead 64 0 0, .cqHead 0 4096 0,
    .adminSqTail 64 0, .adminCqHead 64 0, .eventHead 64 0, .admEnSet 64, .admEnClear 64, .evtEnSet 64, .evtEnClear 64,
    .dataRingFetch 4096 [], .dataRingFetch 0 [(0, [(0, [])])], .adminRingFetch 64 [], .adminRingFetch 0 [(0, [(0, [])])],
    .fetchFailure (.data 4096) 0, .fetchFailure (.admin 64) 0, .heldTimeout 4096, .functionLevelReset 64 true, .d3hotEntry 64, .d0Return 64,
    .msixVectorUnmask 64 0, .msixVectorUnmask 0 2048, .msixVectorUnmask 1 32, .registerWrite 64 0 0 4 0, .registerWrite 0 1 0 4 0,
    .registerWrite 0 0 0 3 0, .latchingRead 64 0 0 4, .latchingRead 0 3 0 4, .latchingRead 0 0 0 16] : List Instr),
    wellFormed i = false := by decide

/-- A whole frame of an unknown type. -/
def received (port len : Nat) (tag : Option Nat) : RxFrame :=
  { port := port, len := len, codeError := false, fcsOk := true, dst := 0, tag := tag, etherType := 0x1234, layers := {}, fragments := 0
    mergeError := false }

/-- Pairs, sessions, ports, pools, handles and tables out of range are refused. -/
theorem test_ill_formed_numbers : ∀ i ∈ ([.proposeCompletion 1024 0 true, .markCompletion 1024 true, .proposeSend 1024, .markSend 1024,
    .bulkCopyStep 1024 [] true, .bulkCopyStep 1 [.soft 8] true, .peerLost 1024, .pairMessageRetransmit 1024 0, .peerSessionFrameReceive ⟨1024, 3, true, 0, 0, 0, 0, 0, []⟩ true, .ackSend 4096,
    .creditSend 4096, .reassemblyTimeout 4096 0, .keepalivePing 4096, .keepaliveExpiry 4096 true, .frameCounterExhausted 4096 true,
    .sessionFree 4096, .sessionOpenResolveTimeout 4096, .responseSegmentSend 4096 0, .frameTransmit 16 false false, .thresholdDecay 16,
    .controlFrameReceive 16 (.lldp none false), .syncReceive ⟨16, 0, 0, 0, 0⟩, .announceReceive ⟨16, 0, 0, 0, 0, false⟩, .announceReceiptTimeout 16,
    .pdelayReqReceive 16 0 0 0 0 0, .delayReqSend 16, .autonegPageReceived 16, .linkTrainingDone 16 0, .c2mLinkUp 16 0, .trainingTimeout 16,
    .autonegRestart 16, .linkFault 16 2, .preemptVerifyDone 16 true, .lpiEntry 16, .receiveLpi 16 true, .lldpTransmit 16,
    .frameReceive (received 16 64 none), .frameReceive (received 0 64 (some 4096)),
    .bufferGrant 8, .waitListTimeout 8, .bufferRelease ⟨8, 0, 0⟩ ⟨0, 0⟩ true, .bufferRelease ⟨0, 0, 256⟩ ⟨0, 0⟩ true,
    .bufferRelease ⟨0, 0, 0⟩ ⟨6, 0⟩ true, .bufferRelease ⟨0, 0, 0⟩ ⟨0, 4160⟩ true, .gorgeWorkUnit (.laneMismatch [16]), .entropyTestFailure 2,
    .holeRestore 2, .calendarStartEdge 32 true, .calendarEndEdge 32 true, .idleTimerExpiry 0 true, .idleTimerExpiry 4 true,
    .checkerLock 65536, .checkerLockLoss 65536, .testStop 0 [⟨65536, 0, 0, 0⟩], .linkTestEnd [⟨65536, 0, 0, 0⟩],
    .testDurationEnd [⟨65536, 0, 0, 0⟩], .pcieLinkChange 6 16, .pcieLinkChange 5 17, .getCertificate 8 0 0, .challenge 8 0] : List Instr),
    wellFormed i = false := by decide

/-- A Lerfold frame and a map datagram with fields of the right widths. -/
def frame (port : Nat) (vlan : Option Nat) : LfFrame :=
  { port := port, srcIp := 0, srcPort := 0, dstIp := 0, vlan := vlan, udpLen := 32, header := ⟨0x4C46, 1, 6, 7, 0, 0, 0, 0, 1, 0, 0, 0⟩, counter := 0
    tag := 0, payload := [] }
def datagram (port type version epoch stamp : Nat) : MapDatagram := ⟨port, 0, 0, type, 0x4C4D, version, epoch, 1, 0, 0, 0, stamp, 0, true, []⟩
/-- A population of four dies on each channel. -/
def dies : NandPopulation := ⟨0, 2, 2, 1000, 3072, 0, 0, 1000, [0, 1, 2, 3], [], [], []⟩

/-- Frames, datagrams, media and memory that the device cannot have are refused. -/
theorem test_ill_formed_media : ∀ i ∈ ([.pingReceive (frame 16 none), .pongReceive (frame 0 (some 4096)), .requestSegmentReceive (frame 16 none),
    .mapPublishReceive (datagram 16 1 1 0 0) true, .mapPublishReceive (datagram 0 256 1 0 0) true, .mapPublishReceive (datagram 0 1 256 0 0) true,
    .mapPublishReceive (datagram 0 1 1 (2 ^ 32) 0) true, .mapRequestReceive (datagram 0 1 1 0 (2 ^ 64)), .fillDone ⟨0, 4, 1, none⟩ ⟨true, true, 0, false, true, false, false⟩,
    .fillDone ⟨0, 0, 0, none⟩ ⟨true, true, 0, false, true, false, false⟩, .fillDone ⟨0, 3, 2, none⟩ ⟨true, true, 0, false, true, false, false⟩,
    .fillDone ⟨0, 0, 1, some (4, 0)⟩ ⟨true, true, 0, false, true, false, false⟩, .rebuildRun ⟨{ dies with ces := 0 }, 0, 0, 0, 0⟩,
    .rebuildRun ⟨{ dies with ces := 5 }, 0, 0, 0, 0⟩, .rebuildRun ⟨{ dies with luns := 3 }, 0, 0, 0, 0⟩,
    .rebuildRun ⟨{ dies with present := [4] }, 0, 0, 0, 0⟩, .rebuildRun ⟨{ dies with failedCh := [32] }, 0, 0, 0, 0⟩,
    .rebuildRun ⟨{ dies with refused := [(32, 0, 1)] }, 0, 0, 0, 0⟩, .rebuildRun ⟨{ dies with refused := [(0, 16, 1)] }, 0, 0, 0, 0⟩, .rebuildRun ⟨{ dies with bad := [(0, 0, 1000)] }, 0, 0, 0, 0⟩,
    .codewordReadDone 32 0 .failed true, .codewordReadDone 0 16 .failed true, .codewordReadDone 0 0 (.soft 8) true, .gcStep [.hard 8 0] true true,
    .foldingStep [.soft 8] true true, .refreshStep [.soft 8] true true, .secureDeleteRelocationStep 0 [.soft 8] true, .patrolReread 0 32 [] true,
    .checkpointTimer [(⟨4, 0, 0, none⟩, .clean)] true, .mergeEntryRetire ⟨0, 0, 1, none⟩ .idle .clean, .scrubRead ⟨0, 0, 0, none⟩ (.corrected [160]),
    .rebuildRun ⟨dies, 6, 0, 0, 0⟩, .programDone 66 true, .programFailure 66 0 true, .programFailure 0 32 true, .eraseDone 32 0 0 true, .eraseDone 0 16 0 true,
    .eraseFailure 32 0 0 true, .eraseFailure 0 16 0 true, .forcedProgramIdle 66, .forcedProgramWriteThrough 66, .patrolRead 0 32 0 [.failed, .failed, .failed, .failed] true, .patrolRead 0 0 0 [.failed] true,
    .metadataMerge 0 0 32 0 true true, .metadataMerge 0 0 0 16 true true, .namespaceRemovalDone 1024, .rekeySweepStep 256 [] true true,
    .scrubRead ⟨4, 0, 0, none⟩ .clean, .scrubRead ⟨0, 2, 0, none⟩ .clean, .scrubRead ⟨0, 0, 1, none⟩ .clean, .glenScrub 64 0 .clean] : List Instr),
    wellFormed i = false := by decide

/-- The table gives its rows no bits: no word spells a command, and none is put in front of the queue. -/
theorem test_no_word_spells_a_command (nbits w : Nat) : decodeTableWord nbits w = none ∧ ready.withFetchWord nbits w = ready := ⟨rfl, rfl⟩

/-- The first two bytes and the key bytes of a GET stand where R73 puts them. -/
theorem test_descriptor_bytes : ({ zero with opcode := 1, tag := 0x1234, ns := 2, keyLen := 4, stampArg := 0x8000, keyField := 0x44434241 }).bytes =
    [1, 0, 0x34, 0x12, 2, 0, 4, 0, 0, 0, 0, 0, 0, 0, 0, 0, 0, 0x80, 0, 0, 0, 0, 0, 0] ++ zeros 8 ++ [0x41, 0x42, 0x43, 0x44] ++ zeros 28 := by decide

/-! ## Witnesses: commands at their stamp -/

/-- A block of zeros with fields (offset, width, value) set. -/
def block (n : Nat) (l : List (Nat × Nat × Nat)) : Bytes := l.foldl (fun b e => patch b e.1 (leBytes e.2.1 e.2.2)) (zeros n)
/-- Parameters (descriptor offset, value) as a key field. -/
def params (l : List (Nat × Nat)) : BitVec 256 := BitVec.ofNat 256 (l.map fun e => e.2 * 2 ^ (8 * (e.1 - 0x20))).sum
/-- An admin command with parameters, and with a block at address 0x1000. -/
def admin (op : Nat) (l : List (Nat × Nat)) : Submission := onAdmin { zero with opcode := BitVec.ofNat 8 op, keyField := params l }
def adminBlock (op : Nat) (b : Bytes) : Submission :=
  onAdmin { zero with opcode := BitVec.ofNat 8 op, valAddr := 0x1000, valLen := BitVec.ofNat 32 b.length } [(0x1000, b)]
/-- A data command on the inline key "ABCD" of namespace 1. -/
def keyed (op : Nat) : Submission :=
  onRing { zero with opcode := BitVec.ofNat 8 op, flags := 4, ns := 1, keyLen := 4, keyField := 0x44434241 }
/-- A device with another function state, key pages, session, pair. -/
def withSession (s : State) : State := { s with
  wire := { sessions := [(7, { params := { port := 2 }, seg := 1024 })] }
  ports := { ports := [(2, { config := { enable := true }, everSet := true, link := .up })], quads := [3, 255, 255, 255] } }
def targetPair (st : PairState) (cut : Nat) : Pair :=
  { number := 1, kind := 1, target := true, peer := 9, session := 7, slices := [5], state := st, cutover := cut }
def withPair (p : Pair) : State := { withSession ready with
  mode := .paired, cluster := { role := .worker, pairs := [p] } }

theorem witness_ReadingCommandsAnswer :
    meets ready (onRing (withOpcode 0x22 (keyed 0)).desc) (fun b w => b.peerPair w.carrier = none ∧ b.cutHolds w = false) = true ∧
    meets ready (withOpcode 0x21 (onRing { zero with stampArg := 65535 })) (fun b w => b.cutHolds w = false ∧ w.carrier.context = some 3) = true ∧
    meets ready (withOpcode 0xA1 (admin 0 [])) (fun _ _ => true) = true ∧
    meets ready (withOpcode 0xA0 (admin 0 [(0x20, 5)])) (fun _ w => w.desc.param 0x20 1 = 5) = true ∧
    meets (withSession ready) (withOpcode 0xA0 (onAdmin { zero with valLen := 160, keyField := params [(0x20, 6), (0x22, 7)] }))
      (fun b w => w.desc.param 0x20 1 = 6 ∧ 160 ≤ w.desc.valLen.toNat ∧ (b.session? (w.desc.param 0x22 2)).any (fun x => x.state ≠ .resolving ∧ x.fn = w.fn)) = true ∧
    meets ready (withOpcode 0xB2 (admin 0 [])) (fun _ _ => true) = true ∧
    meets ready (withOpcode 0xC1 (withParam 0x20 0 (admin 0 []))) (fun _ _ => true) = true ∧
    meets ready (withOpcode 0xC1 (withParam 0x20 1 (onAdmin { zero with ns := 1 })))
      (fun b w => 1 ≤ w.desc.ns.toNat ∧ w.desc.ns.toNat < 1024 ∧ (b.spaceAt w.desc.ns.toNat w.stamp).isSome) = true ∧
    meets ready (withOpcode 0xA8 (withParam 0x20 0 (admin 0 []))) (fun _ w => w.fn = 0 ∧ w.desc.stampArg = 0) = true ∧
    meets { ready with terrace := { pages := [⟨1, 1, 0, false, false, 0, [], 0⟩] } } (withOpcode 0xA8 (withParam 0x20 1 (onAdmin { zero with valLen := 16384 })))
      (fun b w => w.fn = 0 ∧ w.desc.stampArg = 0 ∧ 16384 ≤ w.desc.valLen.toNat ∧ b.terrace.pages ≠ []) = true := by decide

/-- A sub-page area holds 64 bytes of data, 63 do not. -/
theorem witness_ReturnedDataFitTheArea :
    (∃ w : Work, w = (onMgmt { zero with valLen := 64 }).work 0 5 .admin ∧ (zeros 64).length ≤ w.desc.valLen.toNat ∧ w.carrier = .mgmt) ∧
    (∃ w : Work, w = (onAdmin { zero with valLen := 64, valAddr := 0x1000 }).work 0 5 .admin ∧ (zeros 64).length ≤ w.desc.valLen.toNat ∧
      w.carrier = .admin 0 ∧ ∃ p, valuePieces w.sub 64 = .ok p) ∧
    (∃ w : Work, w = (onMgmt { zero with valLen := 63 }).work 0 5 .admin ∧ w.desc.valLen.toNat < (zeros 64).length) :=
  ⟨⟨_, rfl, by decide⟩, ⟨_, rfl, by decide, by decide, _, rfl⟩, ⟨_, rfl, by decide⟩⟩

/-- A session block of IPv4 on port 2, with its client and own address. -/
def sessionBlock : Bytes :=
  block 128 [(0, 1, 4), (2, 1, 2), (6, 2, 7209), (8, 4, 0x0200000A), (0x18, 4, 0x0100000A)]

theorem witness_ContextAndSessionCommands :
    meets ready (withOpcode 0x80 (onAdmin { zero with
        stampArg := 0x2000, valAddr := 0x3000, keyField := params [(0x20, 4095), (0x22, 4), (0x23, 16), (0x24, 0), (0x26, 1)] }))
      (fun b w => w.desc.stampArg.toNat % 4096 = 0 ∧ w.desc.valAddr.toNat % 4096 = 0 ∧ 4 ≤ w.desc.param 0x22 1 ∧ w.desc.param 0x22 1 ≤ 16 ∧
        4 ≤ w.desc.param 0x23 1 ∧ w.desc.param 0x23 1 ≤ 16 ∧ w.desc.param 0x24 2 ≤ maxVector w.fn ∧ w.desc.param 0x26 2 < 2 ∧
        w.desc.param 0x28 24 = 0 ∧ w.desc.param 0x20 2 < 4096 ∧ b.contextUsed (w.desc.param 0x20 2) = false) = true ∧
    meets ready (withOpcode 0x82 (admin 0 [(0x20, 3)])) (fun b w => (b.ring? (w.desc.param 0x20 2)).any fun r => r.fn = w.fn) = true ∧
    meets ready (withOpcode 0x81 (admin 0 [(0x20, 3)])) (fun b w => (b.ring? (w.desc.param 0x20 2)).any fun r => r.fn = w.fn) = true ∧
    meets (withSession ready) (withOpcode 0x99 (admin 0 [(0x20, 7)]))
      (fun b w => (b.session? (w.desc.param 0x20 2)).any fun x => x.fn = w.fn ∧ x.state = .open_) = true := by decide

theorem witness_SessionOpens :
    meets { withSession ready with ports := { ports := [(2, { config := { enable := true, ip0 := ⟨4, 8, none, 0x0A000001000000000000000000000000#128, 0⟩ }, everSet := true, link := .up })], quads := [3, 255, 255, 255] } }
      (withOpcode 0x98 (adminBlock 0 sessionBlock))
      (fun b w => w.block 128 = .ok sessionBlock ∧ b.sessionBlockFail sessionBlock = none ∧ bitOf (field sessionBlock 1 1) 0 = false ∧
        b.freeContext.isSome ∧ b.macOf 2 (BitVec.ofNat 128 (fieldBe sessionBlock 0x18 16)) (BitVec.ofNat 128 (fieldBe sessionBlock 8 16)) = none) = true := by
  decide

/-- NAMESPACE_SET's valid bits with a key page, and each other row of the statement. -/
theorem witness_NamespaceAndHoldCommands :
    meets ready (withOpcode 0x88 (onAdmin { zero with ns := 1023, keyField := params [(0x20, 1)] }))
      (fun b w => w.desc.ns.toNat ≠ 0 ∧ w.desc.ns.toNat < 1024 ∧ (mapGet? b.index.removing w.desc.ns.toNat).isNone ∧
        (b.space? w.desc.ns.toNat).isNone ∧ b.nsSetFail w none = none) = true ∧
    meets ready (withOpcode 0x88 (onAdmin { zero with ns := 1, keyField := params [(0x20, 2), (0x24, 34560000)] }))
      (fun b w => (mapGet? b.index.removing 1).isNone ∧ (b.space? 1).any fun n => n.params.owner = w.fn ∧ b.nsSetFail w (some n) = none) = true ∧
    meets ready (withOpcode 0x89 (onAdmin { zero with ns := 1 }))
      (fun b w => b.update.active = none ∧ b.nsFail 0x89 1 = none ∧ (b.space? 1).any fun n => n.params.owner = w.fn) = true ∧
    meets ready (withOpcode 0xA3 (admin 0 []))
      (fun b w => w.desc.stampArg = 0 ∧ b.index.holds = [] ∧ b.index.spaces ≠ [] ∧ b.index.holds.length < Config.holdPoints) = true ∧
    meets ready (withOpcode 0xA3 (onAdmin { zero with stampArg := BitVec.ofNat 64 (stampOf 5 0 + 1) }))
      (fun _ w => w.desc.stampArg.toNat ≠ 0 ∧ w.stamp < w.desc.stampArg.toNat) = true ∧
    meets { ready with index := { ready.index with spaces := [(1, { floor := 5 })] } } (withOpcode 0xA3 (onAdmin { zero with stampArg := 4 }))
      (fun b w => w.desc.stampArg.toNat = 4 ∧ 4 ≤ w.stamp ∧ b.index.holds = [] ∧ b.protectable 4 w.stamp = []) = true ∧
    meets ready (withOpcode 0xA3 (onAdmin { zero with stampArg := BitVec.ofNat 64 (stampOf 5 0) }))
      (fun b w => w.desc.stampArg.toNat ≤ w.stamp ∧ b.index.holds = [] ∧ b.protectable w.desc.stampArg.toNat w.stamp ≠ []) = true ∧
    meets { ready with index := { ready.index with holds := [⟨77, [1]⟩] } } (withOpcode 0xA4 (onAdmin { zero with stampArg := 77 }))
      (fun b w => (b.index.holds.find? fun x => x.stamp = w.desc.stampArg.toNat).isSome) = true := by decide

/-- KEY_PAGE_LOAD without a KEK, with the random number generator stopped, and each outcome of RETIRE; the clauses about unwrapped keys and
signatures rest on functions of log entry 2, of which no value can be shown. -/
theorem witness_KeyCommands :
    meets ready (withOpcode 0x90 (withParam 0x22 0 (admin 0 [(0x20, 255)])))
      (fun b w => (b.fn w.fn).kek = none ∧ w.desc.param 0x20 2 ≤ 255 ∧ (b.keyPage? 255).isNone) = true ∧
    meets { ready with gorge := { ready.gorge with drbg := 2 } } (withOpcode 0x90 (withParam 0x22 1 (admin 0 []))) (fun b _ => b.drbgReady = false) = true ∧
    meets { ready with gorge := { pages := [(9, { current := { number := 2 }, previous := some { number := 1 } })], drbg := 1 } }
      (withOpcode 0x91 (admin 0 [(0x20, 9)]))
      (fun b w => (b.keyPage? (w.desc.param 0x20 2)).any (fun p => p.owner = w.fn ∧ p.previous.isSome) ∧ b.sweepLeft 9 = 0 ∧ b.works = []) = true ∧
    meets { ready with gorge := { pages := [(9, { current := { number := 2 } })], drbg := 1 } } (withOpcode 0x91 (admin 0 [(0x20, 9)]))
      (fun b w => (b.keyPage? (w.desc.param 0x20 2)).any (fun p => p.owner = w.fn ∧ p.previous = none) ∧ b.pageNamespaces 9 = 0) = true ∧
    meets ready (withOpcode 0x91 (admin 0 [])) (fun b w => (b.keyPage? 0).any (fun p => p.owner = w.fn ∧ p.previous = none) ∧ b.pageNamespaces 0 ≠ 0) = true ∧
    meets ready (withOpcode 0xA9 (adminBlock 0 (block 144 [(0, 4, 1)])))
      (fun b w => w.carrier = .admin 0 ∧ w.block 144 = .ok (block 144 [(0, 4, 1)]) ∧ b.clearFail (block 144 [(0, 4, 1)]) = some (.conditionFailed, 0)) = true := by
  decide

/-- A trial of the running slot. -/
def trial : State := { ready with spi := { up := { state := .trial, boots := 1 } } }

theorem witness_FirmwareCommands :
    meets ready (withOpcode 0xB0 (onAdmin { zero with valAddr := 0x1000, valLen := 1 } [(0x1000, [0xAB])]))
      (fun b w => b.update.active = none ∧ b.update.quiesce = 0 ∧ 1 ≤ w.desc.valLen.toNat ∧ w.desc.stampArg.toNat % 4096 = 0 ∧
        w.desc.stampArg.toNat + w.desc.valLen.toNat ≤ Config.stagingSize ∧ w.block w.desc.valLen.toNat = .ok [0xAB]) = true ∧
    meets { ready with pins := { holdupStable := true } } (withOpcode 0xB1 (admin 0 []))
      (fun b _ => b.update.active = none ∧ b.update.quiesce = 0 ∧ b.inTrial = false ∧ b.activateRefusal = none) = true ∧
    meets ready (withOpcode 0xB1 (admin 0 [])) (fun b _ => b.update.active = none ∧ b.inTrial = false ∧ b.activateRefusal = some 1) = true ∧
    meets trial (withOpcode 0xB1 (admin 0 [])) (fun b _ => b.inTrial = true) = true ∧
    meets trial (withOpcode 0xB3 (admin 0 [])) (fun b _ => b.inTrial = true ∧ b.update.expired = false) = true ∧
    meets ready (withOpcode 0xB3 (admin 0 [])) (fun b _ => b.inTrial = false) = true ∧
    (ready.spi.lock = false ∧ ready.test.run = none ∧ ready.cluster.pairs = [] ∧ ready.pins.holdupStable = false) ∧
    ({ ready with spi := { lock := true } }).spi.lock = true ∧ ({ ready with test := { run := some { block := [] } } }).test.run ≠ none ∧
    (withPair (targetPair .copying 0)).cluster.pairs ≠ [] := by decide

theorem witness_DownloadsWaitForActivation :
    meets { ready with update := { active := some 3 } } (withOpcode 0xB0 (admin 0 [])) (fun b _ => b.update.active ≠ none) = true := by decide

/-- CONFIGURE on a configured port 2 with its default limit 10, SET_TOD of a PPS source, READMIT in and out of LOST, a window. -/
def ptp : State := { withSession ready with time := { ready.time with config := { timePort := 2, limit := 10 } } }
theorem witness_TimeCommands :
    meets ptp (withOpcode 0xA5 (withParam 0x20 0 (admin 0 [(0x22, 2), (0x23, 255), (0x24, 11)])))
      (fun b w => b.timeSetFail w.desc = none ∧ b.time.config.timePort = (timeConfigOf w.desc b.time.config).timePort ∧
        b.time.config.source = (timeConfigOf w.desc b.time.config).source ∧ b.time.config.backup = (timeConfigOf w.desc b.time.config).backup) = true ∧
    meets (withSession ready) (withOpcode 0xA5 (withParam 0x20 0 (admin 0 [(0x22, 2), (0x23, 255), (0x24, 1000)])))
      (fun b w => b.timeSetFail w.desc = none ∧ b.time.config.timePort ≠ (timeConfigOf w.desc b.time.config).timePort) = true ∧
    meets { ready with time := { ready.time with config := { source := 1 } } } (withOpcode 0xA5 (withParam 0x20 1 (onAdmin { zero with stampArg := 99 })))
      (fun b w => b.timeSetFail w.desc = none) = true ∧
    meets { ready with time := { ready.time with quality := .lost, relocked := true } } (withOpcode 0xA5 (withParam 0x20 2 (admin 0 [])))
      (fun b w => b.timeSetFail w.desc = none ∧ b.time.quality = .lost ∧ b.time.relocked = true) = true ∧
    meets ready (withOpcode 0xA5 (withParam 0x20 2 (admin 0 []))) (fun b w => b.timeSetFail w.desc = none ∧ b.time.quality ≠ .lost) = true ∧
    meets ready (withOpcode 0xA2 (onAdmin { zero with
      stampArg := 1000, keyField := params [(0x20, 31), (0x21, 1), (0x22, 3), (0x23, 0), (0x24, 255), (0x28, 999), (0x30, 1000)] }))
      (fun _ w => scheduleFail w.desc = none) = true := by decide

/-- A pair's block: kind 1, source, peer 9, one slice, IPv4 port 2. -/
def pairBlock : Bytes := block 626 [(0, 1, 1), (2, 2, 9), (6, 2, 1), (0x16, 1, 2), (0x17, 1, 4), (0x18, 4, 0x0200000A), (0x28, 2, 7209), (0x270, 2, 5)]
/-- An UNCERTAIN pair of a side, on an admin ring's function 0. -/
def uncertain (target : Bool) : State := { ready with
  mode := .paired, cluster := { role := .worker, pairs := [{ targetPair .uncertain 4 with target := target }] } }

theorem witness_ClusterAndPortCommands :
    meets ready (withOpcode 0xB8 (admin 0 [(0x20, 2)])) (fun b w => w.desc.param 0x20 1 = 2 ∧ b.mode = .service ∧ b.cluster.pairs = []) = true ∧
    meets (uncertain false) (withOpcode 0xB8 (admin 0 [(0x20, 2)])) (fun b w => w.desc.param 0x20 1 < 3 ∧ b.mode ≠ .service) = true ∧
    meets { withSession ready with cluster := { role := .worker } } (withOpcode 0xB9 (withAreaByte 0 (adminBlock 0
        (block 64 [(1, 1, 4), (2, 2, 7), (4, 2, 1), (6, 2, 7210), (8, 1, 2), (0x20, 4, 0x010000E0), (0x30, 4, 0x0100000A)]))))
      (fun b w => match w.block 64 with
        | .ok h => field h 0 1 = 0 ∧ b.identityFail h = none ∧ b.cluster.role ≠ .standalone ∧ b.index.keys = [] ∧ b.cluster.pairs = []
        | .error _ => false) = true ∧
    (∀ t, t ∈ [false, true] → ∀ o, o ∈ [0, 1, 2] → meets (uncertain t) (withOpcode 0xBB (withParam 0x22 o (admin 0 [(0x20, 1)])))
      (fun b w => (b.cluster.pairs.find? fun p => p.number = w.desc.param 0x20 2).any fun p => p.fn = w.fn ∧ p.state = .uncertain ∧ p.target = t) = true) ∧
    meets ready (withOpcode 0xC2 (withAreaByte 0 (adminBlock 0 (block 160 [(1, 1, 3), (2, 1, 255)]))))
      (fun b w => match w.block 0xA0 with
        | .ok k => field k 0 1 = 0 ∧ field k 1 1 = 3 ∧ field k 2 1 = 255 ∧ allZero (slice k 0xC 4) = true ∧ allZero (slice k 0x88 24) = true ∧
          (∀ p ∈ quadPorts 3, (b.port p).config.enable = false)
        | .error _ => false) = true ∧
    meets { ready with ports := { quads := [3, 255, 255, 255] } } (withOpcode 0xC2 (withAreaByte 1 (adminBlock 0
        (block 160 [(1, 1, 2), (6, 2, 1518), (8, 1, 1), (0xA, 2, 256), (0x10, 1, 2)]))))
      (fun b w => match w.block 0xA0 with
        | .ok k => field k 0 1 = 1 ∧ b.portFail k = none ∧ b.portRefused (field k 1 1) (portConfigOf k) = false
        | .error _ => false) = true ∧
    meets ready (withOpcode 0xC2 (withAreaByte 2 (adminBlock 0 (block 160 [(4, 2, 65535)]))))
      (fun b w => match w.block 0xA0 with
        | .ok k => field k 0 1 = 2 ∧ field k 4 2 = 65535 ∧ allZero (slice k 0xC 4) = true ∧ allZero (slice k 0x88 24) = true ∧ b.wire.sessions = []
        | .error _ => false) = true := by decide

theorem witness_PairStartAndLinkTest :
    meets { withSession ready with cluster := { role := .manager } } (withOpcode 0xBA (adminBlock 0 pairBlock))
      (fun b w => w.block 0x270 = .ok (pairBlock.take 624) ∧ b.pairBlockFail (pairBlock.take 624) = none ∧ w.block 626 = .ok pairBlock ∧
        (∀ i ∈ pairSlices pairBlock 1, i < Config.slices) ∧ field pairBlock 1 1 = 0 ∧ bitOf (field pairBlock 0x15 1) 0 = false ∧ b.pairRefused pairBlock = false ∧
        b.index.holds.length ≤ Config.holdPoints) = true ∧
    meets (withSession ready) (withOpcode 0xBA (adminBlock 0 pairBlock))
      (fun b w => w.block 626 = .ok pairBlock ∧ b.pairBlockFail (pairBlock.take 624) = none ∧ b.pairRefused pairBlock = true) = true ∧
    meets { ready with ports := { quads := [3, 255, 255, 255] } }
      (withOpcode 0xC0 (onAdmin { zero with valAddr := 0x1000, valLen := 48 } [(0x1000, block 48 [(0, 1, 1), (4, 4, 3600000), (8, 4, 8)])]))
      (fun b w => match w.block 32 with
        | .ok k => b.mode = .service ∧ b.blockFail k false = none ∧ 16 + 32 * (testTargets k b.delta.inUse).length ≤ w.desc.valLen.toNat ∧
          b.testConflict w k = false
        | .error _ => false) = true ∧
    meets (uncertain false) (withOpcode 0xC0 (admin 0 [])) (fun b _ => b.mode ≠ .service) = true := by decide

theorem witness_LinkTestEnds :
    (∃ r : TestRun, r = { block := [], started := 5, quiesced := false } ∧ ({ ready with
      test := { run := some r }, time := { ready.time with counter := 300005 * Config.grainUnit } }).cored = true ∧ r.started + 300000 ≤ 300005) ∧
    (∃ r : TestRun, r = { block := [], stamp := some 9, started := 4, quiesced := true, kind := 2, duration := 0 } ∧
      r.started + 1000 * r.duration ≤ ready.grain ∧ r.kind ≠ 1 ∧ ({ ready with test := { run := some r } }).cored = true) :=
  ⟨⟨_, rfl, by decide, by decide⟩, ⟨_, rfl, by decide, by decide, by decide⟩⟩

/-- A message of a peer: its kind and its origin or cutover stamp, on the key "ABCD" behind the descriptor. -/
def peer (op kind stamp arg : Nat) : Submission :=
  onWire 1 { zero with opcode := BitVec.ofNat 8 op, ns := 1, keyLen := 4, stampArg := BitVec.ofNat 64 arg
                       keyField := params [(0x20, 64), (0x32, kind), (0x38, stamp)] } [(0, zeros 64 ++ [0x41, 0x42, 0x43, 0x44])]
/-- The peer's pair, in a state where its message executes. -/
def fromPeer (b : State) (w : Work) (p : Pair → Bool) : Bool :=
  (b.peerPair w.carrier).any p

/-- PROPOSE two grains ahead of its stamp is accepted, one grain ahead refused; MARK of the grain committed to, and of another. -/
theorem witness_PairMessages :
    meets (withPair (targetPair .copying 0)) (withOpcode 0x22 (withParam 0x32 3 (peer 0x22 0 0 0))) (fun b w => fromPeer b w fun _ => true) = true ∧
    meets (withPair (targetPair .copying 0)) (withOpcode 0x22 (withParam 0x32 4 (peer 0x22 0 (7 * 4096) 0)))
      (fun b w => fromPeer b w fun p => p.state = .copying ∧ p.kind ≠ 2 ∧ grainOf w.stamp + 2 ≤ grainOf (w.desc.param 0x38 8) ∧ b.time.quality = .locked) = true ∧
    meets (withPair (targetPair .copying 0)) (withOpcode 0x22 (withParam 0x32 4 (peer 0x22 0 (6 * 4096) 0)))
      (fun b w => fromPeer b w fun _ => grainOf (w.desc.param 0x38 8) < grainOf w.stamp + 2) = true ∧
    meets (withPair (targetPair .committed 6)) (withOpcode 0x22 (withParam 0x32 5 (peer 0x22 0 (6 * 4096) 0)))
      (fun b w => fromPeer b w fun p => p.state = .committed ∧ p.cutover = grainOf (w.desc.param 0x38 8)) = true ∧
    meets (withPair (targetPair .committed 6)) (withOpcode 0x22 (withParam 0x32 5 (peer 0x22 0 (7 * 4096) 0)))
      (fun b w => fromPeer b w fun p => p.cutover ≠ grainOf (w.desc.param 0x38 8)) = true ∧
    meets (withPair (targetPair .copying 0)) (withOpcode 0x02 (withParam 0x32 2 (peer 0 0 0 20480))) (fun b w => fromPeer b w fun _ => true) = true ∧
    meets (withPair (targetPair .copying 0)) (withParam 0x32 1 (peer 0x10 0 0 0)) (fun b w => fromPeer b w fun _ => w.op = 0x10) = true := by decide

/-- The state after a command has been added to those in flight, for the gate's questions. -/
def gateSees (p : State → State → Work → Bool) (b : State) (w : Work) : Bool :=
  (b.peerPair w.carrier).isNone && !b.cutHolds w && p b (b.addWork w) w

/-- A BATCH area of one PUT item: header of 32 bytes, then the key. -/
def batchArea : Bytes := block 36 [(0, 1, 0x10), (2, 2, 4), (0x10, 4, 32), (0x20, 4, 0x44434241)]
def batchC : Submission := onRing { zero with opcode := 0x14, ns := 1, aux := 1, valAddr := 0x1000, valLen := 36 } [(0x1000, batchArea)]

/-- Every write of the table passes its checks alone, with a gate that is not stalled; and one meets a stalled gate. -/
theorem witness_WritesEnterTheGate :
    (∀ op, op ∈ [0x10, 0x11, 0x12, 0x13, 0x15] → meets ready (withOpcode op (keyed 0))
      (gateSees fun b u w => b.update.active = none ∧ u.gateStalled w.stamp = false) = true) ∧
    meets ready (withOpcode 0x14 batchC) (gateSees fun _ u w => u.gateStalled w.stamp = false) = true ∧
    meets { ready with gorge := {} } (withOpcode 0x10 (keyed 0)) (gateSees fun _ u w => u.gateStalled w.stamp = false ∧
      (u.takeUses w.page w.gen w.writeUnits false w.stamp).2 = none) = true ∧
    meets ready (withOpcode 0x10 (keyed 0)) (gateSees fun _ u w => (u.takeUses w.page w.gen w.writeUnits false w.stamp).2 = some 0 ∧
      ((u.takeUses w.page w.gen w.writeUnits false w.stamp).1.gateJoin 1 w.fps w.stamp).2 = true) = true := by decide

theorem witness_ReadsEnterTheGate :
    (∀ op, op ∈ [1, 3] → meets ready (withOpcode op (onRing { (keyed 0).desc with valLen := 24, valAddr := 0x1000 }))
      (gateSees fun _ u w => u.gateStalled w.stamp = false ∧ u.readMayGo w = true) = true) ∧
    meets ready (withOpcode 2 (onRing { (keyed 0).desc with stampArg := 20480 })) (gateSees fun _ u w => u.readMayGo w = true) = true ∧
    meets ready (withOpcode 4 (onRing { zero with ns := 1, valLen := 544, valAddr := 0x1000 })) (gateSees fun _ u w => u.readMayGo w = true) = true ∧
    meets ready (withOpcode 0x20 (onRing zero)) (gateSees fun _ _ _ => true) = true := by decide

/-- A command in flight on ring 3, stamped 9, in a phase; a device with it. -/
def work (op : Nat) (ph : Phase) : Work := { (keyed op).work 0 9 ph with key := [0x41, 0x42, 0x43, 0x44], bound := 9 }
def with1 (w : Work) : State := { ready with works := [w] }
/-- The fingerprint of the key "ABCD" of namespace 1, and the key with one version. -/
def fpABCD : BitVec 64 := ready.fingerprint 1 [0x41, 0x42, 0x43, 0x44]
def withKey (s : State) : State := { s with
  index := { s.index with keys := [⟨1, fpABCD, [0x41, 0x42, 0x43, 0x44], [{ stamp := 4, value := [7] }], false⟩] } }

/-- A stalled gate, and a read that an earlier write of its key holds. -/
theorem witness_GateHolds :
    meets { ready with works := [{ work 0x10 .ordered with carrier := .ring 4, stamp := 1 }] } (withOpcode 0x10 (keyed 0))
      (gateSees fun _ u w => u.gateStalled w.stamp = true) = true ∧
    meets { ready with works := [{ work 0x10 .ordered with carrier := .ring 4, stamp := 1 }] } (withOpcode 1 (keyed 0))
      (gateSees fun _ u w => u.gateStalled w.stamp = true) = true ∧
    meets { ready with glen := { inflight := [{ ns := 1, fp := fpABCD, pending := [9] }] } } (withOpcode 1 (keyed 0))
      (gateSees fun _ u w => u.gateStalled w.stamp = false ∧ u.readMayGo w = false) = true ∧
    meets { ready with glen := { inflight := [{ ns := 1, fp := fpABCD, pending := [9] }] } } (withOpcode 0x10 (keyed 0))
      (gateSees fun _ u w => match u.takeUses w.page w.gen w.writeUnits false w.stamp with
        | (v, some _) => (v.gateJoin 1 w.fps w.stamp).2 = true ∧ (v.gateJoin 1 w.fps w.stamp).1.writeMayGo { w with phase := .gate } = false
        | _ => false) = true := by decide

/-- A write at the gate with its one item. -/
def writeAt (op arg : Nat) : Work :=
  { work op .gate with items := [{ opcode := op, key := [0x41, 0x42, 0x43, 0x44], value := [1], arg := arg, fp := fpABCD, cold := false }] }
theorem witness_GateDecides :
    (∃ (s : State) (w : Work), s = with1 (work 1 .gate) ∧ w = work 1 .gate ∧ s.clocked = true ∧ s.work? 9 = some w ∧ s.orderHeld w = false ∧
      s.readMayGo w = true ∧ (s.spaceAt 1 9).isSome = true ∧ (s.keyEntry 1 w.key).any KeyEntry.poisoned = false ∧
      look (s.chain 1 w.key) w.bound (grainOf w.stamp) w.stamp = .missing 0 0) ∧
    (∃ (s : State) (w : Work), s = withKey (with1 (work 1 .gate)) ∧ w = work 1 .gate ∧ s.work? 9 = some w ∧ s.readMayGo w = true ∧
      look (s.chain 1 w.key) w.bound (grainOf w.stamp) w.stamp = .found { stamp := 4, value := [7] }) ∧
    (∃ (s : State) (w : Work), s = withKey (with1 (writeAt 0x11 5)) ∧ w = writeAt 0x11 5 ∧ s.work? 9 = some w ∧ s.writeMayGo w = true ∧
      w.isApply = false ∧ ∃ i v, w.items = [i] ∧ w.op = i.opcode ∧ s.itemLook w i = .found v ∧ i.arg ≠ v.stamp) ∧
    (∃ (s : State) (w : Work), s = with1 (writeAt 0x12 0) ∧ w = writeAt 0x12 0 ∧ s.work? 9 = some w ∧ s.writeMayGo w = true ∧
      ∃ i, w.items = [i] ∧ w.op = i.opcode ∧ i.opcode = 0x12 ∧ s.itemLook w i = .missing 0 0) ∧
    (∃ (s : State) (w : Work) (n : Namespace), s = { with1 (writeAt 0x10 0) with index := { spaces := [(1, n)] } } ∧ w = writeAt 0x10 0 ∧
      n = { params := { quota := 1 } } ∧ s.work? 9 = some w ∧ s.writeMayGo w = true ∧ s.spaceAt 1 9 = some n ∧
      ∃ items, s.itemsDecide w w.items 0 = .ok items ∧ n.params.quota < s.quotaCount 1 + (items.map Item.charge).sum) :=
  ⟨⟨_, _, rfl, rfl, by decide, by decide, by decide, by decide, by decide, by decide, by decide⟩,
   ⟨_, _, rfl, rfl, by decide, by decide, by decide⟩,
   ⟨_, _, rfl, rfl, by decide, by decide, by decide, _, _, rfl, by decide, rfl, by decide⟩,
   ⟨_, _, rfl, rfl, by decide, by decide, _, rfl, by decide, by decide, rfl⟩,
   ⟨_, _, _, rfl, rfl, rfl, by decide, by decide, rfl, _, rfl, by decide⟩⟩

/-- Every kind of completion of a step of the pipeline, with nothing else to stamp; a handle that passes, and one out of range. -/
theorem witness_PipelineActsAtItsStamps :
    ready.clocked = true ∧ ready.quiet = true ∧ ready.grain + 1 < Config.maxGrain ∧
    (∃ w, (with1 (work 1 .dma)).work? 9 = some w ∧ w.phase = .dma ∧ w.dropped = false) ∧
    (∃ w, (with1 { work 1 .dma with dropped := true }).work? 9 = some w ∧ w.phase = .dma ∧ w.dropped = true) ∧
    (∃ w, (with1 (work 0x10 .buffer)).work? 9 = some w ∧ w.ponr = false ∧ w.posted = false ∧ w.phase ≠ .dma) ∧
    (∃ w, (with1 (work 0x10 .journal)).work? 9 = some w ∧ w.phase = .journal ∧ (with1 w).journalRoom w.items.length = true ∧ w.op ≠ 0x13 ∧ w.isApply = false) ∧
    (∃ w, (with1 (work 0x13 .journal)).work? 9 = some w ∧ w.phase = .journal ∧ w.op = 0x13) ∧
    (∃ w, (with1 { work 1 .cipher with data := [1], unit := 2 }).work? 9 = some w ∧ w.ponr = false ∧ w.data ≠ [] ∧ isReadOp w.op = true ∧
      w.phase = .cipher ∧ (if w.early then 1 else 2) ≤ w.unit) ∧
    (∃ w, (with1 { work 1 .gate with deadline := 5 }).work? 9 = some w ∧ w.deadline ≠ 0 ∧ w.deadline ≤ ready.grain ∧ w.catchable = true ∧ (with1 w).waits w = true) ∧
    (∃ w, (with1 { work 1 .cipher with deadline := 5 }).work? 9 = some w ∧ w.deadline ≠ 0 ∧ (with1 w).waits w = false) ∧
    ({ ready with basin := { pools := [(2, { count := 4, free := 3, buffers := [(3, { gen := 1, alloc := true, owner := ⟨2, 3⟩ })] })] } }).checkHandle ⟨2, 3, 1⟩ ⟨2, 3⟩ none = 0 ∧
    ready.checkHandle ⟨2, 1024, 0⟩ ⟨2, 3⟩ none = 1 :=
  ⟨by decide, by decide, by decide, ⟨_, rfl, rfl, rfl⟩, ⟨_, rfl, rfl, rfl⟩, ⟨_, rfl, rfl, rfl, by decide⟩, ⟨_, rfl, rfl, rfl, by decide, by decide⟩,
   ⟨_, rfl, rfl, by decide⟩, ⟨_, rfl, rfl, by decide, by decide, rfl, by decide⟩, ⟨_, rfl, by decide, by decide, by decide, by decide⟩,
   ⟨_, rfl, by decide, by decide⟩, by decide, by decide⟩

/-- Cipher units of a write and a read, first and last; a SECURE frame; an index update in each state; a waiter; the generator's states. -/
theorem witness_PipelineMovesOn :
    (∃ w, (with1 { work 0x10 .cipher with units := 2 }).nextUnit = some w ∧ isWriteOp w.op = true ∧ w.unit + 1 < w.units) ∧
    (∃ w, (with1 { work 0x10 .cipher with units := 1 }).nextUnit = some w ∧ isWriteOp w.op = true ∧ w.units ≤ w.unit + 1) ∧
    (∃ w, (with1 { work 1 .cipher with units := 2 }).nextUnit = some w ∧ isWriteOp w.op = false ∧ w.unit + 1 < w.units) ∧
    (∃ w, (with1 { work 1 .cipher with units := 1 }).nextUnit = some w ∧ isWriteOp w.op = false ∧ w.units ≤ w.unit + 1 ∧ w.handles = []) ∧
    ready.gorge.rx = [] ∧ ready.pairs ≠ [] ∧ ({ ready with gorge := { rx := [frame 0 none] } }).gorge.rx = frame 0 none :: [] ∧
    (∃ w, (with1 { work 0x10 .index with ponr := true, posted := true }).work? 9 = some w ∧ w.phase = .index ∧ w.ponr = true ∧ w.posted = true) ∧
    (∃ w, (with1 { work 0x13 .index with ponr := true }).work? 9 = some w ∧ w.ponr = true ∧ w.posted = false ∧ w.op = 0x13) ∧
    (∃ w, (with1 { work 0x10 .index with ponr := true }).work? 9 = some w ∧ w.ponr = true ∧ w.posted = false ∧ w.op ≠ 0x13) ∧
    (∃ s : State, s = { ready with basin := { pools := [(2, { count := 4, free := 1, waiters := [⟨9, ⟨2, 3⟩, .work 9⟩], waitSince := 5 })] },
                                   time := { ready.time with counter := 10005 * Config.grainUnit } } ∧
      (s.pool 2).waiters = ⟨9, ⟨2, 3⟩, .work 9⟩ :: [] ∧ s.grantable 2 ⟨2, 3⟩ = true ∧ (s.pool 2).waitRaised = false ∧ (s.pool 2).waitSince + 10000 ≤ s.grain) ∧
    ({ ready with gorge := { drbg := 2 } }).gorge.drbg = 2 ∧ ({ ready with gorge := { drbg := 3 } }).gorge.drbg = 3 ∧ ready.mode.running = true :=
  ⟨⟨_, rfl, by decide, by decide⟩, ⟨_, rfl, by decide, by decide⟩, ⟨_, rfl, by decide, by decide⟩, ⟨_, rfl, by decide, by decide, rfl⟩,
   rfl, by decide, rfl, ⟨_, rfl, rfl, rfl, rfl⟩, ⟨_, rfl, rfl, rfl, by decide⟩, ⟨_, rfl, rfl, rfl, by decide⟩,
   ⟨_, rfl, rfl, by decide, rfl, by decide⟩, rfl, rfl, by decide⟩

/-- A session silent for three intervals, a used-up frame counter, a window at its start edge and at its end edge, an idle device, a trial that
has run out; a rule port and a lock port that are free. -/
def idleAt (p : Nat) : State := { ready with
  time := { ready.time with counter := 10 ^ 9 * Config.grainUnit }, inForce := { ready.inForce with power := BitVec.ofNat 32 (0x11 + 0x100 * (p + 1)) }
  host := { ready.host with power := p } }
theorem witness_HappeningsActAtTheirStamps :
    ({ ready with wire := { sessions := [(7, { params := { keepalive := 10 } })] }, time := { ready.time with counter := 30000 * Config.grainUnit } }).keepaliveDue 7 = true ∧
    ({ ready with wire := { sessions := [(7, { params := { secure := true }, txCounter := 2 ^ 64 - 1 })] } }).counterDone 7 = true ∧
    ({ ready with wire := { sessions := [(7, { params := { secure := true }, rxAny := true, rxHigh := 2 ^ 63 - 2 })] } }).counterDone 7 = true ∧
    (0 ≤ ready.host.vfs ∧ ready.works = [] ∧ ready.quiet = true) ∧
    ({ ready with delta := { sealed := true } }).delta.sealed = true ∧
    (∃ s : State, s = { ready with delta := { pop := some dies, inUse := [0], images := [(0, 1)] } } ∧ s.index.ckptNext ∉ s.index.heldSlices ∧
      s.delta.sealed = false ∧ s.delta.total ≠ 0 ∧ s.index.ckptNext ∉ s.index.ckptDirty ∧ (mapGet? s.delta.images s.index.ckptNext).isSome = true) ∧
    (∀ h, h ∈ [false, true] → ({ enable := true, period := 1000, start := 5, duration := 1, hold := h } : Window).startDue ready.grain = true) ∧
    ({ enable := true, period := 1000, start := 4, duration := 1, started := 5 } : Window).endDue ready.grain = true ∧
    (∀ p, p ∈ [1, 2, 3] → (idleAt (p - 1)).mode.serves = true ∧ (idleAt (p - 1)).outstanding = false ∧ (idleAt (p - 1)).host.exiting = none ∧
      (idleAt (p - 1)).host.power < p ∧ p ≤ (idleAt (p - 1)).powerLimit ∧ (idleAt (p - 1)).idleLong p = true) ∧
    ({ trial with spi := { up := { state := .trial, deadline := 5 } } }).trialDue = true ∧
    ready.glen.busy = false ∧ ready.update.lockBusy = false ∧ ready.update.busyWrite = false ∧ ready.lockCheck ready.lockToken ≠ 0 :=
  ⟨by decide, by decide, by decide, by decide, rfl, ⟨_, rfl, by decide, rfl, by decide, by decide, by decide⟩,
   by decide, by decide, by decide, by decide, rfl, rfl, rfl, by decide⟩

/-! ## Witnesses: the step, the queue, the host side -/

/-- A waiting command and a queue that stands behind it; a flushed device; a state and a grain in which the counter runs out. -/
def waits : State := { ready with pending := [.keepaliveExpiry 7 false, .nop (onRing zero) false] }
theorem witness_QueueAndAnswers :
    ready.pending = [] ∧ waits.pending = [.keepaliveExpiry 7 false] ++ [.nop (onRing zero) false] ∧ wellFormed (.keepaliveExpiry 7 false) = true ∧
    wellFormed (.nop (onRing zero) false) = true ∧ (∃ t, runFor 1 waits = some t) ∧
    ready.grain + 2 ^ 52 + 1 ≥ Config.maxGrain ∧
    ({ ready with pins := { pwrFail := true } }).pins.pwrFail = true ∧ Instr.gcStep [] true false ≠ Instr.pwrFailRelease :=
  ⟨rfl, rfl, by decide, by decide, ⟨_, rfl⟩, by decide, rfl, by decide⟩

/-- Both byte ranges of a write and an erase inside and outside, in a canonical memory; versions in order: found, deleted, expired, secured, none. -/
theorem witness_DataOfTheBlock :
    Memory.wf [(5, 1), (9, 2)] = true ∧ (∃ b : Bytes, b.length = 64) ∧
    ([{ stamp := 9 }, { stamp := 4 }] : List Version).Pairwise (fun a b => b.stamp < a.stamp) ∧
    look [{ stamp := 9 }, { stamp := 4 }] 8 0 20 = .found { stamp := 4 } ∧ look [{ stamp := 9 }] 8 0 20 = .missing 0 0 ∧
    look [{ stamp := 9, kind := .tombstone }] 9 0 20 = .missing 1 9 ∧ look [{ stamp := 9, expiry := 7 }] 9 7 20 = .missing 2 9 ∧
    look [{ stamp := 9, secured := 12 }] 9 0 13 = .missing 3 12 ∧ look [{ stamp := 9, secured := 12 }] 9 0 12 = .found { stamp := 9, secured := 12 } ∧
    ready.asOfFail 1 21 20 = some (.futureStamp, 0) ∧ ready.asOfFail 1 20480 20480 = none :=
  ⟨by decide, ⟨zeros 64, by decide⟩, by decide, by decide, by decide, by decide, by decide, by decide, by decide, by decide, by decide⟩

theorem witness_CompletionsPost :
    (∃ r, ready.ring? 3 = some r ∧ (ready.fn r.fn).d3hot = false) ∧
    (∃ (s : State) (r : Ring), s = { ready with host := { fns := [(0, { d3hot := true })], rings := [(3, { intr := true })] } } ∧ s.ring? 3 = some r ∧
      r.intr = true ∧ (s.fn r.fn).d3hot = true) := ⟨⟨_, rfl, rfl⟩, ⟨_, _, rfl, rfl, rfl, rfl⟩⟩

/-- The management path serves in SERVICE; SPDM before, at and behind its opening; a slot that the device does not have. -/
theorem witness_ManagementAndSpdm :
    ready.mctpServes = true ∧ ready.firmwareServes = true ∧ ({ ready with mgmt := { alert := true } }).mgmt.alert = true ∧ ready.mgmt.spdm = 0 ∧
    (∀ n, n ∈ [1, 2, 3] → ({ ready with mgmt := { spdm := n } }).firmwareServes = true ∧ ({ ready with mgmt := { spdm := n } }).mgmt.spdm = n) ∧
    (ready.measurement 17).isSome = true ∧ ready.measurement 99 = none ∧ (0x05 : BitVec 8) ∈ ([0x00, 0x01, 0x05, 0x7E, 0xFF] : Bytes) := by decide

/-- Indices at the ends of their ranges: a tail of 15 and of 16 entries; heads that return nothing, one slot, and more than is posted. -/
def rung (r : Ring) (x : Fn) : State := { ready with host := { fns := [(0, x)], rings := [(3, r)] } }
theorem witness_Doorbells :
    ready.powered = true ∧ ready.mode.running = true ∧ ready.ring? 3 = some {} ∧ 15 < 2 ^ ({} : Ring).sqSize ∧ 2 ^ ({} : Ring).sqSize ≤ 16 ∧
    ready.ring? 9 = none ∧ (ready.fn 0).ctrl.getLsbD 0 = true ∧ (ready.fn 1).ctrl.getLsbD 0 = false ∧
    (∃ (s : State) (r : Ring), r = { cqTail := 0, cqHead := 15, posted := 1 } ∧ s = rung r { ctrl := 1, admin := r } ∧ s.ring? 3 = some r ∧
      r.cqHead < r.cqLen ∧ 0 = (r.cqHead + 1) % r.cqLen ∧ 1 ≤ r.posted ∧ r.posted < (1 + r.cqLen - r.cqHead) % r.cqLen ∧
      r = (s.fn 0).admin ∧ (s.fn 0).ctrl.getLsbD 0 = true) ∧
    (∃ (s : State) (e : EventRing), e = { live := true, tail := 1, head := 15 } ∧ s = rung {} { events := e } ∧ e = (s.fn 0).events ∧ e.head < 2 ^ e.size ∧
      2 ≤ (e.tail + 2 ^ e.size - e.head) % 2 ^ e.size ∧ 1 = (e.head + 2) % 2 ^ e.size ∧
      (e.tail + 2 ^ e.size - e.head) % 2 ^ e.size < (2 + 2 ^ e.size - e.head) % 2 ^ e.size) ∧ (ready.fn 0).events.live = false :=
  ⟨by decide, by decide, rfl, by decide, by decide, rfl, by decide, by decide,
   ⟨_, _, rfl, rfl, rfl, by decide, by decide, by decide, by decide, rfl, by decide⟩,
   ⟨_, _, rfl, rfl, rfl, by decide, by decide, by decide, by decide⟩, by decide⟩

/-- Ring sizes at both ends of 4 to 12 and just outside, the highest vector of function 0, and enable bits that are set. -/
theorem witness_RingEnables :
    (∀ n, n ∈ [4, 12] → ∃ x : Fn, x = { admCfg := BitVec.ofNat 32 (2047 * 65536 + n * 256 + n), evtCfg := BitVec.ofNat 32 (2047 * 65536 + n) } ∧
      x = (rung {} x).fn 0 ∧ x.ctrl.getLsbD 0 = false ∧ x.ctrl.getLsbD 1 = false ∧ x.admCfg.toNat % 16 = n ∧ x.admCfg.toNat / 256 % 16 = n ∧
      x.admCfg.toNat / 65536 % 2048 ≤ maxVector 0 ∧ x.evtCfg.toNat % 16 = n ∧ x.evtCfg.toNat / 65536 % 2048 ≤ maxVector 0) ∧
    maxVector 0 < 2048 ∧ maxVector 1 < 2047 ∧
    (∀ n, n ∈ [3, 13] → ((BitVec.ofNat 32 n).toNat % 16 < 4 ∨ 12 < (BitVec.ofNat 32 n).toNat % 16)) ∧
    (rung {} { ctrl := 3 }).works = [] ∧ (rung {} { ctrl := 3 }).col.intake = [] ∧ (rung {} { ctrl := 3 }).col.carry = [] ∧
    ((rung {} { ctrl := 3 }).fn 0).ctrl.getLsbD 0 = true ∧ ((rung {} { ctrl := 3 }).fn 0).ctrl.getLsbD 1 = true := by
  refine ⟨fun n hn => ⟨_, rfl, rfl, ?_⟩, by decide, by decide, by decide, by decide⟩
  simp only [List.mem_cons, List.mem_nil_iff, or_false] at hn
  rcases hn with rfl | rfl <;> decide

/-- An access outside GLOBAL and TEST in BOOT, at each end of the TEST block; accesses of each kind in SERVICE. -/
theorem witness_RegisterAccess :
    ({ ready with mode := .boot }).powered = true ∧ ({ ready with mode := .boot }).mode = .boot ∧
    (∀ off, off ∈ [0x10000, 0x1FFFFC, 0x210000] → 0x10000 ≤ off ∧ (off < 0x200000 ∨ 0x210000 ≤ off)) ∧
    (∀ a, a ∈ [0x140018, 0x180010, 0x20008, 0x2000C] → accessGood 0 a 4 = true) ∧ accessGood 0 0x20008 8 = true ∧ accessGood 0 0x20002 4 = false ∧
    accessGood 0 0x2000C 8 = false ∧ (ready.regWord 0 0 0x140018).any (fun e => e.1 = 0x140018 ∧ e.2.wide = false) = true ∧
    (ready.regWord 0 0 0x3A000).any (fun e => e.1 = 0x3A000 ∧ e.2.wide = true ∧ e.2.ro = true) = true ∧
    (ready.regWord 0 0 0x3A004).any (fun e => e.1 = 0x3A000 ∧ e.2.wide = true ∧ e.2.ro = true) = true ∧
    (ready.regAt 0 0 0x3A000).any (fun e => e.wide) = true ∧
    (ready.regWord 0 0 0xFFFFC).isNone = true ∧ mapGet? ready.latches (regKey 0 0 0x3A000) = none ∧
    mapGet? ({ ready with latches := [(regKey 0 0 0x3A000, 9)] }).latches (regKey 0 0 0x3A000) = some 9 ∧
    mapGet? ({ ready with lows := [(regKey 0 0 0x20008, 0x4000)] }).lows (regKey 0 0 0x20008) = some 0x4000 ∧
    ((rung {} {}).fn 0).ctrl.getLsbD 0 = false := by decide

/-- A split of 64 MiB, one of 65 and one with 3 for pool 3; bank assignments by default; tables to restore; a port busy and free. -/
def splitTo (a : Nat) : State := { ready with
  basin := { pools := (List.range 8).map fun p => (p, { next := if p = 0 then a else if p = 3 then 16 - a else 8 }) } }
theorem witness_SavesAndOperationPorts :
    ready.cored = true ∧ ((List.range 8).map fun p => ((splitTo 8).pool p).next).sum = 64 ∧ ((List.range 8).map fun p => ((splitTo 17).pool p).next).sum = 65 ∧
    (∀ n ∈ (List.range 8).map (fun p => ((splitTo 8).pool p).next), n ≠ 0) ∧ 4 ≤ ((splitTo 8).pool 3).next ∧
    ((List.range 8).map fun p => ((splitTo 13).pool p).next).sum = 64 ∧ ((splitTo 13).pool 3).next < 4 ∧
    ready.glen.saveCheck = 0 ∧ ({ ready with glen := { next := [(0, 3)] } }).glen.saveCheck ≠ 0 ∧
    (∀ t, t ∈ [0, 1] → t ∈ ({ ready with glen := { restore := [0, 1] } }).glen.restore) ∧ ready.glen.busy = false ∧
    ({ ready with glen := { busy := true } }).glen.busy = true ∧ ready.update.lockBusy = false ∧ ({ ready with update := { lockBusy := true } }).update.lockBusy = true := by
  decide

/-- Under TEST_MODE: a block that is refused and one that runs, a test that runs, a checker with a lock. -/
def testMode (t : Test) : State := { ready with pins := { straps := { role := 0, boot := 0, test := true } }, test := t }
def testing (r : TestRun) : State := testMode { direct := some r }
theorem witness_TestBlockAndTap :
    (testMode {}).pins.straps.test = true ∧ (testMode {}).test.direct = none ∧ (testMode {}).blockFail (testMode {}).testParam true = some 0 ∧
    (∃ s : State, s = { testMode {} with written := { testParam := [(0, 1), (1, 100), (2, 8)] } } ∧ s.powered = true ∧ s.test.direct = none ∧
      s.blockFail s.testParam true = none ∧ field s.testParam 0 1 = 1 ∧ testTargets s.testParam [] ≠ []) ∧
    (∃ r : TestRun, r = { block := [], quiesced := true, targets := [5] } ∧ (testing r).test.direct = some r ∧ 5 ∈ r.targets ∧ 5 ∉ r.locked) ∧
    (∃ r : TestRun, r = { block := [], quiesced := true, targets := [5], locked := [5] } ∧ (testing r).test.direct = some r ∧ 5 ∈ r.locked ∧
      1 = min (2 ^ 32 - 1) (mapGet 0 r.losses 5 + 1) ∧ (testing r).mode.running = true) ∧
    ready.pins.straps.test = false ∧ ready.mode.running = true ∧ ({ ready with mode := .fill }).mode.running = false ∧
    (0xFF : BitVec 8) ∉ ([0x01, 0x02, 0x00, 0x03, 0x04, 0x05, 0x06, 0x10] : List (BitVec 8)) :=
  ⟨rfl, rfl, by decide, ⟨_, rfl, by decide, rfl, by decide, by decide, by decide⟩, ⟨_, rfl, rfl, by decide, by decide⟩,
   ⟨_, rfl, rfl, by decide, by decide, by decide⟩, rfl, by decide, by decide, by decide⟩

/-! ## Witnesses: arrival, fetch, grains -/

theorem witness_CommandsArrive :
    ready.powered = true ∧ ready.time.running = true ∧ ready.grain + 1 < Config.maxGrain ∧ ready.firmwareServes = true ∧
    ready.mayFetch (.data 3) = true ∧ ready.fetchReserve < (ready.pool 0).free ∧ ready.romServes = false ∧ ready.mode.running = true ∧
    (∃ x, (withSession ready).session? 7 = some x ∧ x.state = .open_ ∧ (withSession ready).mode ≠ .boot ∧ (x.seen.find? fun e => e.seqNo = 5#32) = none ∧
      seqLt (x.grant + 5#32) (x.grant + 4#32) = false ∧ seqLt x.grant 0#32 = false ∧ seqLt 0#32 x.params.initial = false ∧
      (seqLe 0#32 x.highest = true → (x.highest - 0#32).toNat < Config.replayWindow)) :=
  ⟨by decide, rfl, by decide, by decide, by decide, by decide, by decide, by decide, ⟨_, rfl, rfl, by decide, rfl, by decide, by decide, by decide, by decide⟩⟩

/-- The time counter, and the local clock with it, in a grain. -/
def clockAt (g : Nat) : Time := { ready.time with counter := g * Config.grainUnit, edges := 500 * g }
/-- A ring with two published entries that may be fetched; one held for 10 ms; fetching held for 1 ms. -/
def late : Time := clockAt 20000
theorem witness_RingFetch :
    (∃ s : State, s = rung { tail := 2 } { ctrl := 1, admReady := true, admin := { tail := 2 } } ∧ s.ring? 3 = some { tail := 2 } ∧
      ({ tail := 2 } : Ring).waiting = 2 ∧ s.mayFetch (.data 3) = true ∧ s.ringOf (.admin 0) = some { tail := 2 } ∧ s.mayFetch (.admin 0) = true) ∧
    (∃ (s : State) (r : Ring), r = { held := true, heldSince := 5 } ∧ s = { rung r {} with time := late } ∧ s.cored = true ∧ s.ring? 3 = some r ∧
      r.held = true ∧ r.heldRaised = false ∧ r.heldSince + 10000 ≤ s.grain) ∧
    (∃ s : State, s = { ready with host := { fetchHold := some 5 }, time := late } ∧ s.host.fetchHold = some 5 ∧ s.host.fetchRaised = false ∧ 5 + 1000 ≤ s.localUs) :=
  ⟨⟨_, rfl, rfl, by decide, by decide, rfl, by decide⟩, ⟨_, _, rfl, rfl, by decide, rfl, rfl, rfl, by decide⟩, ⟨_, rfl, rfl, rfl, by decide⟩⟩

theorem witness_HappeningsArrive :
    ready.clocked = true ∧ (∃ w, (with1 { work 1 .gate with deadline := 5 }).work? 9 = some w ∧ w.deadline ≠ 0 ∧ w.deadline ≤ (with1 w).grain) ∧
    0 ≤ ready.host.vfs ∧ ready.mode.running = true ∧ (∀ p, p ∈ [1, 3] → 1 ≤ p ∧ p ≤ 3) ∧
    ({ ready with time := { ready.time with windows := [(31, { enable := true, period := 1000, start := 5, duration := 1 })] } }).startDue 31 = true ∧
    ({ ready with time := { ready.time with windows := [(0, { enable := true, period := 1000, start := 4, duration := 1, started := 5 })] } }).endDue 0 = true :=
  ⟨by decide, ⟨_, rfl, by decide, by decide⟩, by decide, by decide, by decide, by decide, by decide⟩

theorem witness_GrainsEnd :
    ready.clocked = true ∧ ready.quiet = true ∧ ready.grain + 7 + 1 < 2 ^ 52 ∧ 2 ^ 52 ≤ ready.grain + 2 ^ 52 + 1 := by decide

/-! ## Witnesses: ports and the Lerfold wire -/

/-- A device with port 2 in a state, in a late grain. -/
def portAt (x : Port) : State := { ready with
  time := clockAt 3000005, ports := { ports := [(2, x)], quads := [2, 255, 255, 255] } }
theorem witness_LinkStates :
    (∀ t, t ∈ [1, 2] → ∃ s : State, s = portAt { config := { type := t }, link := .down, restartAt := 3000005 } ∧ s.clocked = true ∧
      (s.port 2).link = .down ∧ (s.port 2).config.type = t ∧ (s.port 2).restartAt ≠ 0 ∧ (s.port 2).restartAt ≤ s.localUs) ∧
    (∃ s : State, s = portAt { link := .training, since := 5 } ∧ (s.port 2).link = .training ∧ (s.port 2).since + 3000000 ≤ s.localUs) ∧
    ((portAt { link := .up }).port 2).link = .up ∧ (∀ c, c ∈ [2, 4] → 2 ≤ c ∧ c ≤ 4) := by
  refine ⟨fun t ht => ⟨_, rfl, ?_⟩, ⟨_, rfl, by decide⟩, by decide, by decide⟩
  simp only [List.mem_cons, List.mem_nil_iff, or_false] at ht
  rcases ht with rfl | rfl <;> decide

/-- A port that verifies preemption, idles and answers; that LPI may begin rests on the partner's wake time (log entry 9). -/
theorem witness_PortUpkeep :
    (∃ (s : State) (x : Port), x = { config := { type := 1, preempt := true, lpi := true, ip0 := { version := 4, addr := 77 } }, link := .up, verifying := true } ∧ s = portAt x ∧
      s.clocked = true ∧ x = s.port 2 ∧ x.verifying = true ∧ ({ x with verifying := false }).link = .up ∧ s.portRate 2 ≤ 3 ∧ x.lpiRx = false ∧ s.mode.running = true ∧ (s.entryOf 2 77).isSome = true ∧
      x.echoes < 100) ∧
    (∃ x : Port, x = { config := { type := 1, lpi := true }, link := .up, lpiRx := true, echoAt := 5 } ∧ x = (portAt x).port 2 ∧
      x.echoAt + 1000000 ≤ (portAt x).localUs) :=
  ⟨⟨_, _, rfl, rfl, by decide, rfl, rfl, rfl, by decide, rfl, by decide, by decide, by decide⟩, ⟨_, rfl, rfl, by decide⟩⟩

/-- Frames at the edges of every class: 63, 64 and the maximum, and one beyond; with each fault; filtered, with and without a buffer. -/
def rxFrame (len : Nat) (dst : BitVec 48) : RxFrame := { received 2 len none with dst := dst }
theorem witness_FrameReception :
    (∃ s : State, s = portAt { link := .up } ∧ s.clocked = true ∧ (s.port 2).link = .up ∧ (s.port 2).config.maxFrame = 9216 ∧
      (∀ l, l ∈ [64, 9216] → (rxFrame l 0).port = 2 ∧ (rxFrame l 0).codeError = false ∧ (rxFrame l 0).mergeError = false ∧ (rxFrame l 0).fcsOk = true ∧
        64 ≤ (rxFrame l 0).len ∧ (rxFrame l 0).len ≤ 9216) ∧ (rxFrame 63 0).len ≤ 63 ∧ 9216 < (rxFrame 9217 0).len ∧
      s.passesFilter 2 0 = false ∧ s.passesFilter 2 0xFFFFFFFFFFFF#48 = true ∧ ceilDiv (64 - 4) 2048 ≤ (s.pool 3).free) ∧
    (({ portAt { link := .up } with basin := {} }).pool 3).free = 0 ∧ ({ rxFrame 64 0 with mergeError := true }).mergeError = true ∧
    ({ rxFrame 64 0 with codeError := true }).mergeError = false :=
  ⟨⟨_, rfl, by decide, rfl, rfl, by decide, by decide, by decide, by decide, by decide, by decide⟩, rfl, rfl, rfl⟩

/-- An express frame behind a preemptable one; a preemptable one longer than the threshold; a clean run of 2^20 - 1 and 2^20 frames. -/
def tx (express : Bool) (len : Nat) : TxFrame := { kind := .lerfold, express := express, len := len }
theorem witness_FrameTransmission :
    (∃ s : State, s = portAt { link := .up, queue := [tx false 5000, tx true 80] } ∧ s.clocked = true ∧ (s.port 2).link = .up ∧
      (s.port 2).nextFrame = some (tx true 80, [tx false 5000]) ∧ (tx true 80).len ≤ (s.port 2).threshold) ∧
    (∃ s : State, s = portAt { link := .up, queue := [tx false 2049] } ∧ (s.port 2).nextFrame = some (tx false 2049, []) ∧ (tx false 2049).express = false ∧
      (s.port 2).threshold < (tx false 2049).len) ∧
    2 ^ 20 ≤ ((portAt { clean := 2 ^ 20 }).port 2).clean ∧ ((portAt { clean := 2 ^ 20 - 1 }).port 2).clean < 2 ^ 20 ∧
    (∀ b, b ∈ [false, true] → ((portAt { config := { fixed := b } }).port 2).config.fixed = b) :=
  ⟨⟨_, rfl, by decide, rfl, by decide, by decide⟩, ⟨_, rfl, by decide, rfl, by decide⟩, by decide, by decide, by decide⟩

/-- A frame for session 7 of a type, with flags and a payload, and its CRC. -/
def lf (type flags : Nat) (payload : Bytes) : LfFrame :=
  let h : LfHeader := ⟨0x4C46, 1, BitVec.ofNat 8 type, 7, BitVec.ofNat 16 flags, 0, 0, 0, 1, BitVec.ofNat 32 payload.length, 0, 0⟩
  { port := 2, srcIp := 0, srcPort := 0, dstIp := 0, vlan := none, udpLen := (if flags % 2 = 1 then 56 else 32) + payload.length
    header := { h with crc := crc32c (h.bytes.take 28) }, counter := 0, tag := 0, payload := payload }
/-- A device whose port 2 is up and whose session 7 is the one given. -/
def sessionAt (x : Session) : State := { portAt { link := .up } with wire := { sessions := [(7, x)] } }
def open7 : Session := { params := { port := 2 }, seg := 1024 }

theorem witness_ReceiveChecks :
    (sessionAt open7).clocked = true ∧ ((sessionAt open7).port 2).link = .up ∧ headerGood (lf 6 0 []) = true ∧ headerGood (lf 8 0 []) = false ∧
    ready.session? 7 = none ∧ open7.bound (lf 6 0 []) = true ∧ open7.bound { lf 6 0 [] with port := 3 } = false ∧
    (lf 6 1 []).header.flags.getLsbD 0 ≠ open7.params.secure ∧ headerGood (lf 6 1 []) = true ∧
    ({ open7 with params := { secure := true } }).counterGood 0 = true ∧ ({ open7 with rxAny := true, rxSeen := [0] }).counterGood 0 = false ∧
    (∀ t, t ∈ [1, 2, 5, 6, 7] → headerGood (lf t 0 []) = true ∧ (lf t 0 []).header.crc = crc32c ((lf t 0 []).header.bytes.take 28)) ∧
    (∃ x : Session, x = { open7 with messages := [{ seqNo := 0, count := 2, segs := [(0, [1])] }] } ∧ (sessionAt x).session? 7 = some x ∧
      (x.seen.any fun e => e.seqNo = (lf 1 0 []).header.seq) = false ∧
      ((x.messages.find? fun m => m.seqNo = (lf 1 0 []).header.seq).bind fun m => mapGet? m.segs (lf 1 0 []).header.segIndex.toNat).isSome = true) ∧
    ({ lf 6 0 [] with header := { (lf 6 0 []).header with crc := 1 } }).header.crc ≠
      crc32c (({ (lf 6 0 []).header with crc := 1 } : LfHeader).bytes.take 28) :=
  ⟨by decide, by decide, by decide, by decide, by decide, by decide, by decide, by decide, by decide, by decide, by decide, by decide,
   ⟨_, rfl, rfl, by decide, by decide⟩, by decide⟩

theorem witness_RequestsArrive :
    (∃ f : LfFrame, f = lf 1 2 (zeros 64) ∧ headerGood f = true ∧ open7.bound f = true ∧ f.header.type = 1 ∧ f.header.segCount = 1 ∧
      f.header.segIndex = 0 ∧ f.header.flags.getLsbD 1 = true ∧ 64 ≤ f.payload.length ∧ f.payload.length ≤ Config.maxMessage ∧
      open7.held + 64 ≤ open7.params.budget * 1048576 ∧ ceilDiv 64 2048 ≤ ((sessionAt open7).pool 3).free ∧ seqLt open7.grant f.header.seq = false ∧
      seqLt f.header.seq open7.params.initial = false ∧ (seqLe f.header.seq open7.highest = true → (open7.highest - f.header.seq).toNat < Config.replayWindow)) ∧
    (lf 1 2 (zeros 63)).payload.length < 64 ∧ ({ open7 with params := { port := 2, budget := 0 } }).params.budget * 1048576 < open7.held + 64 ∧
    (∀ d, d ∈ [none, some ({} : Completion)] → (({ open7 with seen := [⟨0, 1, d⟩] } : Session).seen.find? fun e => e.seqNo = (lf 1 2 []).header.seq) = some ⟨0, 1, d⟩) ∧
    (seqLt open7.grant 64#32 = true ∧ seqLt open7.grant 0xFFFFFFFF#32 = false ∧ seqLt 0xFFFFFFFF#32 open7.params.initial = true) ∧
    (lf 1 2 []).header.segIndex.toNat + 1 = 1 ∧ (lf 1 2 []).header.segIndex.toNat + 1 ≠ 2 ∧
    (∃ x : Session, x = { open7 with messages := [{ seqNo := 0, count := 2, last := 5 }] } ∧ (sessionAt x).session? 7 = some x ∧
      (x.messages.find? fun m => m.seqNo = 0#32 && !(x.seen.any fun e => e.seqNo = 0#32)) = some { seqNo := 0, count := 2, last := 5 } ∧
      5 + 10000 ≤ (sessionAt x).grain) :=
  ⟨⟨_, rfl, by decide, by decide, by decide, by decide, by decide, by decide, by decide, by decide, by decide, by decide, by decide, by decide, by decide⟩,
   by decide, by decide, by decide, by decide, by decide, by decide, ⟨_, rfl, rfl, by decide, by decide⟩⟩

/-- A session that owes all that it sends of itself; a response of two segments at its first and at its last; a SECURE session. -/
theorem witness_SessionsSend :
    (∃ x : Session, x = { open7 with ackOwed := true, params := { port := 2, keepalive := 10 }, sent := 0, lowest := 100 } ∧
      (sessionAt x).session? 7 = some x ∧ x.state = .open_ ∧ x.ackOwed = true ∧ x.creditOwed = true ∧ x.params.keepalive ≠ 0 ∧ x.pings < 2 ∧
      x.lastRx + x.params.keepalive * 1000 * (x.pings + 1) ≤ (sessionAt x).grain) ∧
    (∃ (x : Session) (r : Nat → Response), r = (fun k => { seqNo := 5, tag := 0, stamp := 9, data := zeros 1025, result := {}, streamed := false, urgent := false, planned := 1025, next := k }) ∧ x = { open7 with responses := [r 0] } ∧
      (x.responses.find? fun r => r.seqNo = 5#32) = some (r 0) ∧ 0 < x.seg ∧ 0 = (r 0).next * x.seg ∧ (r 0).result.status = .success ∧
      0 + x.seg < (r 0).data.length ∧ 1024 = (r 1).next * x.seg ∧ (r 1).data.length ≤ 1024 + x.seg) ∧
    open7.params.secure = false ∧ ({ open7 with params := { secure := true } }).params.secure = true :=
  ⟨⟨_, rfl, rfl, rfl, rfl, by decide, by decide, by decide, by decide⟩, ⟨_, _, rfl, rfl, rfl, by decide, rfl, rfl, by decide, rfl, by decide⟩, rfl, rfl⟩

/-- A session that has waited for a resolution for 1 s, and CLOSING ones closed by nobody, by an admin command and by themselves. -/
theorem witness_SessionsBeginAndEnd :
    (∃ (s : State) (x : Session) (w : Work), w = { work 0x98 .admin with carrier := .admin 0 } ∧ x = { open7 with state := .resolving, closer := some 9 } ∧
      s = { sessionAt x with works := [w] } ∧ s.session? 7 = some x ∧ s.clocked = true ∧ s.mode.running = true ∧ x.closer.bind s.work? = some w ∧
      grainOf w.stamp + 1000000 ≤ s.grain ∧ s.wire.sessions = [(7, x)] ∧ (s.port 2).link = .up) ∧
    (∃ x : Session, x = { open7 with state := .closing } ∧ (sessionAt x).sessionBusy 7 x = false ∧ x.closer.bind (sessionAt x).work? = none) ∧
    (∀ c, c ∈ [Carrier.admin 0, .wire 7 3] → ∃ (s : State) (x : Session) (w : Work), w = { work 0x99 .admin with carrier := c } ∧
      x = { open7 with state := .closing, closer := some 9 } ∧ s = { sessionAt x with works := [w] } ∧ s.sessionBusy 7 x = false ∧
      x.closer.bind s.work? = some w ∧ (w.carrier.context = some 7 ↔ c = .wire 7 3)) := by
  refine ⟨⟨_, _, _, rfl, rfl, rfl, rfl, by decide, by decide, rfl, by decide, rfl, rfl⟩, ⟨_, rfl, by decide, rfl⟩, fun c hc => ⟨_, _, _, rfl, rfl, rfl, ?_, rfl, ?_⟩⟩ <;>
    (simp only [List.mem_cons, List.mem_nil_iff, or_false] at hc; rcases hc with rfl | rfl <;> decide)

/-! ## Witnesses: resets, links, start-up, update, rebuild -/

/-- Power-fail, a flush that has run, a stopped counter, a device in FILL, temperatures at their limits. -/
theorem witness_ResetsAndSupplies :
    State.reset.pins.pwrFail = false ∧ ({ ready with pins := { pwrFail := true } }).pins.thermtrip = false ∧
    ({ ready with pins := { pwrFail := true, thermtrip := true } }).pins.thermtrip = true ∧ ready.cored = true ∧ ready.powered = true ∧
    State.reset.time.running = false ∧ ready.time.running = true ∧ ready.clocked = true ∧ ready.quiet = true ∧ ready.pins.thermtrip = false ∧
    State.reset.mode.running = false ∧ ready.pins.backstop = false ∧ ready.pins.flushed = false ∧ ready.pins.holdupStable = false ∧
    ready.pins.warning = false ∧ ({ ready with pins := { warning := true } }).pins.warning = true ∧ (120 : Int) ≤ 120 ∧ (100 : Int) ≤ 100 ∧ (99 : Int) < 100 := by
  decide

theorem witness_PcieResets :
    ready.powered = true ∧ ready.works = [] ∧ ready.time.running = true ∧ ready.quiet = true ∧ ready.grain + 1 < Config.maxGrain ∧
    State.reset.powered = true ∧ State.reset.works = [] ∧ State.reset.time.running = false ∧ ready.host.perst = false ∧ ready.host.loopback = false ∧
    ({ ready with host := { loopback := true } }).host.loopback = true ∧ ready.clocked = true := by decide

/-- The link down, up at Gen5 x16, and passing Loopbacks; a function in D3hot with two completions held; a pending message; each power state left. -/
theorem witness_LinkAndFunctionStates :
    ready.host.perst = false ∧ ready.mode.running = true ∧ ready.host.linkSpeed = 0 ∧ ready.host.loopPending = [] ∧
    ({ ready with host := { linkSpeed := 5, linkWidth := 16, loopPending := [1, 0] } }).host.loopPending = [1, 0] ∧ 0 ≤ ready.host.vfs ∧
    (∃ x : Fn, x = { d3hot := true, heldBack := [.post (some 3) 7 {}, .post (some 3) 8 {}] } ∧ (rung {} x).fn 0 = x) ∧
    (∃ x : Fn, x = { pendingMsi := [5] } ∧ (rung {} x).fn 0 = x ∧ 5 ∈ x.pendingMsi ∧ 6 ∉ x.pendingMsi ∧ x.d3hot = false) ∧
    (∀ p, p ∈ [1, 2, 3] → ({ ready with host := { exiting := some p } }).host.exiting = some p) ∧
    (∃ s : State, s = { ready with host := { power := 3 }, terrace := { sealed := List.replicate 16 default } } ∧ s.mode.running = true ∧
      s.host.exiting = none ∧ s.host.power = 3 ∧ 16 ≤ s.terrace.sealed.length) :=
  ⟨rfl, by decide, rfl, rfl, rfl, by decide, ⟨_, rfl, rfl⟩, ⟨_, rfl, rfl, by decide, by decide, rfl⟩, fun _ _ => rfl,
    _, rfl, rfl, rfl, rfl, by decide⟩

/-- Training that fails and succeeds; holds of BOOT by TEST_MODE, SFDP, the strap, and erased slots. That an image passes its check rests on
the standards' functions (log entry 2), so a start from a slot has no witness on concrete bytes. -/
theorem witness_StartFollowsUpdateState :
    State.reset.powered = true ∧ State.reset.mode = .fill ∧ State.reset.dram.trainFail = none ∧ State.reset.pins.pwrGood = true ∧ State.reset.spi.up.state = .idle ∧
    ({ State.reset with pins := { straps := { role := 0, boot := 0, test := true } } }).pins.straps.test = true ∧ State.reset.pins.straps.test = false ∧
    (⟨false, true, 0, false, true, false, false⟩ : RomFindings).sfdpOk = false ∧ ({ State.reset with pins := { straps := { role := 0, boot := 2, test := false } } }).pins.straps.boot = 2 ∧
    State.reset.pins.straps.boot ≠ 2 ∧ manifestFormat (zeros 16) = false ∧ (⟨true, true, 3, false, true, false, false⟩ : RomFindings).ringRetries < 4 ∧
    (∀ u, u ∈ [UpState.idle, .applyPending, .trial, .revertRequested, .confirmed] → ({ State.reset with spi := { up := { state := u } } }).spi.up.state = u) ∧
    ({ State.reset with spi := { up := { state := .trial, boots := 2 } } }).spi.up.boots = 2 := by decide

/-- A preparation with nothing in its way, accepted and refused; a command that waits at 300 ms and one that does not; a quiet device ready for
the ROM; a hold with and without a command taken; a trial at half its window. -/
def preparing (stable : Bool) : State := { ready with
  update := { preparing := true, active := some 9 }, works := [work 0xB1 .admin], pins := { holdupStable := stable } }
theorem witness_ActivationProceeds :
    (∀ b, b ∈ [false, true] → (preparing b).cored = true ∧ (preparing b).prepareQuiet = true ∧ (preparing b).update.progress < 100 ∧ (preparing b).clocked = true ∧
      (preparing b).quiet = true ∧ (preparing b).work? 9 = some (work 0xB1 .admin) ∧ (preparing b).activateRefusal = (if b then none else some 1)) ∧
    (∃ s : State, s = { ready with update := { quiesce := 1, quiesceAt := 5 }, works := [work 1 .gate], time := { ready.time with counter := 300005 * Config.grainUnit } } ∧
      s.cored = true ∧ s.update.quiesceAt + 300000 ≤ s.grain ∧ s.quiesceCaught (work 1 .gate) = true ∧ s.quiesceCaught (work 1 .dma) = false) ∧
    (∃ s : State, s = { ready with update := { quiesce := 1 } } ∧ s.powered = true ∧ s.romServes = false ∧ s.quiesced = true ∧ s.quiet = true ∧ s.update.revert = false) ∧
    (∃ s : State, s = { ready with mode := .boot, update := { bootHold := 2, activeBy := some (onMgmt zero) } } ∧ s.powered = true ∧ s.romServes = true ∧
      s.update.activeBy = some (onMgmt zero)) ∧
    (∃ s : State, s = { ready with spi := { up := { state := .trial, window := 600, deadline := 300000005 } } } ∧ s.cored = true ∧ s.inTrial = true ∧
      s.spi.up.deadline ≠ 0 ∧ s.spi.up.deadline ≤ s.grain + 500000 * s.spi.up.window ∧ s.update.halfRaised = false) :=
  ⟨by decide, ⟨_, rfl, by decide, by decide, by decide, by decide⟩, ⟨_, rfl, by decide, by decide, by decide, by decide, rfl⟩,
   ⟨_, rfl, by decide, by decide, rfl⟩, ⟨_, rfl, by decide, by decide, by decide, by decide, rfl⟩⟩

/-- REBUILD with no media, on a warm restart whose sums hold, on known media; SERVICE with and without a trial and a command that waits. -/
def rebuilding (u : Update) (p : Option NandPopulation) : State := { ready with
  mode := .rebuild, update := u, delta := { pop := p, sumsSealed := true }, cluster := { role := .worker }, time := { ready.time with lockGrain := 3 } }
theorem witness_RebuildLeadsToService :
    (∀ b, b ∈ [false, true] → (rebuilding { warm := b } (some dies)).cored = true ∧ (rebuilding { warm := b } (some dies)).mode = .rebuild ∧
      (rebuilding { warm := b } (some dies)).sumsHold = true ∧ (rebuilding { warm := b } (some dies)).delta.sealed = false ∧
      (rebuilding { warm := b } (some dies)).time.lockedBoot = true ∧
      (rebuilding { warm := b } (some dies)).delta.mediaGrain < (rebuilding { warm := b } (some dies)).time.lockGrain ∧
      (rebuilding { warm := b } (some dies)).cluster.role ≠ .standalone ∧ (rebuilding { warm := b } (some dies)).cluster.pairs = []) ∧
    (rebuilding {} none).delta.pop = none ∧ ({ dies with present := [] }).present = [] ∧ (rebuilding { rebuilt := true } none).timeServes = true ∧
    ({ rebuilding { rebuilt := true } none with time := {} }).timeServes = false ∧
    (rebuilding { rebuilt := true } none).inTrial = false ∧
    (∀ d, d ∈ [0, 5] → ∃ s : State, s = { rebuilding { rebuilt := true, active := some 9 } none with
        spi := { up := { state := .trial, deadline := d } }, works := [work 0xB1 .admin] } ∧ s.inTrial = true ∧ s.spi.up.deadline = d ∧
      s.work? 9 = some (work 0xB1 .admin)) :=
  ⟨by decide, rfl, rfl, by decide, by decide, by decide, fun d _ => ⟨_, rfl, rfl, rfl, rfl⟩⟩

/-! ## Witnesses: media, memory, time, the map, pairs -/

/-- Media of four dies on each channel with one segment; a read of a command in its first unit. -/
def mediaOf (d : Delta) : Delta := { d with pop := some dies, inUse := [0, 1, 2, 3] }
def mediaAt (g : Segment) : State := { ready with delta := mediaOf { segments := [(5, g)] } }
/-- A die that runs an operation. -/
def runs (key : Nat) (o : DieOp) (s : State) : State := { s with delta := { s.delta with running := [(key, o)] } }
def mediaRead (left : Nat) (row : List (Nat × Nat)) (d : Die) (retry : BitVec 32) (start : State) : State :=
  let key := dieKey (start.placeOf ⟨5, 0⟩).1 (start.placeOf ⟨5, 0⟩).2.1
  runs key (.read 9) { start with
    works := [{ work 1 .media with loc := some ⟨5, 0⟩, left := left, row := row }]
    delta := { start.delta with dies := [(key, d)] }
    inForce := { start.inForce with dieRetry := [(key, retry)] } }
def slcSeg : Segment := { group := 1, slc := true, stream := 0 }

/-- The read that a die runs for a command, in its first pass and in a rebuild, at a fixed and at a free start level; a die that runs none. -/
theorem witness_MediaReads :
    (∀ n, n ∈ [0, 1] → ∀ r, r ∈ [0#32, 0x8000#32] → ∃ (s : State) (c d m : Nat),
      s = mediaRead n [] { retryAt := [(0, (2, 3))] } r (mediaAt slcSeg) ∧ s.cored = true ∧ s.clocked = true ∧ s.quiet = true ∧
      s.nextGrain < Config.maxGrain ∧ s.placeOf ⟨5, 0⟩ = (c, d, m) ∧ mapGet? s.delta.running (dieKey c d) = some (.read 9) ∧
      (∃ w, s.work? 9 = some w ∧ w.phase = .media ∧ w.loc = some ⟨5, 0⟩ ∧ isReadOp w.op = true ∧ w.left = n ∧ w.row = []) ∧
      s.startLevel c d m < 8 ∧ s.startLevel c d m ≠ 2 ∧ mapGet false (s.die c d).trial m = false ∧ mapGet 0 (s.die c d).goodRun m + 1 < 65536 ∧
      (mapGet 0 s.inForce.dieRetry (dieKey c d)).getLsbD 15 = r.getLsbD 15 ∧ mapGet (8, 0) (s.die c d).retryAt m = (2, 3)) ∧
    (∃ s : State, s = mediaRead 1 [(4, 2)] {} 0 (mediaAt slcSeg) ∧ (s.work? 9).any (fun w => w.row ≠ []) = true) ∧
    (∀ id, mapGet? (mediaAt slcSeg).delta.running (dieKey 3 1) ≠ some (.read id)) ∧
    mapGet? (runs (dieKey 3 1) (.read 9) ready).delta.running (dieKey 3 1) = some (.read 9) ∧ ready.work? 9 = none := by
  refine ⟨fun n hn r hr => ⟨_, ((mediaAt slcSeg).placeOf ⟨5, 0⟩).1, 1, 0, rfl, ?_⟩, ⟨_, rfl, by decide⟩, fun id => by simp [mediaAt, mediaOf, mapGet?], by decide, by decide⟩
  refine ⟨?_, ?_, ?_, ?_, rfl, ?_, ⟨_, rfl, rfl, rfl, rfl, rfl, rfl⟩, ?_⟩ <;>
    (simp only [List.mem_cons, List.mem_nil_iff, or_false] at hn hr; rcases hn with rfl | rfl <;> rcases hr with rfl | rfl <;> decide)

/-- An erase that a die runs, of a block with spares behind it and without; programs that dies run: a unit, parity pages, one whose unit is
not filled, a journal page; a slot with part of a unit, in and out of WRITE_THROUGH; pool 6 at its low water and above. -/
theorem witness_MediaPrograms :
    (∀ k, k ∈ [0, 2] → ∃ s : State, s = runs (dieKey 3 1) (.erase 7) { ready with
        delta := mediaOf { dies := [(dieKey 3 1, { released := [7], spares := k })] } } ∧ s.cored = true ∧ s.clocked = true ∧ s.quiet = true ∧
      s.nextGrain < Config.maxGrain ∧ mapGet? s.delta.running (dieKey 3 1) = some (.erase 7) ∧ 7 ∈ (s.die 3 1).released ∧
      mapGet? s.delta.running (dieKey 3 2) ≠ some (.erase 7) ∧ (s.die 3 1).spares = k) ∧
    (∀ f, f ∈ [(1, 0, 0), (64 * 40, 0, 0), (64 * 40, 64 * 31, 0)] → ∀ k, k ∈ [0, 2] → ∃ (s : State) (g : Segment),
      g = { slcSeg with filled := f.1, done := f.2.1, group := 2, blocks := [9] } ∧
      s = runs (dieKey 0 2) (.program 5) { ready with delta := mediaOf { segments := [(5, g)], dies := [(dieKey 0 2, { spares := k })] } } ∧
      s.nextProgram 2 = some (dieKey 0 2, 5, g) ∧ s.segment? 5 = some g ∧ g.broken = false ∧ s.delta.dieIndex g.group = 2 ∧ (s.die 0 2).spares = k ∧
      g.ready (s.delta.kOf g.slc) = decide (f.1 ≠ 1) ∧ g.parityDue (s.delta.kOf g.slc) = decide (f.2.1 ≠ 0)) ∧
    (∃ (s : State) (g : Segment), g = { slcSeg with stream := 4 } ∧ s = runs 3 .journal { ready with
        delta := mediaOf { segments := [(5, g)], slots := [(64, 5)], journal := [⟨1, fpABCD, 4, 9, 1, ⟨5, 0⟩, 0, 1, 0⟩], jForced := true } } ∧
      s.delta.running.find? (fun e => e.2 = .journal) = some (3, .journal) ∧ s.journalNext ≠ [] ∧ mapGet? s.delta.slots 64 = some 5 ∧
      s.segment? 5 = some g) ∧
    (∃ (s : State) (g : Segment), g = { slcSeg with filled := 1 } ∧ s = { ready with
        delta := mediaOf { slots := [(1, 5)], segments := [(5, g)] }, basin := {}, time := late } ∧ s.cored = true ∧ mapGet? s.delta.slots 1 = some 5 ∧
      s.segment? 5 = some g ∧ g.filled ≠ 0 ∧ g.filled < progEnd (s.delta.kOf g.slc) (g.filled - 1) ∧ g.done ≠ g.filled ∧
      (s.pool 6).free ≤ s.lowWater 6 ∧ s.delta.pool6At + 10 ≤ s.localUs ∧ g.open_ = true ∧ g.stream ≤ 3 ∧ g.done < g.filled ∧
      g.lastRec + 10000 ≤ s.grain ∧ g.placedAt + 20 ≤ s.localUs) ∧
    (∃ s : State, s = { mediaAt slcSeg with delta := mediaOf { slots := [(1, 5)], segments := [(5, slcSeg)] } } ∧ slcSeg.filled = 0 ∧
      s.segment? 5 = some slcSeg ∧ s.lowWater 6 < (s.pool 6).free) ∧
    (∀ b, b ∈ [false, true] → ({ ready with pins := { writeThrough := b } }).pins.writeThrough = b) := by
  refine ⟨fun k hk => ⟨_, rfl, ?_⟩, fun f hf k hk => ⟨_, _, rfl, rfl, ?_⟩, ⟨_, _, rfl, rfl, by decide⟩, ⟨_, _, rfl, rfl, by decide⟩, ⟨_, rfl, by decide⟩, by decide⟩
  · simp only [List.mem_cons, List.mem_nil_iff, or_false] at hk
    rcases hk with rfl | rfl <;> decide
  · simp only [List.mem_cons, List.mem_nil_iff, or_false] at hf hk
    rcases hf with rfl | rfl | rfl <;> rcases hk with rfl | rfl <;> decide

/-- A settled segment: empty, and with a record that the index holds; sealed media; a list that is full. -/
def placedABCD : Placed := ⟨1, fpABCD, [0x41, 0x42, 0x43, 0x44], 4, 9, 0, 1, {}⟩
def settled (stream : Nat) (refresh : Bool) (l : List Placed) : Segment :=
  { group := 0, slc := stream = 0, stream := stream, open_ := false, refresh := refresh, recs := l }
def held (g : Segment) : State := { mediaAt g with index := { ready.index with
  keys := [⟨1, fpABCD, [0x41, 0x42, 0x43, 0x44], [{ stamp := 4, loc := some ⟨5, 0⟩ }], false⟩] } }
theorem witness_BackgroundCopies :
    ready.cored = true ∧ ready.copies = false ∧ (mediaAt slcSeg).copies = true ∧ slcSeg.settled = false ∧
    (∀ r, r ∈ [false, true] → (settled 1 r []).settled = true ∧ (settled 1 r []).refresh = r ∧ (settled 1 r []).failed = false) ∧
    (∃ s : State, s = { mediaAt (settled 0 false []) with inForce := { ready.inForce with slcCtrl := 0x80000000#32 } } ∧
      s.slcBudget < s.delta.slcInUse ∧ s.copies = true) ∧
    (∃ s : State, s = held (settled 1 false [placedABCD]) ∧ s.copies = true ∧ s.live placedABCD 5 = true ∧ s.delta.lostList.length < Config.lostRecords ∧
      s.journalRoom 1 = true) ∧
    Config.lostRecords ≤ (List.replicate Config.lostRecords (1, fpABCD, 4)).length ∧ (held (settled 1 false [])).delta.lostFull = false :=
  ⟨by decide, by decide, by decide, by decide, by decide, ⟨_, rfl, by decide, by decide⟩, ⟨_, rfl, by decide, by decide, by decide, by decide⟩,
   by simp, rfl⟩

/-- A programmed segment under patrol at each side of its thresholds; intents that walk, wait and end; a removal; sweeps with and without work. -/
theorem witness_PatrolAndSweeps :
    (∃ (s : State) (g : Segment), g = { settled 1 false [] with filled := 64, done := 64 } ∧ s = mediaAt g ∧ s.cored = true ∧ s.patrols = true ∧
      (s.patrolNext.head?.any fun p => p.1 = 5 && p ∈ s.patrolNext) = true ∧ s.patrolLeft ≠ [] ∧
      48 ≤ s.inForce.refresh / 2 ∧ s.inForce.refresh / 2 < 49 ∧ 96 ≤ s.inForce.refresh ∧ s.inForce.refresh < 97 ∧
      s.delta.tracked = [] ∧ s.startLevel 3 0 1 < 8) ∧ ready.patrols = false ∧ ready.patrolLeft = [] ∧
    ready.cluster.drops = [] ∧
    (∃ (s : State) (i : Intent), i = ⟨1, fpABCD, [], 9, [5], [5], 0⟩ ∧ s = { mediaAt slcSeg with delta := mediaOf { intents := [i], segments := [(5, slcSeg)] } } ∧
      s.intent? 9 = some i ∧ i.todo = 5 :: [] ∧ s.segment? 5 = some slcSeg ∧ s.delta.sealed = false ∧ (∀ p ∈ slcSeg.recs, s.live p 5 = false)) ∧
    (∃ (s : State) (i : Intent), i = ⟨1, fpABCD, [], 9, [], [], 12⟩ ∧ s = { ready with delta := { intents := [i] }, works := [{ work 1 .gate with stamp := 11 }, work 0x13 .erase] } ∧
      s.intent? 9 = some i ∧ i.todo = [] ∧ s.work? 9 = some (work 0x13 .erase) ∧
      (s.works.any (fun x => !x.posted && x.phase != .erase && decide (x.stamp < i.after))) = true) ∧
    (∃ (s : State) (i : Intent), i = ⟨1, fpABCD, [], 9, [], [], 11⟩ ∧ s = { ready with delta := { intents := [i] }, works := [work 0x13 .erase] } ∧
      s.work? 9 = some (work 0x13 .erase) ∧ (∀ x ∈ s.works, x.posted = true ∨ x.phase = .erase ∨ i.after ≤ x.stamp)) ∧
    (∃ s : State, s = { ready with index := { removing := [(1, ({}, some 9))] }, works := [work 0x89 .admin] } ∧ mapGet? s.index.removing 1 = some ({}, some 9) ∧
      s.work? 9 = some (work 0x89 .admin) ∧ (∀ x ∈ s.works, x.posted = true ∨ isDataOp x.op = false ∨ x.desc.ns.toNat ≠ 1 ∨ 9 ≤ x.stamp)) ∧
    (∃ (s : State) (p : KeyPage), p = { sweep := true, previous := some { number := 1 } } ∧ s = { ready with gorge := { pages := [(0, p)] } } ∧
      s.keyPage? 0 = some p ∧ s.delta.sealed = false ∧ s.sweepTarget 0 1 = none) ∧
    (({ held slcSeg with index := { (held slcSeg).index with keys := [⟨1, fpABCD, [0x41], [{ stamp := 4, gen := 1, loc := some ⟨5, 0⟩ }], false⟩] } }).sweepTarget 0 1).any
      (fun (e : KeyEntry × Version) => decide (e.2.loc = some (⟨5, 0⟩ : Loc))) = true ∧ ready.keyPage? 0 = some { current := { number := 1 }, reserved := 1024 } :=
  ⟨⟨_, _, rfl, rfl, by decide⟩, by decide, by decide, rfl, ⟨_, _, rfl, rfl, rfl, rfl, rfl, rfl, by decide⟩, ⟨_, _, rfl, rfl, rfl, rfl, rfl, by decide⟩,
   ⟨_, _, rfl, rfl, rfl, by decide⟩, ⟨_, rfl, rfl, rfl, by decide⟩, ⟨_, _, rfl, rfl, rfl, rfl, by decide⟩, by decide, rfl⟩

/-- A recorder area can be full. -/
theorem recorder_full (p : RecPage) : Config.recorderPages ≤ (List.replicate Config.recorderPages p).length := by rw [List.length_replicate]

/-- Merge entries full and part full; scrubbing on and off; each state of the recorder area; settings that differ. -/
theorem witness_MemoryAndStores :
    (∀ m : BitVec 128, (({ ready with dram := { merge := [(0, 5, []), (128, m, [1])] } }).dram.merge.find? fun e => e.1 = 128) = some (128, m, [1]) ∧
      ({ ready with dram := { merge := [(0, 5, []), (128, m, [1])] } }).dram.merge.head?.map Prod.fst ≠ some 128) ∧
    ready.inForce.scrub ≠ 0 ∧ ready.host.power < 3 ∧ ready.dram.log = [] ∧ ready.inForce.remap ≠ 1 ∧ ready.lineAt 9 ∉ ready.dram.poison ∧
    (idleAt 3).host.power = 3 ∧ ({ ready with inForce := { ready.inForce with scrub := 0 } }).inForce.scrub = 0 ∧
    (∃ (s : State) (p : RecPage), p = ⟨1, 1, 0, false, false, 0, [], 0⟩ ∧ s = { ready with terrace := { sealed := [p] } } ∧ s.terrace.sealed = p :: [] ∧ s.host.power ≠ 3 ∧
      s.terrace.pages.length < Config.recorderPages ∧ s.terrace.pages.length + 1 ≠ Config.recorderWarn ∧ s.terrace.pages.length + 1 ≠ Config.recorderPages) ∧
    ready.settingsPending = false ∧ ({ ready with written := { ready.written with scrub := 1 } }).settingsPending = true :=
  ⟨fun m => ⟨rfl, by simp⟩, by decide, by decide, by decide, by decide, by decide, rfl, rfl, ⟨_, _, rfl, rfl, rfl, by decide, by decide, by decide, by decide⟩,
   by decide, by decide⟩

/-- A device that follows PTP on port 2, with backup port 6, in use by a port; a state of its time. -/
def timed (f : Time → Time) : State := { portAt { link := .up } with
  time := f { (portAt {}).time with config := { timePort := 2, backup := 6 }, inUse := 2 } }
def announce (clock : Nat) : Announce := ⟨2, BitVec.ofNat 64 clock, 0, 0, 0, false⟩
theorem witness_ServoSamples :
    (timed id).cored = true ∧ (timed id).ptpPort 2 = true ∧ (timed id).time.inUse = 2 ∧ (timed id).ptpPort 6 = false ∧
    (∃ o : Int, o = servoEstimate (timed id).free ((timed id).time.config.limit * 1000 : Nat) ((3 :: (timed id).time.samples).take 16) 3) :=
  ⟨by decide, by decide, rfl, by decide, ⟨_, rfl⟩⟩

theorem witness_TimeReferences :
    ready.time.stepDue = none ∧
    (∃ s : State, s = timed (fun t => { t with stepDue := some 2000000 }) ∧ s.clocked = true ∧ s.time.stepDue = some 2000000 ∧
      s.grain + 2 + (2000000 : Int).toNat / 1000 < Config.maxGrain ∧ Config.maxGrain ≤ s.grain + 2 + (2 ^ 62 : Int).toNat / 1000) ∧
    (timed id).ptpPort 2 = true ∧ (announce 7).domain = (timed id).time.config.domain ∧ (announce 7).port = 2 ∧ (timed id).time.backMaster = none ∧
    (timed id).time.mainMaster = none ∧ announceGood { announce 7 with arb := true } = false ∧ announceGood (announce 7) = true ∧
    (∃ (s : State) (m b : Master), m = { ann := announce 7 } ∧ b = { ann := announce 8 } ∧ s = timed (fun t => { t with mainMaster := some m, backMaster := some b }) ∧
      s.masterOf 2 = some m ∧ m.last + 3 * announceUs m.ann ≤ s.localUs ∧ s.time.config.backup ≠ 2 ∧ s.time.config.backup ≠ 255) ∧
    (∃ (s : State) (m : Master), m = { ann := { announce 7 with logInterval := -4 } } ∧ s = timed (fun t => { t with inUse := 6, mainMaster := some m }) ∧
      s.time.inUse = s.time.config.backup ∧ m.since + 16 * announceUs m.ann ≤ s.localUs) ∧
    (∃ s : State, s = timed (fun t => { t with config := { source := 1 }, quality := .lost, todPending := some 9 }) ∧ s.cored = true ∧ s.time.config.source = 1) ∧
    (∃ s : State, s = timed (fun t => { t with config := { source := 1 }, ppsLast := 5 }) ∧ s.time.todPending = none ∧ s.time.todApplied = false ∧
      s.time.ppsMissing = false ∧ s.time.ppsLast + 1001000000 ≤ s.nowNs) ∧
    ((timed id).time.ppsOutAt < 3000000000 ∧ (timed id).nowNs / 1000000000 * 1000000000 = 3000000000) ∧ (timed id).time.clkFault = false ∧
    (∃ s : State, s = timed (fun t => { t with quality := .holdover, uncBase := 50001 }) ∧ s.time.halfRaised = false ∧ s.time.config.limit * 500 < s.time.uncertainty) :=
  ⟨rfl, ⟨_, rfl, by decide, rfl, by decide, by decide⟩, by decide, rfl, rfl, rfl, rfl, by decide, by decide,
   ⟨_, _, _, rfl, rfl, rfl, rfl, by decide, by decide, by decide⟩, ⟨_, _, rfl, rfl, rfl, by decide⟩, ⟨_, rfl, by decide, rfl⟩,
   ⟨_, rfl, rfl, rfl, rfl, by decide⟩, by decide, rfl, ⟨_, rfl, rfl, by decide⟩⟩

/-- A worker of epoch 3 and a manager; datagrams at fault, of the same and of a newer epoch; the last fragment of a whole map. -/
def inCluster (role : Role) (c : Cluster) : State := { timed id with cluster := { c with
  role := role, identity := some ⟨false, 7, 1, 7210, 2, 0xE0, 55⟩, epoch := 3 } }
def fragment (n epoch : Nat) : MapDatagram := ⟨2, 55, 0, 1, 0x4C4D, 1, epoch, 1, n, 64, 1024, 9, 0, true, zeros 1024⟩
theorem witness_MapDatagrams :
    (inCluster .worker {}).cored = true ∧ (datagram 2 2 1 0 0).type = 2 ∧ ({ fragment 0 4 with crcOk := false }).crcOk = false ∧
    mapDatagramGood (datagram 2 1 1 0 0) = false ∧ mapDatagramGood (fragment 0 4) = true ∧ (fragment 0 4).srcIp = 55 ∧ (fragment 0 4).manager = 1 ∧
    mapDatagramGood (fragment 63 2) = true ∧ (fragment 63 2).epoch < 3 ∧ ({ fragment 0 3 with srcIp := 9 }).srcIp ≠ 55 ∧
    (∃ c : Cluster, c = { gatherEpoch := 4, gathered := (List.range 63).map fun k => (k, []) } ∧ (fragment 63 4).epoch = c.gatherEpoch ∧
      (mapSet c.gathered 63 []).length = 64 ∧ (mapSet c.gathered 5 []).length ≠ 64) ∧
    (inCluster .worker {}).quiet = true ∧ (inCluster .manager {}).cluster.role = .manager ∧
    (∃ d : MapDatagram, d = ⟨2, 9, 0, 2, 0x4C4D, 1, 3, 1, 0, 0, 0, 0, 0, true, []⟩ ∧ d.count = 0 ∧ d.mapStamp = 0 ∧ d.epoch = (inCluster .manager {}).cluster.epoch) ∧
    (∃ s : State, s = inCluster .manager { reqAt := 3000000, reqs := [(2, 100)] } ∧ s.grain < s.cluster.reqAt + 1000000 ∧ 100 ≤ mapGet 0 s.cluster.reqs 2 ∧
      mapGet 0 s.cluster.reqs 3 < 100 ∧ s.cluster.publishedAt + 1000000 ≤ s.grain) ∧
    (∃ s : State, s = inCluster .worker { gatherEpoch := 4, gatherAt := 5 } ∧ s.cluster.gatherEpoch ≠ 0 ∧ s.cluster.gatherAt + 2000000 ≤ s.grain) ∧
    (∃ s : State, s = { inCluster .worker {} with time := { ready.time with counter := 5000000 * Config.grainUnit } } ∧ s.cluster.refreshed + 5000000 ≤ s.grain ∧
      s.cluster.silent = false) :=
  ⟨by decide, rfl, rfl, by decide, by decide, rfl, rfl, by decide, by decide, by decide, ⟨_, rfl, rfl, by decide, by decide⟩, by decide, rfl,
   ⟨_, rfl, rfl, rfl, rfl⟩, ⟨_, rfl, by decide⟩, ⟨_, rfl, by decide⟩, ⟨_, rfl, by decide⟩⟩

/-- A source in each state: copying with and without a version to copy, waiting for an answer, committed, late; its peer's frames. -/
def source (f : Pair → Pair) : State := withPair (f { targetPair .copying 0 with target := false, slices := [sliceOf fpABCD], t0 := 5 })
def msg (kind : Nat) : PeerMsg := { kind := kind, seqNo := 5, desc := zero, area := [] }
theorem witness_PairSource :
    (source id).cored = true ∧ ((source id).pair? 1).isSome = true ∧ (source id).time.quality = .locked ∧
    (∀ p, (source id).pair? 1 = some p → p.target = false ∧ p.walkDone = false ∧ p.state = .copying ∧ p.kind ≠ 2 ∧ (source id).copyNext p = none ∧
      (({ source id with index := { ready.index with keys := (withKey ready).index.keys } }).copyNext p).isSome = true ∧
      (p.waiting.filter fun m => m.kind = 1 && !m.acked).length + p.toSend.length < Config.maxWaitingApplies) ∧
    (∃ p, (source fun p => { p with state := .proposed, waiting := [msg 4] }).pair? 1 = some p ∧ p.state = .proposed ∧ (p.waiting.any fun m => m.kind = 4) = true ∧
      p.refusals < 15) ∧
    (∃ (s : State) (p : Pair), s = source (fun p => { p with state := .committed, cutover := 5 }) ∧ s.pair? 1 = some p ∧ p.markSent = false ∧ p.waiting = [] ∧
      p.toSend = [] ∧ s.works = [] ∧ p.cutover ≤ s.grain) ∧
    (∃ (s : State) (p : Pair), s = { source (fun p => { p with waiting := [msg 1] }) with time := late } ∧ s.pair? 1 = some p ∧
      (∀ m ∈ p.waiting, m.acked = true ∨ s.grain < m.sentAt + 1000000)) ∧
    (∃ (s : State) (p : Pair), s = { source (fun p => { p with waiting := [msg 1] }) with time := clockAt (2 * 10 ^ 6) } ∧
      s.pair? 1 = some p ∧ (p.waiting.any fun m => !m.acked && decide (m.sentAt + 1000000 ≤ s.grain)) = true ∧ s.cluster.pairs = [p] ∧ s.mode = .paired) ∧
    (∀ k, k ∈ [1, 3] → ([msg k].find? fun m => m.seqNo = 5#32 && m.kind ≤ 3) = some (msg k)) ∧ ([msg 1].find? fun m => m.seqNo = 5#32) = some (msg 1) ∧
    ([msg 1].find? fun m => m.seqNo = 6#32) = none :=
  ⟨by decide, rfl, rfl, fun p h => by cases h; decide, ⟨_, rfl, rfl, by decide, by decide⟩, ⟨_, _, rfl, rfl, rfl, rfl, rfl, rfl, by decide⟩,
   ⟨_, _, rfl, rfl, by decide⟩, ⟨_, _, rfl, rfl, by decide, rfl, rfl⟩, by decide, by decide, by decide⟩

/-! ## Witnesses: further clauses -/

/-- A turn of a data ring and of an admin ring with two published entries. -/
theorem witness_RingTurns :
    (∃ s : State, s = rung { tail := 2 } { ctrl := 1, admReady := true } ∧ s.cored = true ∧ s.ring? 3 = some { tail := 2 } ∧
      s.takesTurn (.data 3) = true ∧ s.mayFetch (.data 3) = true ∧ ({ tail := 2 } : Ring).waiting = 2 ∧ 2 < ({} : Ring).sqLen ∧ 2 < ({} : Ring).cqLen ∧
      s.fetchReserve + 2 ≤ (s.pool 0).free) ∧
    (∃ s : State, s = rung {} { ctrl := 1, admReady := true, admin := { tail := 2 } } ∧ s.ringOf (.admin 0) = some { tail := 2 } ∧
      s.takesTurn (.admin 0) = true ∧ s.mayFetch (.admin 0) = true ∧ 2 ≤ (s.pool 0).free ) ∧
    (∃ s : State, s = rung { tail := 2 } { ctrl := 1, admReady := true, admin := { tail := 2 } } ∧ s.takesTurn (.data 3) ≠ s.takesTurn (.admin 0)) :=
  ⟨⟨_, rfl, by decide, rfl, by decide, by decide, by decide, by decide, by decide, by decide⟩,
   ⟨_, rfl, rfl, by decide, by decide, by decide⟩, ⟨_, rfl, by decide⟩⟩

/-- A late grain: a block under watch whose reread is due, a rate a second old, a cycle's end, and a checkpoint 250 ms old; and none of them due. -/
def due : State := { ready with
  time := clockAt (10 ^ 13)
  delta := mediaOf { segments := [(5, { group := 1, slc := true, stream := 0 })], tracked := [(5, 7, 0)], ckptAt := some 5 } }
theorem witness_TimersArrive :
    due.clocked = true ∧ due.mode.running = true ∧ due.delta.rateAt + 1000000 ≤ due.localUs ∧
    (5, 7, 0) ∈ due.delta.tracked ∧ 0 + due.patrolPeriod / 4 ≤ due.grain ∧ due.rereadDue 5 7 = true ∧ ready.rereadDue 5 7 = false ∧
    due.delta.patrolStart + due.patrolPeriod ≤ due.grain ∧ 5 + 250000 ≤ due.grain ∧
    ready.localUs < ready.delta.rateAt + 1000000 ∧ ready.grain < ready.delta.patrolStart + ready.patrolPeriod ∧
    ready.startDue 3 = false ∧ ready.endDue 3 = false ∧
    ready.grain < ready.dram.scrubStart + ready.scrubPeriod ∧ 128 ∉ ready.dram.scrubbed ∧ due.dram.scrubStart + due.scrubPeriod ≤ due.grain ∧
    ready.correctable ⟨0, 0, 128, none⟩ [3] = true ∧ ready.correctable ⟨0, 0, 128, none⟩ (List.range 17) = false := by decide

/-- A configuration whose backup port alone changes. -/
theorem witness_BackupChanges :
    meets { ptp with
        ports := { ports := [(0, { config := { enable := true }, everSet := true, link := .up }), (2, { config := { enable := true }, everSet := true, link := .up })]
                   quads := [3, 255, 255, 255] } }
      (withOpcode 0xA5 (withParam 0x20 0 (admin 0 [(0x22, 2), (0x23, 0), (0x24, 11)])))
      (fun b w => b.timeSetFail w.desc = none ∧ b.time.config.backup ≠ (timeConfigOf w.desc b.time.config).backup ∧
        b.time.config.timePort = (timeConfigOf w.desc b.time.config).timePort ∧ b.time.config.source = (timeConfigOf w.desc b.time.config).source ∧
        b.time.config.profile = (timeConfigOf w.desc b.time.config).profile ∧ b.time.config.domain = (timeConfigOf w.desc b.time.config).domain ∧
        b.time.config.transport = (timeConfigOf w.desc b.time.config).transport) = true := by decide

/-- A pair's block at the target, and its start there. -/
def targetBlock : Bytes := block 626 [(0, 1, 1), (1, 1, 1), (2, 2, 9), (4, 2, 7), (6, 2, 1), (0x16, 1, 2), (0x17, 1, 4), (0x18, 4, 0x0200000A), (0x28, 2, 7209), (0x270, 2, 5)]
theorem witness_PairTarget :
    meets { withSession ready with
        cluster := { role := .worker, epoch := 1, identity := some ⟨false, 7, 1, 7210, 2, 0xE0, 55⟩, owners := [(5, 9)] }
        wire := { sessions := [(7, { params := { port := 2, keepalive := 10 }, seg := 1024 })] } } (withOpcode 0xBA (adminBlock 0 targetBlock))
      (fun b w => b.pairBlockFail (targetBlock.take 624) = none ∧ w.block 626 = .ok targetBlock ∧
        field targetBlock 1 1 = 1 ∧ b.pairRefused targetBlock = false ∧ b.newHolds targetBlock = [] ∧
        b.index.holds.length ≤ Config.holdPoints) = true := by decide

/-- The gate's other decisions: a namespace gone, a poisoned entry, a list, a version in Basin, on media and lost, an APPLY that is void, room and
none in the index area. -/
def kept (v : Version) (p : Bool) (w : Work) : State := { with1 w with index := { ready.index with keys := [⟨1, fpABCD, [0x41, 0x42, 0x43, 0x44], [v], p⟩] } }
def onMedia : Version := { stamp := 4, value := [7], loc := some ⟨5, 0⟩ }
theorem witness_GateDecidesMore :
    (({ with1 (work 1 .gate) with index := { ready.index with spaces := [] } }).spaceAt 1 9).isNone = true ∧
    ((kept { stamp := 4 } true (work 1 .gate)).keyEntry 1 [0x41, 0x42, 0x43, 0x44]).any KeyEntry.poisoned = true ∧
    (∀ op, op ∈ [3, 4] → (with1 (work op .gate)).readMayGo (work op .gate) = true ∧ isReadOp (work op .gate).op = true ∧ (work op .gate).op = op) ∧
    (kept onMedia false (work 1 .gate)).inBasin ⟨5, 0⟩ 1 = false ∧
    ({ kept onMedia false (work 1 .gate) with delta := { segments := [(5, { group := 1, slc := false, stream := 0, filled := 2 })] } }).inBasin ⟨5, 0⟩ 1 = true ∧
    (({ kept onMedia false (work 1 .gate) with delta := { lostList := [(1, (work 1 .gate).fp, 4)] } }).delta.lostList.any fun e =>
      e.1 = 1 && e.2.1 = (work 1 .gate).fp && e.2.2 = 4) = true ∧
    (withKey (with1 (writeAt 0x10 0))).indexFull (writeAt 0x10 0) (writeAt 0x10 0).items = true ∧
    (∀ op, op ∈ [0x10, 0x11, 0x12, 0x13, 0x15] → ({ withKey (with1 (writeAt op 4)) with dram := { density := 2, ranks := 2 } }).indexFull (writeAt op 4) (writeAt op 4).items = false ∧
      Config.indexReserve < ({ withKey (with1 (writeAt op 4)) with dram := { density := 2, ranks := 2 } }).freeEntries) := by decide

/-- A read that has data to release in each phase, and a step of a requester that gets its buffer, waits for it, and has stopped. -/
theorem witness_ReleasesAndSteps :
    (∃ w, (with1 { work 1 .release with data := [1], unit := 2 }).work? 9 = some w ∧ w.ponr = false ∧ w.data ≠ [] ∧ isReadOp w.op = true ∧ w.phase = .release) ∧
    (∀ k, k ∈ [Step.gc true, .fold false, .patrol 5 1 0 [], .rekey 0 false, .secure 9, .copy 1, .recorder] →
      ready.grantable (poolFor (ready.stepBytes k)) k.owner = true ∧ (ready.pool (poolFor (ready.stepBytes k))).waiters = [] ∧
      ({ ready with basin := {} }).grantable (poolFor (ready.stepBytes k)) k.owner = false) ∧
    ready.requestersStop = false ∧ ({ ready with update := { quiesce := 1 } }).requestersStop = true :=
  ⟨⟨_, rfl, rfl, by decide, by decide, rfl⟩, by decide, rfl, by decide⟩

/-- Frames with FEC counts and fragments, with PREEMPT_EN set and clear; a paused frame, an express one that passes it, one beyond M. -/
def sendingAt (paused : Bool) : Port := { link := .up, queue := [tx false 70, tx true 80], preemptOn := true, sending := some { frame := tx false 5000, paused := paused } }
theorem witness_FramesPreempted :
    ({ rxFrame 64 0 with fecCorrected := 3, fecBad := 1, fecSymbols := 4, fragments := 2 }).fecBad ≠ 0 ∧
    (∀ b, b ∈ [false, true] → ((portAt { link := .up, config := { preempt := b } }).port 2).config.preempt = b) ∧
    (∀ b, b ∈ [false, true] → ((portAt (sendingAt b)).port 2).sending = some { frame := tx false 5000, paused := b } ∧
      ((portAt (sendingAt b)).port 2).nextExpress = some (tx true 80, [tx false 70])) ∧
    ({ sendingAt false with queue := [tx false 70] }).nextExpress = none ∧
    (∃ x : Port, x = { link := .up, queue := [tx false 5000], preemptOn := true } ∧ x.nextFrame = some (tx false 5000, []) ∧
      64 * (2 + x.config.minFrag) ≤ (tx false 5000).len ∧ (tx false 5000).len ≤ x.config.maxFrame ∧ x.config.maxFrame < (tx true 9999).len) :=
  ⟨by decide, by decide, by decide, rfl, ⟨_, rfl, rfl, by decide, by decide, by decide⟩⟩

/-- A response that grows, before and after its next segment is whole; one that failed, with nothing, part and all of its data sent; a SECURE
session at the last counter value. -/
def resp (status : Status) (data next : Nat) (growing : Bool) : Response :=
  { seqNo := 5, tag := 0, stamp := 9, data := zeros data, result := { status := status }, streamed := true, urgent := false, planned := 3000, next := next, growing := growing }
theorem witness_ResponsesGrowAndFail :
    (∀ r, r ∈ [resp .success 1500 0 true, resp .success 1500 1 true, resp .mediaUnreadable 0 0 false, resp .mediaUnreadable 1024 0 false, resp .mediaUnreadable 1024 1 false] →
      (({ open7 with responses := [r] } : Session).responses.find? fun k => k.seqNo = 5#32) = some r ∧ 0 < open7.seg) ∧
    (resp .success 1500 0 true).data.length ≥ 0 + open7.seg ∧ (resp .success 1500 1 true).data.length < 1024 + open7.seg ∧
    0 < (resp .mediaUnreadable 1024 0 false).data.length ∧ (resp .mediaUnreadable 1024 1 false).data.length ≤ 1 * open7.seg ∧
    (2 ^ 64 - 1 ≤ ({ open7 with params := { secure := true }, txCounter := 2 ^ 64 - 1 } : Session).txCounter) ∧ open7.txCounter < 2 ^ 64 - 1 := by decide

/-- Two virtual functions; Loopback; a counter that stands still; D3hot with an event before a completion and behind one; a function mask. -/
theorem witness_FunctionsHold :
    ({ ready with host := { vfs := 2 } }).host.vfs = 2 ∧ ({ ready with host := { loopback := true, perst := false } }).host.loopback = true ∧
    (∃ (x : Fn) (e : Raise), e = { fn := 0, source := 5, stamp := 3, data := 4 } ∧ x = { d3hot := true, heldBack := [.event e, .post (some 3) 7 {}] } ∧
      (rung {} x).fn 0 = x ∧ 0 ≤ (rung {} x).host.vfs) ∧
    (∃ (x : Fn) (e : Raise), e = { fn := 0, source := 5, stamp := 3, data := 4 } ∧ x = { d3hot := true, heldBack := [.post none 7 {}, .event e] } ∧ (rung {} x).fn 0 = x) ∧
    (∃ x : Fn, x = { pendingMsi := [5], pci := { msixMask := true } } ∧ (rung {} x).fn 0 = x ∧ x.pci.msixMask = true) :=
  ⟨rfl, rfl, ⟨_, _, rfl, rfl, rfl, by decide⟩, ⟨_, _, rfl, rfl, rfl⟩, ⟨_, rfl, rfl, rfl⟩⟩

/-- A device whose restart is due, one that still has a command, sealed media on a warm restart, and a quiesce that has run for 300 ms. -/
theorem witness_RestartsAndSealedRebuild :
    ({ ready with update := { quiesce := 1 } }).restartDue = true ∧ ready.restartDue = false ∧
    ({ ready with update := { quiesce := 1, quiesceAt := 5 }, works := [work 1 .gate], time := clockAt 300005 }).restartDue = false ∧
    5 + 300000 ≤ ({ ready with time := clockAt 300005 }).localUs ∧ (work 1 .gate).catchable = true ∧
    (∃ s : State, s = { rebuilding { warm := true } (some dies) with delta := { (rebuilding { warm := true } (some dies)).delta with sealed := true } } ∧
      s.update.rebuilt = false ∧ s.sumsHold = true ∧ s.delta.sealed = true ∧ s.inTrial = false ∧ s.update.active = none) ∧
    ({ ready with spi := { up := { state := .trial, window := 600, deadline := 300000005 } } }).inTrial = true :=
  ⟨by decide, by decide, by decide, by decide, by decide, ⟨_, rfl, rfl, by decide, rfl, by decide, rfl⟩, by decide⟩

/-- A line whose symbols are corrected, one beyond what corrects, with and without a failed device; Glen's tables whole; a full recorder ring. -/
theorem witness_LinesAndTables :
    mapGet? ready.dram.failed 0 = none ∧ mapGet [] ready.dram.lines 7 = [] ∧ 1 < ready.inForce.device ∧ (7 : Nat) < 160 ∧
    ready.correctable ⟨0, 0, 9, none⟩ (List.range 16) = true ∧ ready.correctable ⟨0, 0, 9, none⟩ (List.range 17) = false ∧
    mapGet? ({ ready with dram := { failed := [(0, 3)] } }).dram.failed 0 = some 3 ∧
    ({ ready with dram := { failed := [(0, 3)] } }).correctable ⟨0, 0, 9, none⟩ (List.range 10) = false ∧
    (∀ r : Rule, some r ∈ ready.glen.nsTable ++ ready.glen.accTable → r.valid = true ∧ r.move = false) ∧
    (∃ s : State, s = { ready with terrace := { ring := true, sealed := [default] } } ∧ s.terrace.ring = true ∧ s.host.power ≠ 3) :=
  ⟨by decide, by decide, by decide, by decide, by decide, by decide, by decide, by decide,
   fun r h => (by rw [show ready.glen.nsTable ++ ready.glen.accTable = [] from rfl] at h; cases h), ⟨_, rfl, rfl, by decide⟩⟩

/-- Exchanges with the master in use, with another, and beyond the interval range; a step at a grain's edge; PPS_OUT high and due to fall. -/
def exchange (clock : Nat) (log : Int) : SyncExchange := { port := 2, clock := BitVec.ofNat 64 clock, raw := 300, syncLog := log, delayLog := 0 }
theorem witness_ExchangesAndPps :
    (∃ s : State, s = timed (fun t => { t with mainMaster := some { ann := announce 7 }, masterId := 7 }) ∧ s.cored = true ∧ s.ptpPort 2 = true ∧
      s.time.inUse = 2 ∧ s.time.masterId = (exchange 7 0).clock ∧ s.time.masterId ≠ (exchange 8 0).clock ∧ s.time.backMaster = none) ∧
    (∀ l, l ∈ [(-7 : Int), 0] → syncInRange (exchange 7 l) = true) ∧ (∀ l, l ∈ [(-8 : Int), 1] → syncInRange (exchange 7 l) = false) ∧
    (timed fun t => { t with stepDue := some 2000000 }).nextGrain < Config.maxGrain ∧
    (∃ s : State, s = timed (fun t => { t with counter := 3002000 * Config.grainUnit, ppsOutAt := 3000000000, ppsOut := true }) ∧
      s.nowNs / 1000000000 * 1000000000 ≤ s.time.ppsOutAt ∧ s.time.ppsOutAt + 1000000 ≤ s.nowNs ∧ s.clocked = true) ∧
    (timed id).ptpPort 3 = false ∧ (timed fun t => { t with config := { timePort := 2, delay := 1 } }).time.config.delay = 1 :=
  ⟨⟨_, rfl, by decide, by decide, rfl, rfl, by decide, rfl⟩, by decide, by decide, by decide, ⟨_, rfl, by decide, by decide, by decide⟩, by decide, rfl⟩

/-- What a target answers: frames of each type for a message that waits and for none, a message beyond the credit, the last refusal. -/
theorem witness_TargetAnswers :
    (∀ t, t ∈ [2, 3, 4, 5, 6, 7] → ∃ f : PeerFrame, f = { pair := 1, type := t, valid := true, seq := 5, ack := 4, credit := 20, status := 4, detail := 0, payload := [1] } ∧
      f.pair = 1 ∧ f.valid = true ∧ f.type = t) ∧
    (∃ (s : State) (p : Pair), s = source (fun p => { p with waiting := [msg 1] }) ∧ s.pair? 1 = some p ∧ p.target = false ∧ p.toSend = [] ∧ s.clocked = true ∧ s.quiet = true ∧
      p.waiting.find? (fun m => m.seqNo = 5#32) = some (msg 1) ∧ (p.waiting.find? fun m => m.seqNo = 5#32 && m.kind ≤ 3) = some (msg 1)) ∧
    (∃ (s : State) (p : Pair), s = source (fun p => { p with state := .proposed, waiting := [msg 4], refusals := 15 }) ∧ s.pair? 1 = some p ∧ 15 ≤ p.refusals) ∧
    (∃ (s : State) (p : Pair), s = source (fun p => { p with copyDone := true }) ∧ s.pair? 1 = some p ∧ p.copyDone = true ∧
      ((p.waiting ++ p.toSend).filter fun m => m.kind = 1).length < 1024) ∧
    (∃ (s : State) (p : Pair), s = source (fun p => { p with state := .committed, cutover := 5, markSent := true }) ∧ s.pair? 1 = some p ∧ p.markSent = true) :=
  ⟨fun _ _ => ⟨_, rfl, rfl, rfl, rfl⟩, ⟨_, _, rfl, rfl, rfl, rfl, by decide, by decide, rfl, rfl⟩, ⟨_, _, rfl, rfl, by decide⟩, ⟨_, _, rfl, rfl, rfl, by decide⟩,
   ⟨_, _, rfl, rfl, rfl⟩⟩

/-- A step whose record is on flash, held in Basin, and whose buffer is poisoned; a sweep with a record to rewrite that waits for work, whose uses
are there; a copy within its rate and ahead of it; a read whose unit takes a buffer; requesters that a LINK_TEST stops. -/
def swept : State := { held { settled 1 false [placedABCD] with filled := 64, done := 64, par := 64000 } with
  gorge := { ready.gorge with pages := [(0, { sweep := true, previous := some { number := 1 }, current := { number := 2 }, reserved := 1024 })] }
  index := { ready.index with keys := [⟨1, fpABCD, [0x41, 0x42, 0x43, 0x44], [{ stamp := 4, gen := 1, loc := some ⟨5, 0⟩ }], false⟩] } }
def granted (poisoned : Bool) : State := { ready with basin := { pools := [(0, { count := 4, free := 1, buffers := [(3, { gen := 1, alloc := true, owner := ⟨2, 3⟩, poisoned := poisoned })] })] } }
theorem witness_StepsAndSweeps :
    swept.inBasin ⟨5, 0⟩ 1 = false ∧ (held (settled 1 false [placedABCD])).inBasin ⟨5, 0⟩ 1 = true ∧ (Step.gc true).lost = true ∧ (Step.gc false).lost = false ∧
    (granted true).handlePoisoned ⟨0, 3, 1⟩ = true ∧ (granted false).handlePoisoned ⟨0, 3, 1⟩ = false ∧
    (swept.sweepTarget 0 1).any (fun (e : KeyEntry × Version) => decide (e.2.loc = some (⟨5, 0⟩ : Loc) ∧ (swept.recordOf e.1 e.2 ⟨5, 0⟩).ns = e.1.ns ∧
      (swept.recordOf e.1 e.2 ⟨5, 0⟩).fp = e.1.fp)) = true ∧
    swept.sweepWaits = false ∧ ({ swept with works := [{ work 0x10 .cipher with units := 1 }] }).sweepWaits = true ∧
    (swept.takeUses 0 2 (usesOf 0) false 0).2 = some 0 ∧ (swept.takeUses 0 2 (usesOf 0) false 0).1.journalRoom 1 = true ∧
    ((swept.takeUses 0 2 (usesOf 0) false 0).1.placeStream 3 1 fun _ => none).isSome = true ∧
    ((source fun p => { p with copied := 0 }).pair? 1).any (fun p => !(source id).copyAhead p) = true ∧
    ((source fun p => { p with copied := 10 ^ 12 }).pair? 1).any (fun p => (source id).copyAhead p) = true ∧
    (mapGet? ((granted false).pool 0).buffers 3).isSome = true ∧ ({ ready with test := { run := some { block := [] } } }).requestersStop = true := by decide

/-! ## A whole map block, too long to evaluate: by its parts -/

theorem slice_zeros (a c : Bytes) (k o n : Nat) (h : a.length ≤ o) (h' : o + n ≤ a.length + k) : slice (a ++ (zeros k ++ c)) o n = zeros n := by
  obtain ⟨d, rfl⟩ := Nat.exists_eq_add_of_le h
  unfold slice zeros
  rw [List.drop_append, List.drop_eq_nil_of_le (by omega), List.nil_append, Nat.add_sub_cancel_left, List.drop_append_of_le_length (by simp; omega),
    List.drop_replicate, List.take_append_of_le_length (by simp; omega), List.take_replicate]
  congr 1; omega

/-- A map of epoch 5 that gives every slice to device 0, and whose device table names device 0 alone. -/
def mapHead : Bytes := 1 :: zeros 11 ++ leBytes 4 5 ++ zeros 48
def mapBlock : Bytes := mapHead ++ (zeros 32768 ++ (1 :: 4 :: zeros 32766))
theorem mapHead_length : mapHead.length = 64 := by decide
theorem zeros_length (n : Nat) : (zeros n).length = n := List.length_replicate
theorem mapBlock_rest (o n : Nat) (h : 32834 ≤ o) (h' : o + n ≤ 65600) : slice mapBlock o n = zeros n := by
  have e : mapBlock = (mapHead ++ (zeros 32768 ++ [1, 4])) ++ (zeros 32766 ++ []) := by
    simp only [mapBlock, List.append_assoc, List.append_nil, List.cons_append, List.nil_append]
  rw [e]
  refine slice_zeros _ _ _ _ _ ?_ ?_ <;> simp only [List.length_append, List.length_cons, List.length_nil, zeros_length, mapHead_length] <;> omega
theorem witness_MapBlock : mapBlock.length = 65600 ∧ mapFail mapBlock = none ∧ field mapBlock 0 1 = 1 ∧ field mapBlock 0x0C 4 = 5 := by
  have hd : ∀ o n, o + n ≤ 64 → slice mapBlock o n = slice mapHead o n := fun o n h => by
    unfold slice mapBlock
    have hl : mapHead.length = 64 := by decide
    rw [List.drop_append_of_le_length (by omega), List.take_append_of_le_length (by rw [List.length_drop]; omega)]
  have dev : deviceEntry mapBlock 0 = 1 :: 4 :: zeros 30 := by
    unfold deviceEntry slice mapBlock
    rw [List.drop_append, List.drop_eq_nil_of_le (by rw [mapHead_length]; decide), List.nil_append, List.drop_append, List.drop_eq_nil_of_le (by rw [zeros_length, mapHead_length]), List.nil_append, zeros_length, mapHead_length]
    show (1 :: 4 :: zeros 32766).take 32 = _
    rw [List.take_succ_cons, List.take_succ_cons, zeros, List.take_replicate]; rfl
  have rest : ∀ k, k + 1 < 1024 → deviceEntry mapBlock (k + 1) = zeros 32 := fun k h => mapBlock_rest _ _ (by omega) (by omega)
  have good : ∀ n, n ∈ List.range 1024 → entryFail (0x8040 + 32 * n) (deviceEntry mapBlock n) = none := fun n h => by
    rw [List.mem_range] at h
    rcases n with _ | k
    · rw [dev]; decide
    · rw [rest k (by omega)]
      have : ∀ off, entryFail off (zeros 32) = none := fun off => by
        have e : field (zeros 32) 0 1 = 0 ∧ entryPresent (zeros 32) = false ∧ allZero (slice (zeros 32) 4 4) = true ∧ allZero (slice (zeros 32) 0x18 8) = true := by decide
        simp [entryFail, firstFail, e.1, e.2.1, e.2.2.1, e.2.2.2]
      exact this _
  refine ⟨by simp only [mapBlock, List.length_append, List.length_cons, zeros_length, mapHead_length], ?_, by unfold field; rw [hd _ _ (by decide)]; decide, by unfold field; rw [hd _ _ (by decide)]; decide⟩
  have zero_owner : ∀ o ∈ sliceWords mapBlock, o = 0 := fun o h => by
    simp only [sliceWords, List.mem_map, List.mem_range] at h
    obtain ⟨i, hi, rfl⟩ := h
    have hi' : i < 16384 := hi
    unfold field
    rw [show slice mapBlock (0x40 + 2 * i) 2 = zeros 2 from slice_zeros _ _ _ _ _ (by have : mapHead.length = 64 := by decide
                                                                                      omega) (by have : mapHead.length = 64 := by decide
                                                                                                 omega)]
    decide
  have present : 0 ∈ (List.range 1024).filter fun n => entryPresent (deviceEntry mapBlock n) :=
    List.mem_filter.mpr ⟨by simp, by rw [dev]; decide⟩
  have h1 : allZero (slice mapBlock 9 3) = true := by rw [hd _ _ (by decide)]; decide
  have h2 : (field mapBlock 0x0C 4 != 0) = true := by unfold field; rw [hd _ _ (by decide)]; decide
  have h3 : (sliceWords mapBlock).findIdx? (fun o => !decide (o ∈ (List.range 1024).filter fun n => entryPresent (deviceEntry mapBlock n))) = none := by
    rw [List.findIdx?_eq_none_iff]
    intro o h
    rw [zero_owner o h]
    simp [List.mem_filter.mp present]
  have h4 : (List.range 1024).findSome? (fun n => entryFail (0x8040 + 32 * n) (deviceEntry mapBlock n)) = none := List.findSome?_eq_none_iff.mpr good
  simp only [mapFail, firstFail, h1, h2, h3, h4]
  rfl

/-! ## Results from the spec's examples and tables -/

/-- A test of the state that a command's step answers. -/
def answers (c : Instr) (s : State) (p : State → Bool) : Bool :=
  match exec c s with
  | .next t => p t
  | _ => false

/-- R177's table: an underrun at 2,048, the decay of 5,120, the stop of T at M, and the decay of 9,216. -/
theorem test_start_threshold_of_r177 :
    answers (.frameTransmit 2 true false) (portAt { link := .up, queue := [tx false 9216], threshold := 2048 }) (fun t => (t.port 2).threshold = 3072) = true ∧
    answers (.thresholdDecay 2) (portAt { link := .up, clean := 2 ^ 20, threshold := 5120 }) (fun t => (t.port 2).threshold = 4864) = true ∧
    answers (.frameTransmit 2 true false) (portAt { link := .up, queue := [tx false 9216], threshold := 8960 }) (fun t => (t.port 2).threshold = 9216) = true ∧
    answers (.thresholdDecay 2) (portAt { link := .up, clean := 2 ^ 20, threshold := 9216 }) (fun t => (t.port 2).threshold = 8960) = true := by decide

/-- The chain of R67's example, stamps by the last nine digits of the grain. -/
def gr (grain slot : Nat) : Stamp := stampOf grain slot
def chain67 : List Version :=
  [{ stamp := gr 108500000 2 }, { stamp := gr 105000000 7, kind := .tombstone }, { stamp := gr 103000000 0 }, { stamp := gr 100000000 4 }]
/-- What a GET_AS_OF in grain …116,000,000 finds at R67's arguments: V2, the tombstone, V4. -/
theorem test_answers_of_r67 :
    look chain67 (gr 104000000 1) 116000000 (gr 116000000 0) = .found { stamp := gr 103000000 0 } ∧
    look chain67 (gr 106000000 0) 116000000 (gr 116000000 0) = .missing 1 (gr 105000000 7) ∧
    look chain67 (gr 109000000 0) 116000000 (gr 116000000 0) = .found { stamp := gr 108500000 2 } := by decide

/-- R54: at grain …109,000,000 of R67's example with its 10 s horizon, answers begin at …99,000,000:0; below it they are BEYOND_HORIZON, above the
read's stamp FUTURE_STAMP. -/
theorem test_horizon_of_r67 :
    let s : State := { ready with index := { spaces := [(6, { params := { horizon := 10 } })] } }
    s.asOfFail 6 (gr 99000000 0) (gr 109000000 0) = none ∧ s.asOfFail 6 (gr 98999999 4095) (gr 109000000 0) = some (.beyondHorizon, 0) ∧
    s.asOfFail 6 (gr 109000000 1) (gr 109000000 0) = some (.futureStamp, 0) := by decide

/-- R140: with L = 100 and K = 64 the grant is 163, and CREDIT is owed once it has advanced by 16. -/
theorem test_grant_of_r140 : ({ lowest := 100 } : Session).grant = 163 ∧ ({ lowest := 100, sent := 147 } : Session).creditOwed = true ∧
    ({ lowest := 100, sent := 148 } : Session).creditOwed = false := by decide

/-- CRC-32C of the nine ASCII digits, the polynomial's published check value. -/
theorem test_crc32c : crc32c [0x31, 0x32, 0x33, 0x34, 0x35, 0x36, 0x37, 0x38, 0x39] = 0xE3069283 := by decide

/-- An idle command: one step of a device with one waiting keepalive takes it from the queue. -/
theorem test_step_takes_the_front : (match step waits with
    | .next t => t.pending
    | _ => []) = [.nop (onRing zero) false] := by rfl

/-- A reset device idles, and takes a power-on to FILL. -/
theorem test_reset_idles : step State.reset = .next State.reset := rfl

/-- R391: the low half of a 64-bit RO register latches the high half. -/
theorem test_read_latches : answers (.latchingRead 0 0 0x3A000 4) { ready with host := { ready.host with total := [(0, 2 ^ 32 + 5)] } }
    (fun t => t.out = [.read 5] ∧ mapGet? t.latches (regKey 0 0 0x3A000) = some 1) = true := by decide
end Sys2Proof.Tests
end

section
/-! Register reads (R5, R389, R391): what a read answers, and what it leaves of the read latches, one lemma per way a read can go. -/

namespace Sys2Proof.Machine

@[simp] theorem State.fnSeen_mode (s : State) (f : Nat) : (s.fnSeen f).mode = s.mode := rfl

/-- LATCHING_READ answers the host with what the access reads, and leaves the state that the access leaves. -/
theorem acts_latchingRead_of_readAccess {s t : State} {fn bar a width v : Nat} (hp : s.powered = true)
    (h : (s.fnSeen fn).readAccess fn bar a width = (t, v)) :
    Acts (.latchingRead fn bar a width) s (t.emit (.read (BitVec.ofNat 64 v))) := by
  have hr : s.read fn bar a width = t.emit (.read (BitVec.ofNat 64 v)) := by simp only [State.read, h]
  rw [Acts, exec_latchingRead, execLatchingRead, State.act_pos hp, hr]

/-! ## A word -/

section
variable {s : State} {fn bar a base : Nat} {r : Reg}

/-- R5, R389: a word of no register reads 0 and is counted. -/
theorem State.readWord_none (hm : s.mode.running = true) (h : s.regWord fn bar a = none) :
    s.readWord fn bar a = (s.badAccess fn (accessContext bar a) 0, 0) := by
  simp [State.readWord, h, State.accessBad, hm]

theorem State.readWord_narrow (h : s.regWord fn bar a = some (base, r)) (hw : r.wide = false) :
    s.readWord fn bar a = (s, r.value % 2 ^ 32) := by
  simp [State.readWord, h, hw]

/-- R391: the low half is read and the high half goes to the latch. -/
theorem State.readWord_low (h : s.regWord fn bar a = some (a, r)) (hw : r.wide = true) (hr : r.ro = true) :
    s.readWord fn bar a =
      ({ s with latches := mapSet s.latches (regKey fn bar a) (BitVec.ofNat 32 (r.value / 2 ^ 32)) }, r.value % 2 ^ 32) := by
  simp [State.readWord, h, hw, hr, State.updLatches]

/-- R391: a full latch answers the read of the high half, and is empty after it. -/
theorem State.readWord_high_of_latch {v : BitVec 32} (h : s.regWord fn bar a = some (base, r)) (ha : a ≠ base) (hw : r.wide = true)
    (hr : r.ro = true) (hl : mapGet? s.latches (regKey fn bar base) = some v) :
    s.readWord fn bar a = ({ s with latches := mapErase s.latches (regKey fn bar base) }, v.toNat) := by
  simp [State.readWord, h, ha, hw, hr, hl, State.updLatches]

/-- R391: with the latch empty the live high half is read. -/
theorem State.readWord_high_of_no_latch (h : s.regWord fn bar a = some (base, r)) (ha : a ≠ base) (hw : r.wide = true) (hr : r.ro = true)
    (hl : mapGet? s.latches (regKey fn bar base) = none) : s.readWord fn bar a = (s, r.value / 2 ^ 32) := by
  simp [State.readWord, h, ha, hw, hr, hl]

/-! ## An access -/

theorem State.responds_of_running (hm : s.mode.running = true) : s.responds fn bar a = true := by
  simp [State.responds, hm]

theorem State.readAccess_four (hm : s.mode.running = true) (hg : accessGood bar a 4 = true) :
    s.readAccess fn bar a 4 = s.readWord fn bar a := by
  simp [State.readAccess, State.responds_of_running hm, hg]

/-- R391: a 64-bit read takes the whole register and leaves its latch. -/
theorem State.readAccess_eight_wide (hm : s.mode.running = true) (hg : accessGood bar a 8 = true) (h : s.regAt fn bar a = some r)
    (hw : r.wide = true) : s.readAccess fn bar a 8 = (s, r.value) := by
  simp [State.readAccess, State.responds_of_running hm, hg, h, hw]

end

end Sys2Proof.Machine

namespace Sys2Proof

open Machine

/-- Settles O15: a 32-bit read is the read of a word, whose five ways are the lemmas `State.readWord_…`, and a 64-bit read of a 64-bit
register takes its value. -/
theorem registerReads : Obligations.RegisterReads := by
  rintro s _ fn bar a hp hm rfl hg
  have hm' : (s.fnSeen fn).mode.running = true := by simpa using hm
  have word {t : State} {v : Nat} (h : (s.fnSeen fn).readWord fn bar a = (t, v)) :
      Acts (.latchingRead fn bar a 4) s (t.emit (.read (BitVec.ofNat 64 v))) :=
    acts_latchingRead_of_readAccess hp ((State.readAccess_four hm' hg).trans h)
  refine ⟨fun r h hw => ?narrow, fun r h hw hr => ?low, fun r v ha h hw hr hl => ?latched, fun r ha h hw hr hl => ?live,
    fun r hg8 h hw => ?whole, fun h => ?noRegister⟩
  case narrow => exact word (State.readWord_narrow h hw)
  case low => exact word (State.readWord_low h hw hr)
  case latched =>
    rw [← BitVec.ofNat_toNat]
    exact word (State.readWord_high_of_latch h (by omega) hw hr hl)
  case live => exact word (State.readWord_high_of_no_latch h (by omega) hw hr hl)
  case whole => exact acts_latchingRead_of_readAccess hp (State.readAccess_eight_wide hm' hg8 h hw)
  case noRegister => exact word (State.readWord_none hm' h)

end Sys2Proof
end

section
/-! The step and the queue of waiting commands (R8, R31): what one step runs, and that no command reaches the queue. -/

namespace Sys2Proof.Machine

/-- A state whose queue is the step's own. -/
theorem State.next_keepQueue_queue {s u t : State} (h : (.next (s.keepQueue u) : Host.Outcome State Fault Refusal) = .next t) :
    t.pending = s.pending := by
  cases h; rfl

theorem State.command_queue {s t : State} {c : Submission} {edge : Bool} (h : s.command c edge = .next t) : t.pending = s.pending :=
  State.stamped_queue h

theorem State.noticeIn_queue {s t : State} {edge : Bool} (h : s.noticeIn edge = .next t) : t.pending = s.pending := by
  unfold State.noticeIn at h
  split at h
  · exact State.stamped_queue h
  · split at h
    · exact State.next_keepQueue_queue h
    · cases h; rfl

theorem State.hostReset_queue {s t : State} {cause : FlrCause} {edge : Bool} (h : s.hostReset cause edge = .next t) :
    t.pending = s.pending := by
  unfold State.hostReset at h
  split at h
  · exact State.stamped_queue h
  · split at h
    · exact State.next_keepQueue_queue h
    · cases h; rfl

theorem State.loopback_queue {s t : State} {enter : Bool} (h : s.loopback enter = .next t) : t.pending = s.pending := by
  unfold State.loopback at h
  split at h
  · cases h; rfl
  · split at h
    · cases h; rfl
    · split at h
      · exact State.next_keepQueue_queue h
      · exact State.next_keepQueue_queue h

/-- No command reaches the queue: a command acts, is stamped, or answers a state that keeps the queue it was given. -/
theorem exec_queue {c : Instr} {s t : State} (h : exec c s = .next t) : t.pending = s.pending := by
  cases c <;> dsimp only [exec] at h
  case proposeSend | markSend | peerLost | sqTail | cqHead | adminSqTail | adminCqHead | eventHead | admEnSet | admEnClear |
      evtEnSet | evtEnClear | basinSave | glenSave | holeRestore | testStart | testStop | registerWrite | tapInstructionLoad |
      dataRingFetch | adminRingFetch | fetchFailure | heldTimeout | gateProceed | indexUpdateDone | bufferGrant | waitListTimeout |
      fetchHoldTimeout | gorgeWorkUnit | entropyTestFailure | frameReceive | requestSegmentReceive | pingReceive | pongReceive |
      ackSend | creditSend | reassemblyTimeout | keepalivePing | sessionFree | sessionOpenResolveTimeout | responseSegmentSend |
      frameTransmit | thresholdDecay | controlFrameReceive | syncReceive | announceReceive | announceReceiptTimeout | timePortReturn
      | pdelayReqReceive | delayReqSend | ppsInEdge | ppsInMissing | ppsOutEdge | timebaseClkFault | holdoverHalf |
      holdoverLimitReached | mapRequestReceive | mapPublishTimer | mapGatherTimeout | mapSilenceTimeout | autonegPageReceived |
      linkTrainingDone | c2mLinkUp | trainingTimeout | autonegRestart | linkFault | preemptVerifyDone | lpiEntry | holdupOkDeassert
      | holdupOkStable | temperatureSample | thermalWarning | pcieLinkChange | d3hotEntry | d0Return | fillDone | rebuildRun |
      serviceEntry | quiesceTimeout | trialHalfWindow | linkTestQuiesceTimeout | linkTestEnd | forcedProgramIdle |
      forcedProgramWriteThrough | forcedProgramPool6 | metadataMerge | secureDeleteErase | namespaceRemovalDone | mergeEntryRetire |
      scrubRead | glenScrub | settingsStore | healthStore | smbusAlertResponse | setEndpointId | getEndpointId |
      getMctpVersionSupport | getMessageTypeSupport | getVersion | getCapabilities | negotiateAlgorithms | getDigests |
      getCertificate | challenge | getMeasurements | getTid | getPldmVersion | getPldmTypes | getPldmCommands | getSensorReading |
      getStateSensorReadings | getPdrRepositoryInfo | getPdr | receiveLpi | checkerLock | checkerLockLoss | entropyStartupTestPass |
      powerStateExitDone | msixVectorUnmask | pairMessageRetransmit | perstDeassertion | junctionBelowWarning | lldpTransmit |
      testDurationEnd | latchingRead =>
    exact State.act_queue h
  case proposeCompletion | markCompletion | bulkCopyStep | ruleAdd | ruleRemove | ruleSetResult | lockSubmit | dmaDone |
      commandTimeout | journalEntryWritten | firstByteReleased | bufferRelease | keepaliveExpiry | frameCounterExhausted |
      calendarStartEdge | calendarEndEdge | idleTimerExpiry | mapPublishReceive | functionLevelReset | vfEnableClear |
      activationPreparationDone | trialWindowExpiry | programDone | programFailure | eraseDone | eraseFailure | codewordReadDone |
      xorRebuild | gcStep | foldingStep | refreshStep | patrolRead | patrolRateUpdate | patrolReread | patrolCycleEnd |
      checkpointTimer | retentionSweep | rekeySweepStep | recorderFlushDone | vendorDefinedRequest | peerSessionFrameReceive |
      secureDeleteRelocationStep =>
    exact State.stamped_queue h
  case get | getAsOf | versions | enumerate | put | putIf | delete | deleteSecure | batch | touch | flush | abort | nop |
      queueCreate | queueDelete | queueReset | namespaceSet | namespaceDelete | keyPageLoadLoad | keyPageLoadKek | keyPageRetire |
      sessionOpen | sessionClose | healthGet | timeGet | scheduleSet | holdSet | holdRelease | timeSetConfigure | timeSetSetTod |
      timeSetReadmit | recordReadRecords | recordReadPages | recordClear | fwDownload | fwActivate | fwStatus | fwConfirm | roleSet
      | mapSetIdentity | mapSetMap | pairStart | pairEndCancel | pairEndKeepSource | pairEndKeepTarget | linkTest | identifyDevice |
      identifyNamespace | portSetQuad | portSetPort | portSetUdpPort | apply | compare | copyDone | propose | mark =>
    exact State.command_queue h
  case powerOn | sysReset | pwrGoodLoss | pwrFailRelease => exact State.next_keepQueue_queue h
  case pwrFailNotice => exact State.noticeIn_queue h
  case perst | hotReset | pcieLinkDown => exact State.hostReset_queue h
  case pcieLoopback => exact State.loopback_queue h
  case thermtrip c =>
    unfold execThermtrip at h
    split at h
    · cases h; rfl
    · exact State.next_keepQueue_queue h
  case thermalBackstop =>
    unfold execThermalBackstop at h
    split at h
    · cases h; rfl
    · exact State.next_keepQueue_queue h
  case fatalMemoryFault core addr =>
    unfold execFatalMemoryFault at h
    split at h
    · exact State.next_keepQueue_queue h
    · cases h; rfl
  case grainEdge idle =>
    unfold execGrainEdge at h
    split at h
    · cases h; rfl
    · split at h
      · cases h
      · exact State.next_keepQueue_queue h
  case timeStep =>
    unfold execTimeStep at h
    split at h
    · cases h; rfl
    · split at h
      · cases h
      · exact State.next_keepQueue_queue h
  case warmRestart rom =>
    unfold execWarmRestart at h
    split at h
    · exact State.act_queue h
    · exact State.stamped_queue h

theorem step_of_empty {s : State} (h : s.pending = []) : step s = .next s := by simp [step, h]

theorem step_of_front {c : Instr} {rest : List Instr} {s : State} (h : s.pending = c :: rest) :
    step s = exec c (s.setPending rest) := by simp [step, h]

/-- A step takes the front command and no other. -/
theorem step_queue {c : Instr} {rest : List Instr} {s t : State} (h : s.pending = c :: rest) (ht : step s = .next t) :
    t.pending = rest := by
  rw [step_of_front h] at ht
  exact exec_queue ht

end Sys2Proof.Machine

namespace Sys2Proof

open Machine

/-- Settles O1: the step's own definition, on a state whose queue is spelled. -/
theorem stepRunsFront : Obligations.StepRunsFront := fun _ _ _ => rfl

/-- The state after the steps that take the commands in front. -/
theorem runFor_queue (l r : List Instr) (s t : State) (hq : s.pending = l ++ r) (h : runFor l.length s = some t) : t.pending = r := by
  induction l generalizing s with
  | nil => cases h; exact hq
  | cons c l ih =>
    simp only [List.length_cons, runFor] at h
    split at h
    · next u hu => exact ih u (step_queue hq hu) h
    · cases h

/-- Settles O2: an empty queue idles by the step's definition, no command reaches the queue (`exec_queue`), and the steps over the front
follow by induction on its commands. -/
theorem queueIsFirstInFirstOut : Obligations.QueueIsFirstInFirstOut :=
  ⟨fun _ => step_of_empty, fun _ _ _ => exec_queue, runFor_queue⟩

end Sys2Proof
end

section
/-! What the reset state is, and the two statements that a state refutes: a warm restart that is due where nothing runs, and a power-on
that finds a LIMIT written and not stored. -/

namespace Sys2Proof.Machine

/-! ## After reset (R14, R23, R107, R159, R393) -/

theorem State.reset_fn (f : Nat) : State.reset.fn f = {} := rfl
theorem State.reset_port (p : Nat) : State.reset.port p = {} := rfl
theorem State.reset_queueWf : QueueWf State.reset := fun _ h => nomatch h

/-! ## A grain number beyond 52 bits -/

/-- Quiesced in FILL at the last grain number: nothing runs, and the restart of the activation is due. -/
def quiescedInFill : State :=
  { State.reset with time := { State.reset.time with counter := Config.maxGrain * Config.grainUnit }, update := { State.reset.update with quiesce := 1 } }

/-- A ROM that finds nothing amiss. -/
def goodRom : RomFindings := { sfdpOk := true, octal := true, ringRetries := 0, copyFails := false, fuseOk := true }

theorem quiescedInFill_stopped : quiescedInFill.time.running = false ∧ quiescedInFill.mode.running = false := ⟨rfl, rfl⟩

theorem quiescedInFill_restartDue : quiescedInFill.restartDue = true := by decide

theorem quiescedInFill_maxGrain_le : Config.maxGrain ≤ quiescedInFill.nextGrain := by decide

/-- A stamped command whose edge would pass the 52 bits of a grain number faults, whatever runs. -/
theorem State.stamped_fault {s : State} {ok : Bool} {f : State → State} (h : ok = true) (hg : Config.maxGrain ≤ s.nextGrain) :
    s.stamped ok true f = .fault .grainNumberExhausted := by simp [State.stamped, h, hg]

theorem exec_warmRestart_fault {s : State} (rom : RomFindings) (hr : s.romServes = false) (hp : s.powered = true) (hd : s.restartDue = true)
    (hg : Config.maxGrain ≤ s.nextGrain) : exec (.warmRestart rom) s = .fault .grainNumberExhausted := by
  rw [exec_warmRestart, execWarmRestart, if_neg (by simp [hr]), State.stamped_fault (by simp [hp, hd]) hg]

/-! ## A LIMIT across a reset (R392, R393) -/

/-- A start of FILL takes every LIMIT of a key page back to its value in the metadata region. -/
theorem State.startFill_pages_of_flushed {s : State} (h : s.pins.flushed = true) (cold : Bool) (straps : Straps) (reason : Nat) :
    (s.startFill cold straps reason).gorge.pages =
      s.gorge.pages.map fun e => (e.1, e.2.limits fun x => { x with limit := x.kept, force := x.kept }) := by
  simp [State.startFill, h]

/-- After a flush, with a LIMIT of 2^41 in key page 0 where the metadata region holds 2^40. -/
def limitWritten : State :=
  { State.reset with pins := { State.reset.pins with flushed := true }, gorge := { pages := [(0, { current := { limit := 41 } })] } }

theorem limitWritten_powerOn_pages (straps : Straps) : (limitWritten.powerOn straps).gorge.pages ≠ limitWritten.gorge.pages := by
  rw [State.powerOn, State.startFill_pages_of_flushed rfl]
  decide

end Sys2Proof.Machine

namespace Sys2Proof

open Machine

/-- Settles O5: every clause is a field of the reset state. -/
theorem resetState : Obligations.ResetState := by
  refine ⟨State.reset, rfl, State.reset_queueWf, rfl, rfl, rfl, rfl, rfl, rfl, rfl, rfl, rfl, State.reset_fn, rfl, rfl, rfl, rfl,
    State.reset_port, rfl, rfl, rfl, rfl, ?_⟩
  intro t ht
  simp only [List.mem_cons, List.not_mem_nil, or_false] at ht
  obtain rfl | rfl := ht <;> exact ⟨rfl, rfl, rfl, rfl, rfl, rfl, rfl, rfl, rfl, rfl, rfl, rfl⟩

/-- Refutes O4: WARM_RESTART asks neither for a running time counter nor for running firmware, so in a state that is quiesced in FILL at the
last grain number it faults where nothing runs. -/
theorem not_everyCommandAnswers : ¬ Obligations.EveryCommandAnswers := by
  intro h
  have hf : exec (.warmRestart goodRom) quiescedInFill = .fault .grainNumberExhausted :=
    exec_warmRestart_fault goodRom rfl rfl quiescedInFill_restartDue quiescedInFill_maxGrain_le
  obtain ⟨_, _, hrun, _⟩ := (h.1 _ _).2 _ hf
  obtain ⟨ht, hm⟩ := quiescedInFill_stopped
  simp [ht, hm] at hrun

/-- Refutes O47: it says that a start of FILL leaves the key pages as they were, but a LIMIT that is written and not stored goes back to its
stored value, as every setting does (R393). -/
theorem not_resetsAndSupplies : ¬ Obligations.ResetsAndSupplies := by
  intro h
  obtain ⟨t, ht, hfill, _⟩ := (h.1 limitWritten).1 { role := 0, boot := 0, test := false }
  obtain ⟨_, _, _, _, _, _, _, _, _, _, _, _, _, _, _, _, _, _, _, _, _, hpages, _⟩ := hfill
  cases ht
  exact limitWritten_powerOn_pages _ hpages

end Sys2Proof
end

section
/-! A command alone in its grain: its edge stamps it, it passes its checks, and an admin command's own meaning is what it leaves (R31, R43,
R94). -/

namespace Sys2Proof.Machine

/-! ## The row's operands -/

@[simp] theorem withOpcode_opcode (op : Nat) (c : Submission) : (withOpcode op c).desc.opcode = BitVec.ofNat 8 op := rfl
@[simp] theorem withOpcode_param (op off n : Nat) (c : Submission) : (withOpcode op c).desc.param off n = c.desc.param off n := rfl

/-- The byte of a number at a place of weight `sh` replaced by another. -/
theorem byte_replaced (n sh b : Nat) : n - n / sh % 256 * sh + b * sh = sh * (256 * (n / sh / 256) + b) + n % sh := by
  have hn : n = sh * (256 * (n / sh / 256) + n / sh % 256) + n % sh := by rw [Nat.div_add_mod, Nat.div_add_mod]
  have hcut : n - n / sh % 256 * sh = sh * (256 * (n / sh / 256)) + n % sh := Nat.sub_eq_of_eq_add (by linarith)
  rw [hcut]; ring

/-- A byte of the 32 that a key field holds stays within it. -/
theorem byte_replaced_lt {n b k : Nat} (hn : n < 2 ^ 256) (hb : b < 256) (hk : k < 32) :
    2 ^ (8 * k) * (256 * (n / 2 ^ (8 * k) / 256) + b) + n % 2 ^ (8 * k) < 2 ^ 256 := by
  have hw : 2 ^ (8 * k) * 256 * 2 ^ (248 - 8 * k) = 2 ^ 256 := by
    rw [show (256 : Nat) = 2 ^ 8 by norm_num, ← pow_add, ← pow_add]; congr 1; omega
  have hq : n / 2 ^ (8 * k) / 256 < 2 ^ (248 - 8 * k) := by
    rw [Nat.div_div_eq_div_mul]
    exact Nat.div_lt_of_lt_mul (by rwa [hw])
  have ht : n % 2 ^ (8 * k) < 2 ^ (8 * k) := Nat.mod_lt _ (by positivity)
  nlinarith [Nat.mul_le_mul_left (2 ^ (8 * k) * 256) (Nat.succ_le_of_lt hq), Nat.mul_le_mul_left (2 ^ (8 * k)) (Nat.succ_le_of_lt hb)]

/-- The row that names an operation fixes its parameter byte. -/
theorem withParam_param {off : Nat} (v : Nat) (c : Submission) (h : 0x20 ≤ off) (h' : off < 0x40) :
    (withParam off v c).desc.param off 1 = v % 256 := by
  have hlt := byte_replaced_lt (b := v % 256) c.desc.keyField.isLt (Nat.mod_lt _ (by norm_num)) (by omega : off - 0x20 < 32)
  simp only [withParam, Descriptor.param, BitVec.toNat_ofNat, byte_replaced]
  rw [Nat.mod_eq_of_lt hlt, Nat.mul_add_div (by positivity), Nat.div_eq_of_lt (Nat.mod_lt _ (by positivity))]
  omega

/-! ## The edge of a grain with one event -/

/-- The only event of a grain takes the grain's first stamp, and the rest of the grain follows. -/
theorem State.grainEdge_of_single {s : State} {e : Event} (hi : s.col.intake = [e]) (hc : s.col.carry = []) (hp : s.powered = true) :
    s.grainEdge = restOfGrain s.grain
      ((s.updCol fun k => { k with intake := [], carry := [], last := stampOf s.grain 0 }).applyEvent e (stampOf s.grain 0)) := by
  have hl : s.ordered = [(s.rank e, e)] := by simp [State.ordered, hi, hc, sortBy, sortBy.sortInto]
  have hf : s.pins.pwrFail = false := by simpa [State.powered] using hp
  have hs : State.stampAll s.grain Config.slotsPerGrain (s.updCol fun k => { k with intake := [], carry := [] }) [(s.rank e, e)] =
      State.stampAll s.grain (Config.slotsPerGrain - 1)
        (((s.updCol fun k => { k with intake := [], carry := [], last := stampOf s.grain 0 }).applyEvent e (stampOf s.grain 0)).mergeNew []).1
        (((s.updCol fun k => { k with intake := [], carry := [], last := stampOf s.grain 0 }).applyEvent e (stampOf s.grain 0)).mergeNew []).2 := by
    rw [show Config.slotsPerGrain = 4095 + 1 from rfl, State.stampAll, State.updCol_pins, hf]
    rfl
  simp only [State.grainEdge, hl, hs, restOfGrain]

/-! ## An admin command at its stamp -/

/-- An admin command that passes its first checks executes with its own descriptor. -/
theorem atStamp_admin {x b : State} {a : Arrival} {st : Stamp} {w : Work} (h : atStamp x a st = some (b, w))
    (hop : isAdminOp a.c.desc.opcode.toNat = true) : x.cmdApply a st = b.adminCmd w ∧ w.desc = a.c.desc := by
  unfold atStamp at h
  simp only [hop] at h
  split at h
  · next hs =>
    split at h
    · cases h
    · next z hz =>
      simp only [if_true, Option.some.injEq, Prod.mk.injEq] at h
      obtain ⟨rfl, rfl⟩ := h
      constructor
      · simp only [State.cmdApply, hs, hz, hop]; rfl
      · rfl
  · cases h

theorem State.adminCmd_eq_adminRun {s : State} {w : Work} (hf : s.adminFail w.sub = none) (ho : s.orderHeld w = false) :
    s.adminCmd w = s.adminRun w := by simp [State.adminCmd, hf, ho]

section
variable {s b t : State} {c : Submission} {w : Work} {i : Instr}

theorem desc_of_alone (h : Alone s c b w) (hop : isAdminOp c.desc.opcode.toNat = true) : w.desc = c.desc := by
  obtain ⟨a, rfl, _, _, _, _, hat⟩ := h.stamped
  exact (atStamp_admin hat hop).2

/-- A row of an admin command that is alone in its grain leaves what the command's own meaning leaves. -/
theorem executes_of_adminRun (hi : exec i s = s.command c true) (h : Alone s c b w) (hop : isAdminOp c.desc.opcode.toNat = true)
    (ht : b.adminRun w = t) : Executes i s t := by
  have hdesc := desc_of_alone h hop
  obtain ⟨a, rfl, hin, hcarry, hgrain, hpow, hat⟩ := h.stamped
  have hrun : b.adminCmd w = t :=
    (State.adminCmd_eq_adminRun (h.fields (by rw [Work.op, hdesc]; exact hop)) h.free).trans ht
  have happ : ((s.submit a.c).updCol fun k => { k with intake := [], carry := [], last := stampOf s.grain 0 }).applyEvent (.cmd a)
      (stampOf s.grain 0) = t := (atStamp_admin hat hop).1.trans hrun
  rw [Executes, hi, State.command, h.running, Bool.and_true, State.stamped_edge h.powered h.room,
    State.grainEdge_of_single hin hcarry hpow, hgrain, happ]

end

end Sys2Proof.Machine
end

section
/-! What the cluster's and the ports' commands leave (R163, R305 to R308, R318). -/

namespace Sys2Proof.Machine

section
variable {s b t : State} {c : Submission} {w : Work} {i : Instr}

theorem firstFail_none {l : List (Bool × Fail)} (h : ∀ e ∈ l, e.1 = true) : firstFail l = none := by
  induction l with
  | nil => rfl
  | cons e l ih =>
    obtain ⟨ok, f⟩ := e
    have hok : ok = true := h (ok, f) (by simp)
    rw [firstFail, hok, if_pos rfl, ih fun e he => h e (by simp [he])]

@[simp] theorem State.metaWrite_cluster (s : State) (n : Nat) : (s.metaWrite n).cluster = s.cluster := by
  simp only [State.metaWrite]; split <;> rfl

/-! ## How an admin command ends -/

theorem State.ok_eq (s : State) (w : Work) : s.ok w = s.deliver w { commit := w.stamp } := rfl
theorem State.fails_eq (s : State) (w : Work) (f : Fail) :
    s.fails w f = s.deliver w { status := f.1, detail := f.2, commit := w.stamp } := rfl
theorem State.refuse_eq (s : State) (w : Work) (st : Status) : s.refuse w st = s.deliver w { status := st, commit := w.stamp } := rfl

/-! ## ROLE_SET (R305) -/

theorem State.roleSet_service (hr : w.desc.param 0x20 1 < 3) (hm : b.mode = .service) (hp : b.cluster.pairs = []) :
    b.roleSet w = (({ b with cluster := { b.cluster with
      role := roleOf (w.desc.param 0x20 1), roleStored := some (roleOf (w.desc.param 0x20 1)) } }).record 0x803 w.stamp
        ([BitVec.ofNat 8 b.cluster.role.code, BitVec.ofNat 8 (w.desc.param 0x20 1)] ++ zeros 6)).deliver w { commit := w.stamp } := by
  simp only [State.roleSet]
  rw [if_neg (Nat.not_le.2 hr), if_neg (by simp [hm, hp]), State.ok_eq]
  rfl

theorem State.roleSet_refused (hr : w.desc.param 0x20 1 < 3) (h : b.mode ≠ .service ∨ b.cluster.pairs ≠ []) :
    b.roleSet w = b.deliver w { status := .conditionFailed, commit := w.stamp } := by
  simp only [State.roleSet]
  rw [if_neg (Nat.not_le.2 hr), if_pos (by simpa using h), State.refuse_eq]

/-! ## MAP_SET (R306, R308) -/

theorem State.mapSetCmd_identity {h : Bytes} (hb : w.block 64 = .ok h) (h0 : field h 0 1 = 0) : b.mapSetCmd w = b.mapIdentity w h := by
  simp [State.mapSetCmd, hb, h0]

theorem State.mapSetCmd_map {h m : Bytes} (hb : w.block 64 = .ok h) (h1 : field h 0 1 = 1) (hm : w.block 65600 = .ok m) :
    b.mapSetCmd w = b.mapMap w m := by
  simp [State.mapSetCmd, hb, h1, hm]

/-- The identity that a block names. -/
def identityOf (h : Bytes) : Identity :=
  { v6 := field h 1 1 = 6, device := field h 2 2, manager := field h 4 2, udp := field h 6 2, port := field h 8 1
    group := BitVec.ofNat 128 (fieldBe h 0x20 16), address := BitVec.ofNat 128 (fieldBe h 0x30 16) }

theorem State.mapIdentity_taken {h : Bytes} (hr : b.cluster.role ≠ .standalone) (hf : b.identityFail h = none) (hk : b.index.keys = [])
    (hp : b.cluster.pairs = []) :
    b.mapIdentity w h = ((({ b with cluster := { b.cluster with identity := some (identityOf h) }
                                    index := { b.index with fpKey := some (BitVec.ofNat 128 (field h 0x10 16)) } }).metaWrite
      0).mapEvent 0 b.cluster.epoch (identityOf h).manager w.stamp).deliver w { commit := w.stamp } := by
  simp only [State.mapIdentity, hf]
  rw [if_neg hr, if_neg (by simp [hk]), if_neg (by simp [hp]), State.ok_eq]
  rfl

theorem State.mapMovesPair_of_no_pair (hp : b.cluster.pairs = []) (m : Bytes) : b.mapMovesPair m = false := by
  simp [State.mapMovesPair, hp]

theorem State.mapMap_taken {m : Bytes} (hr : b.cluster.role = .manager) (hf : mapFail m = none) (he : b.cluster.epoch < field m 0x0C 4)
    (hp : b.cluster.pairs = []) :
    b.mapMap w m = ((((b.installMap m (field m 0x0C 4) w.stamp w.stamp).metaWrite 0).mapEvent 1 (field m 0x0C 4) b.deviceNumber
      w.stamp).publish).deliver w { commit := w.stamp } := by
  have hnum : ((b.installMap m (field m 0x0C 4) w.stamp w.stamp).metaWrite 0).deviceNumber = b.deviceNumber := by
    rw [State.deviceNumber, State.metaWrite_cluster]; rfl
  simp only [State.mapMap, hf, hnum]
  rw [if_neg (by simp [hr]), if_neg (by simp [Nat.not_le.2 he, State.mapMovesPair_of_no_pair hp]), State.ok_eq]

theorem State.mapMap_stale {m : Bytes} (hr : b.cluster.role = .manager) (hf : mapFail m = none) (he : field m 0x0C 4 ≤ b.cluster.epoch) :
    b.mapMap w m = b.deliver w { status := .conditionFailed, commit := w.stamp } := by
  simp only [State.mapMap, hf]
  rw [if_neg (by simp [hr]), if_pos (.inl he), State.refuse_eq]

/-! ## PAIR_END (R318) -/

section
variable {p : Pair} (hfind : (b.cluster.pairs.find? fun p => p.number = w.desc.param 0x20 2) = some p) (hfn : p.fn = w.fn)
include hfind hfn

theorem State.pairEnd_cancel (hd : w.desc.param 0x22 1 = 0) :
    b.pairEnd w = ((b.pairFail p 1 w.stamp).metaWrite 0).deliver w { commit := w.stamp } := by
  simp only [State.pairEnd, hfind, hd]
  rw [if_neg (by decide), if_neg (by simp [hfn]), if_pos trivial, State.ok_eq]

theorem State.pairEnd_keepSource (hu : p.state = .uncertain) (hd : w.desc.param 0x22 1 = 1) :
    b.pairEnd w = (((((if p.target then b.dropCopies p else b).removePair p.number).pairEvent p 0 1 w.stamp).metaWrite 0).deliver w
      { commit := w.stamp }) := by
  simp only [State.pairEnd, hfind, hd]
  rw [if_neg (by decide), if_neg (by simp [hfn]), if_neg (by decide), if_neg (by simp [hu]), if_pos trivial, State.ok_eq]

theorem State.pairEnd_keepTarget (hu : p.state = .uncertain) (hd : w.desc.param 0x22 1 = 2) :
    b.pairEnd w = ((((if p.target then b.overrideOwner p b.deviceNumber else (b.overrideOwner p p.peer).dropSlices p).removePair
      p.number).pairEvent p 0 1 w.stamp).metaWrite 0).deliver w { commit := w.stamp } := by
  simp only [State.pairEnd, hfind, hd]
  rw [if_neg (by decide), if_neg (by simp [hfn]), if_neg (by decide), if_neg (by simp [hu]), if_neg (by decide), State.ok_eq]

end

/-! ## PORT_SET (R163) -/

section
variable {k : Bytes} (hk : w.block 0xA0 = .ok k)
include hk

theorem State.portSet_quad (h0 : field k 0 1 = 0) (hq : field k 1 1 < 4) (hm : field k 2 1 < 5 ∨ field k 2 1 = 255)
    (hz : allZero (slice k 0xC 4) = true) (hz' : allZero (slice k 0x88 24) = true)
    (hoff : ∀ p ∈ quadPorts (field k 1 1), (b.port p).config.enable = false) :
    b.portSet w = (({ b with ports := { b.ports with
      quads := b.ports.quads.set (field k 1 1) (field k 2 1)
      stQuads := some (b.ports.quads.set (field k 1 1) (field k 2 1)) } }).metaWrite 0).deliver w { commit := w.stamp } := by
  have hff : firstFail [(decide (field k 1 1 < 4), badArea 1), (decide (field k 2 1 < 5) || decide (field k 2 1 = 255), badArea 2),
      (allZero (slice k 0xC 4), badArea 0xC), (allZero (slice k 0x88 24), badArea 0x88)] = none :=
    firstFail_none (by simp [hq, hm, hz, hz'])
  have hany : ((quadPorts (field k 1 1)).any fun p => (b.port p).config.enable) = false := by simpa using hoff
  simp only [State.portSet, hk, h0, hff, hany]
  rfl

theorem State.portSet_port (h1 : field k 0 1 = 1) (hf : b.portFail k = none) (hr : b.portRefused (field k 1 1) (portConfigOf k) = false) :
    b.portSet w = (((b.portApply (field k 1 1) (portConfigOf k)).updPorts fun x =>
      { x with stPorts := mapSet x.stPorts (field k 1 1) (portConfigOf k) }).metaWrite 0).deliver w { commit := w.stamp } := by
  simp only [State.portSet, hk, h1, hf, hr]
  rfl

theorem State.portSet_udpPort (h2 : field k 0 1 = 2) (hu : field k 4 2 ≠ 0) (hu' : field k 4 2 ≠ 319) (hu'' : field k 4 2 ≠ 320)
    (hz : allZero (slice k 0xC 4) = true) (hz' : allZero (slice k 0x88 24) = true) (hw : b.wire.sessions = []) :
    b.portSet w = (({ b with ports := { b.ports with udp := field k 4 2, stUdp := field k 4 2 } }).metaWrite 0).deliver w
      { commit := w.stamp } := by
  have hff : firstFail [(field k 4 2 != 0 && field k 4 2 != 319 && field k 4 2 != 320, badArea 4), (allZero (slice k 0xC 4), badArea 0xC),
      (allZero (slice k 0x88 24), badArea 0x88)] = none :=
    firstFail_none (by simp [hu, hu', hu'', hz, hz'])
  have hon : (b.sessionOn fun _ => true) = false := by simp [State.sessionOn, hw]
  simp only [State.portSet, hk, h2, hff, hon]
  rfl

end

/-! ## The commands' rows -/

theorem op_of_alone {op : Nat} (h : Alone s (withOpcode op c) b w) (hop : isAdminOp (BitVec.ofNat 8 op).toNat = true) :
    w.op = (BitVec.ofNat 8 op).toNat := by
  rw [Work.op, desc_of_alone h hop, withOpcode_opcode]

theorem executes_roleSet (hi : exec i s = s.command (withOpcode 0xB8 c) true) (h : Alone s (withOpcode 0xB8 c) b w)
    (ht : b.roleSet w = t) : Executes i s t :=
  executes_of_adminRun hi h rfl (by rwa [State.adminRun, op_of_alone h rfl])

theorem executes_mapSet (hi : exec i s = s.command (withOpcode 0xB9 c) true) (h : Alone s (withOpcode 0xB9 c) b w)
    (ht : b.mapSetCmd w = t) : Executes i s t :=
  executes_of_adminRun hi h rfl (by rwa [State.adminRun, op_of_alone h rfl])

theorem executes_pairEnd (hi : exec i s = s.command (withOpcode 0xBB c) true) (h : Alone s (withOpcode 0xBB c) b w)
    (ht : b.pairEnd w = t) : Executes i s t :=
  executes_of_adminRun hi h rfl (by rwa [State.adminRun, op_of_alone h rfl])

theorem executes_portSet (hi : exec i s = s.command (withOpcode 0xC2 c) true) (h : Alone s (withOpcode 0xC2 c) b w)
    (ht : b.portSet w = t) : Executes i s t :=
  executes_of_adminRun hi h rfl (by rwa [State.adminRun, op_of_alone h rfl])

/-- The disposition that a PAIR_END row names. -/
theorem disposition_of_alone {v : Nat} (h : Alone s (withOpcode 0xBB (withParam 0x22 v c)) b w) : w.desc.param 0x22 1 = v % 256 := by
  rw [desc_of_alone h rfl, withOpcode_param, withParam_param v c (by norm_num) (by norm_num)]

end

end Sys2Proof.Machine

namespace Sys2Proof

open Machine

/-- Settles O30: each row is alone in its grain, so it leaves what its command's meaning leaves (`executes_of_adminRun`), which the lemma of
that command spells for the condition at hand. -/
theorem clusterAndPortCommands : Obligations.ClusterAndPortCommands := by
  intro s b c w
  refine ⟨?roleTaken, ?roleRefused, ?identity, ?map, ?mapStale, ?pairEnd, ?quad, ?port, ?udpPort⟩
  case roleTaken =>
    rintro role h rfl hr hm hp
    exact executes_roleSet rfl h (State.roleSet_service hr hm hp)
  case roleRefused => exact fun h hr hc => executes_roleSet rfl h (State.roleSet_refused hr hc)
  case identity =>
    rintro k id h hb h0 hr hf hk hp rfl
    exact executes_mapSet rfl h ((State.mapSetCmd_identity hb h0).trans (State.mapIdentity_taken hr hf hk hp))
  case map =>
    exact fun k m h hb h1 hm hr hf he hp =>
      executes_mapSet rfl h ((State.mapSetCmd_map hb h1 hm).trans (State.mapMap_taken hr hf he hp))
  case mapStale =>
    exact fun k m h hb h1 hm hr hf he => executes_mapSet rfl h ((State.mapSetCmd_map hb h1 hm).trans (State.mapMap_stale hr hf he))
  case pairEnd =>
    intro p hfind hfn
    refine ⟨fun h => executes_pairEnd rfl h (State.pairEnd_cancel hfind hfn (disposition_of_alone h)),
      fun hu ht => ⟨fun h => ?sourceKept, fun h => ?sourceGone⟩, fun hu ht => ⟨fun h => ?targetGone, fun h => ?targetKept⟩⟩
    case sourceKept =>
      exact executes_pairEnd rfl h (by rw [State.pairEnd_keepSource hfind hfn hu (disposition_of_alone h), ht]; rfl)
    case sourceGone =>
      exact executes_pairEnd rfl h (by rw [State.pairEnd_keepTarget hfind hfn hu (disposition_of_alone h), ht]; rfl)
    case targetGone =>
      exact executes_pairEnd rfl h (by rw [State.pairEnd_keepSource hfind hfn hu (disposition_of_alone h), ht]; rfl)
    case targetKept =>
      exact executes_pairEnd rfl h (by rw [State.pairEnd_keepTarget hfind hfn hu (disposition_of_alone h), ht]; rfl)
  case quad =>
    rintro k q m h hk h0 rfl rfl hq hm hz hz' hoff
    exact executes_portSet rfl h (State.portSet_quad hk h0 hq hm hz hz' hoff)
  case port =>
    rintro k p cfg h hk h1 rfl hf rfl hr
    exact executes_portSet rfl h (State.portSet_port hk h1 hf hr)
  case udpPort =>
    rintro k u h hk h2 rfl hu hu' hu'' hz hz' hw
    exact executes_portSet rfl h (State.portSet_udpPort hk h2 hu hu' hu'' hz hz' hw)

end Sys2Proof
end

section
/-! What tells of a happening and changes nothing else: the events and the recorder's records (R344 to R347, R379), and a change of mode
(R15, R343). -/

namespace Sys2Proof.Machine

/-! ## Raises and records -/

/-- `t` is `s` but for the events and the recorder, and every raise of `s` stands in it. -/
def Reported (s t : State) : Prop := (∃ e x, t = { s with events := e, terrace := x }) ∧ s.events.raises ⊆ t.events.raises

theorem Reported.refl (s : State) : Reported s s := ⟨⟨_, _, rfl⟩, fun _ h => h⟩

theorem Reported.trans {s t u : State} (h : Reported s t) (h' : Reported t u) : Reported s u := by
  obtain ⟨⟨e, x, rfl⟩, hr⟩ := h
  obtain ⟨⟨e', x', rfl⟩, hr'⟩ := h'
  exact ⟨⟨e', x', rfl⟩, fun _ hm => hr' (hr hm)⟩

/-- A fold of happenings that are each reported. -/
theorem Reported.foldl {α : Type} {f : State → α → State} (h : ∀ s a, Reported s (f s a)) (l : List α) (s : State) :
    Reported s (l.foldl f s) := by
  induction l generalizing s with
  | nil => exact .refl s
  | cons a l ih => exact (h s a).trans (ih _)

theorem State.addRecord_events (s : State) (type : Nat) (st : Stamp) (data : Bytes) : (s.addRecord type st data).1.events = s.events := by
  obtain ⟨x, h⟩ := s.addRecord_frame type st data
  rw [h]

theorem State.record_raises (s : State) (type : Nat) (st : Stamp) (data : Bytes) :
    s.events.raises ⊆ (s.record type st data).events.raises := by
  have hev := s.addRecord_events type st data
  unfold State.record
  split
  · next t h =>
    rw [h] at hev
    exact fun _ hm => by rw [hev]; exact hm
  · next t h =>
    rw [h] at hev
    change t.events = _ at hev
    split
    · exact fun _ hm => by rw [← hev] at hm; exact hm
    · intro r hm
      rw [State.addRecord_events]
      rw [← hev] at hm
      exact List.mem_cons_of_mem _ hm

theorem State.record_reported (s : State) (type : Nat) (st : Stamp) (data : Bytes) : Reported s (s.record type st data) :=
  ⟨s.record_frame type st data, s.record_raises type st data⟩

theorem State.raiseOnly_reported (s : State) (source fn : Nat) (st : Stamp) (data : BitVec 128) :
    Reported s (s.raiseOnly source fn st data) :=
  ⟨⟨_, _, rfl⟩, fun _ hm => List.mem_cons_of_mem _ hm⟩

theorem State.raise_reported (s : State) (source fn : Nat) (st : Stamp) (type : Nat) (data : BitVec 128) :
    Reported s (s.raise source fn st type data) :=
  (s.raiseOnly_reported source fn st data).trans (State.record_reported _ type st _)

/-- What is raised stands among the raises. -/
theorem State.raise_mem (s : State) (source fn : Nat) (st : Stamp) (type : Nat) (data : BitVec 128) :
    ({ fn := fn, source := source, stamp := st, data := data } : Raise) ∈ (s.raise source fn st type data).events.raises :=
  State.record_raises _ type st _ (List.mem_cons_self ..)

/-! ## A change of mode -/

/-- A change into a mode in which the cores run touches the mode, ALERT#, the events and the recorder. -/
theorem State.enterMode_frame (s : State) {m : Mode} (h : m.running = true) :
    ∃ p e x, s.enterMode m = { s with mode := m, pins := p, events := e, terrace := x } := by
  have hraise (u : State) (d : BitVec 128) : ∃ e x, u.raise 1 0 0 6 d = { u with events := e, terrace := x } := u.raise_frame 1 0 0 6 d
  cases m
  case fill | boot => cases h
  all_goals
    obtain ⟨e, x, he⟩ := hraise _ _
    exact ⟨_, e, x, he⟩

end Sys2Proof.Machine
end

section
/-! REBUILD and the entry into SERVICE or SEALED (R15, R24, R25, R251 to R253, R260, R365, R368). -/

namespace Sys2Proof.Machine

section
variable {s t : State} {f : RebuildFindings}

theorem State.powered_of_cored (h : s.cored = true) : s.pins.pwrFail = false := by
  simp [State.cored, State.powered] at h; exact h.1

theorem State.rebuildRun_idle (h : s.update.rebuilt = true) : s.rebuildRun f = s := by simp [State.rebuildRun, h]

/-! ## The end of REBUILD -/

/-- What the end of a rebuild leaves of Delta: the path taken and how long it took. -/
def rebuiltDelta (d : Delta) (path : Nat) (f : RebuildFindings) (replayed boot : Nat) : Delta :=
  { d with phase := 0, progress := 0, path := path, scanCause := f.scanCause, headerMs := f.headerMs, loadMs := f.loadMs,
           replayMs := f.replayMs, replayed := replayed, rebuildBoot := boot }

/-- The state behind source 128, in which REBUILD has rebuilt the index. -/
def State.rebuildDone (s : State) (path : Nat) (f : RebuildFindings) (replayed : Nat) : State :=
  ((s.updDelta fun d => rebuiltDelta d path f replayed s.update.bootCount).raise 128 0 0 0x50F
    (eventData [(1, path), (4, f.headerMs), (4, f.loadMs), (4, f.replayMs)])).updUpdate fun u => { u with rebuilt := true }

theorem State.rebuildDone_frame (s : State) (path : Nat) (f : RebuildFindings) (replayed : Nat) :
    ∃ e x, s.rebuildDone path f replayed = { s with
      delta := rebuiltDelta s.delta path f replayed s.update.bootCount, update := { s.update with rebuilt := true }
      events := e, terrace := x } := by
  obtain ⟨e, x, h⟩ := (s.updDelta fun d => rebuiltDelta d path f replayed s.update.bootCount).raise_frame 128 0 0 0x50F
    (eventData [(1, path), (4, f.headerMs), (4, f.loadMs), (4, f.replayMs)])
  exact ⟨e, x, by rw [State.rebuildDone, h]; rfl⟩

theorem State.rebuildDone_mem (s : State) (path : Nat) (f : RebuildFindings) (replayed : Nat) :
    ({ fn := 0, source := 128, stamp := 0, data := eventData [(1, path), (4, f.headerMs), (4, f.loadMs), (4, f.replayMs)] } : Raise) ∈
      (s.rebuildDone path f replayed).events.raises :=
  State.raise_mem _ 128 0 0 0x50F _

/-- On unsealed media a rebuild ends in REBUILD, and tells at most what it waits for. -/
theorem State.rebuildEnd_unsealed {path n : Nat} (h : s.delta.sealed = false) : Reported (s.rebuildDone path f n) (s.rebuildEnd path f n) := by
  obtain ⟨e, x, hd⟩ := s.rebuildDone_frame path f n
  have hs : (s.rebuildDone path f n).delta.sealed = false := by rw [hd]; exact h
  have heq : s.rebuildEnd path f n =
      if (s.rebuildDone path f n).delta.sealed then (s.rebuildDone path f n).sealedEntry
      else if !(s.rebuildDone path f n).time.lockedBoot then
        (s.rebuildDone path f n).raise 2 0 0 6 (eventData [(1, (s.rebuildDone path f n).time.quality.code)])
      else if !(s.rebuildDone path f n).update.warm && decide ((s.rebuildDone path f n).time.lockGrain ≤ (s.rebuildDone path f n).delta.mediaGrain) then
        (s.rebuildDone path f n).raise 24 0 0 0x103
          (eventData [(8, (s.rebuildDone path f n).time.lockGrain), (8, (s.rebuildDone path f n).delta.mediaGrain)])
      else s.rebuildDone path f n := rfl
  rw [heq, hs]
  simp only [Bool.false_eq_true, if_false]
  split
  · exact State.raise_reported ..
  · split
    · exact State.raise_reported ..
    · exact .refl _

/-- What a rebuild's end leaves on unsealed media, with source 128. -/
theorem State.rebuildEnd_frame (h : s.delta.sealed = false) (path n : Nat) (f : RebuildFindings) :
    ∃ e x, s.rebuildEnd path f n = { s with
        delta := rebuiltDelta s.delta path f n s.update.bootCount, update := { s.update with rebuilt := true }, events := e, terrace := x } ∧
      ({ fn := 0, source := 128, stamp := 0, data := eventData [(1, path), (4, f.headerMs), (4, f.loadMs), (4, f.replayMs)] } : Raise) ∈
        e.raises := by
  obtain ⟨e, x, hdone⟩ := s.rebuildDone_frame path f n
  have hmem := s.rebuildDone_mem path f n
  obtain ⟨⟨e', x', hend⟩, hsub⟩ := State.rebuildEnd_unsealed (f := f) (path := path) (n := n) h
  have hmem' := hsub hmem
  rw [hend, hdone] at hmem'
  exact ⟨e', x', by rw [hend, hdone], hmem'⟩

/-- On sealed media a rebuild ends with the entry into SEALED. -/
theorem State.rebuildEnd_sealed {path n : Nat} (h : s.delta.sealed = true) :
    s.rebuildEnd path f n = (s.rebuildDone path f n).sealedEntry := by
  obtain ⟨e, x, hd⟩ := s.rebuildDone_frame path f n
  have hs : (s.rebuildDone path f n).delta.sealed = true := by rw [hd]; exact h
  simp only [State.rebuildEnd]
  exact if_pos hs

/-! ## A warm restart (R251) -/

/-- Nonce counters and write sequence go on from what was reserved. -/
def State.resumed (s : State) : State :=
  { s with gorge := { s.gorge with pages := s.gorge.pages.map fun e => (e.1, { e.2 with counter := e.2.reserved }) }
           index := { s.index with wseq := s.index.wseqEnd } }

/-- What a check of the sealed sums has to tell: no scan and no time. -/
def noScan (f : RebuildFindings) : RebuildFindings := { f with scanCause := 0, headerMs := 0, loadMs := 0, replayMs := 0 }

/-- The sums hold: every counter goes on from what was reserved, and the rebuild ends by path 2. -/
theorem State.rebuildRun_warm (hm : s.mode = .rebuild) (hp : s.pins.pwrFail = false) (hr : s.update.rebuilt = false) (hw : s.update.warm = true)
    (hsum : s.sumsHold = true) :
    s.rebuildRun f = s.resumed.rebuildEnd 2 (noScan f) 0 := by
  have hsum' : s.skipNonces.sumsHold = true := hsum
  simp only [State.rebuildRun]
  rw [if_neg (by simp [hm, hp, hr]), if_pos hw, if_pos hsum']
  rfl

/-! ## A rebuild after a power-on or SYS_RESET# (R216, R251 to R253) -/

theorem State.dieEvent_reported (s : State) (c d cause : Nat) : Reported s (s.dieEvent c d cause) := State.raise_reported ..

/-- The dies that discovery refuses are told of. -/
theorem State.refusals_reported (p : NandPopulation) (l : List (Nat × Nat)) (s : State) :
    Reported s (l.foldl (fun s (c, d) => ((dieRefusal p c d).map (s.dieEvent c d)).getD s) s) := by
  refine .foldl (fun s a => ?_) l s
  obtain ⟨c, d⟩ := a
  cases h : dieRefusal p c d with
  | none => simp only [h, Option.map_none, Option.getD_none]; exact .refl s
  | some cause => simp only [h, Option.map_some, Option.getD_some]; exact State.dieEvent_reported ..

/-- Discovery with a recorded population tells of channels and dies, and touches the population's states and NAND_WP#. -/
theorem State.discover_recorded {p q : NandPopulation} (h : s.delta.pop = some q) :
    ∃ dies e x, s.discover p = { s with
      pins := { s.pins with nandWp := false }, delta := { s.delta with chState := 2, chFailed := p.failedCh, dies := dies }
      events := e, terrace := x } := by
  unfold State.discover
  extract_lets found channels sites refused use partly partlyTold blank ignored gone goneTold
  have hrefused : Reported found refused :=
    (Reported.foldl (fun _ _ => State.raise_reported ..) _ _).trans (State.refusals_reported p _ _)
  have hignored : Reported refused ignored := by
    refine .foldl (fun u a => ?_) _ _
    dsimp only
    split
    · exact State.dieEvent_reported ..
    · exact .refl u
  have hgone : Reported ignored goneTold := by
    refine .foldl (fun u a => ?_) _ _
    split
    · exact .refl u
    · exact State.dieEvent_reported ..
  have hpop : refused.delta.pop = some q := by
    obtain ⟨⟨e, x, he⟩, _⟩ := hrefused
    rw [he]; exact h
  obtain ⟨⟨e, x, he⟩, _⟩ := hrefused.trans (hignored.trans hgone)
  rw [hpop, he]
  exact ⟨_, e, x, rfl⟩

theorem dieRefusal_of_absent {p : NandPopulation} (h : p.present = []) (c d : Nat) : dieRefusal p c d = none := by simp [dieRefusal, h]

/-- Where no die answers, none is refused. -/
theorem State.refusals_of_absent {p : NandPopulation} (h : p.present = []) (l : List (Nat × Nat)) (s : State) :
    l.foldl (fun s (c, d) => ((dieRefusal p c d).map (s.dieEvent c d)).getD s) s = s := by
  induction l with
  | nil => rfl
  | cons a l ih =>
    obtain ⟨c, d⟩ := a
    simp only [List.foldl_cons, dieRefusal_of_absent h c d, Option.map_none, Option.getD_none, ih]

/-- Discovery on blank media without a usable population tells so, under cause 5. -/
theorem State.discover_nothing {p : NandPopulation} (h : s.delta.pop = none) (hp : p.present = []) (hc : p.failedCh = []) :
    s.discover p = (s.updPins fun x => { x with nandWp := false }).dieEvent 0 0 5 := by
  unfold State.discover
  extract_lets found channels sites refused use partly partlyTold blank ignored gone goneTold
  have hrefused : refused = found := by
    simp only [refused, State.refusals_of_absent hp, channels, hc, List.foldl_nil]
  have huse : use = [] := by simp only [use, hp, List.filter_nil]
  have hpartly : partlyTold = found := by simp only [partlyTold, partly, hp, List.filter_nil, List.foldl_nil, hrefused]
  rw [show refused.delta.pop = none by rw [hrefused]; exact h, huse, hpartly]
  rfl

/-- Without a population there is nothing to rebuild. -/
theorem State.rebuildRun_nothing (hm : s.mode = .rebuild) (hp : s.pins.pwrFail = false) (hr : s.update.rebuilt = false)
    (hw : s.update.warm = false) (hpop : s.delta.pop = none) (hpres : f.nand.present = []) (hch : f.nand.failedCh = []) :
    s.rebuildRun f = (s.updPins fun x => { x with nandWp := false }).dieEvent 0 0 5 := by
  have hpop' : (s.discover f.nand).delta.pop.isNone = true := by
    obtain ⟨⟨e, x, he⟩, _⟩ := (s.updPins fun x => { x with nandWp := false }).dieEvent_reported 0 0 5
    rw [State.discover_nothing hpop hpres hch, he]
    simp [hpop]
  simp only [State.rebuildRun, hpop']
  rw [if_neg (by simp [hm, hp, hr]), if_neg (by simp [hw]), if_pos trivial, State.discover_nothing hpop hpres hch]

theorem State.scanEvent_reported (s : State) (cause : Nat) : Reported s (s.scanEvent cause) := by
  unfold State.scanEvent
  split
  · exact .refl s
  · exact State.raise_reported ..

/-- The checkpoints that a full scan asks for touch Col's intake. -/
theorem State.fullRotation_frame (s : State) (cause : Nat) : ∃ c, s.fullRotation cause = { s with col := c } := by
  have fold (g : State → Nat → Event) (l : List Nat) (u : State) : ∃ c, l.foldl (fun u i => u.arrive (g u i)) u = { u with col := c } := by
    induction l generalizing u with
    | nil => exact ⟨_, rfl⟩
    | cons i l ih =>
      obtain ⟨c, h⟩ := ih (u.arrive (g u i))
      exact ⟨c, h⟩
  unfold State.fullRotation
  split
  · exact ⟨_, rfl⟩
  · exact fold (fun u i => .step (.checkpoint i u.index.wseq []) []) _ s

/-- The index after the phases: no poisoned line, no held slice, and the sequences past what was reserved. -/
theorem State.indexRebuilt_frame (s : State) : ∃ removing dirty intents dram, s.indexRebuilt.resumeDuties = { s with
    index := { s.index with keys := s.index.keys.map fun k => { k with poisoned := false }, heldSlices := [], wseq := s.index.wseqEnd
                            removing := removing, ckptDirty := dirty }
    delta := { s.delta with intents := intents }, dram := dram } := ⟨_, _, _, _, rfl⟩

/-- What the rebuild phases leave on unsealed media. -/
theorem State.rebuildPhases_unsealed {path : Nat} (h : s.delta.sealed = false) (ht : s.rebuildPhases f path = t) :
    t.mode = s.mode ∧ t.pins = s.pins ∧ t.update = { s.update with rebuilt := true } ∧ t.delta.clean = s.delta.clean ∧
      t.delta.health = s.delta.health ∧ t.delta.path = (if f.scanCause ≠ 0 then 3 else path) ∧ t.index.wseq = s.index.wseqEnd ∧
      t.index.heldSlices = [] ∧ t.index.keys = s.index.keys.map fun k => { k with poisoned := false } := by
  subst ht
  unfold State.rebuildPhases
  extract_lets told n found
  obtain ⟨⟨e, x, htold⟩, _⟩ : Reported s told := s.scanEvent_reported f.scanCause
  obtain ⟨removing, dirty, intents, dram, hindex⟩ := found.indexRebuilt_frame
  generalize hu : found.indexRebuilt.resumeDuties = u at hindex ⊢
  have hs : u.delta.sealed = false := by
    rw [hindex]
    change told.delta.sealed = false
    rw [htold]; exact h
  generalize (if f.scanCause ≠ 0 then 3 else path) = way
  obtain ⟨c, hrot⟩ := State.fullRotation_frame (u.rebuildEnd way f n) f.scanCause
  obtain ⟨e', x', hend, _⟩ := State.rebuildEnd_frame hs way n f
  rw [hrot, hend, hindex, show found = told.updDelta _ from rfl, htold]
  exact ⟨rfl, rfl, rfl, rfl, rfl, rfl, rfl, rfl, rfl⟩

/-- The rebuild goes on behind discovery, on media that hold a population. -/
theorem State.rebuildRun_cold {p : NandPopulation} (hm : s.mode = .rebuild) (hp : s.pins.pwrFail = false) (hr : s.update.rebuilt = false)
    (hw : s.update.warm = false) (hpop : s.delta.pop = some p) : s.rebuildRun f = (s.discover f.nand).rebuildCold f false := by
  obtain ⟨dies, e, x, hd⟩ := State.discover_recorded (p := f.nand) hpop
  have hpop' : (s.discover f.nand).delta.pop.isNone = false := by rw [hd]; simp [hpop]
  have hblank : s.delta.pop.isNone = false := by simp [hpop]
  simp only [State.rebuildRun, hpop', hblank]
  rw [if_neg (by simp [hm, hp, hr]), if_neg (by simp [hw])]
  rfl

/-- A rebuild counts the unsafe shutdown that it finds, and tells of it. -/
theorem State.unsafeShutdown_frame (s : State) (data : BitVec 128) : ∃ e x,
    (if !s.delta.clean then
      (s.updDelta fun d => { d with health := { d.health with unsafe_ := d.health.unsafe_ + 1 } }).raise 126 0 0 0x50D data
    else s) = { s with
      delta := { s.delta with health := { s.delta.health with unsafe_ := s.delta.health.unsafe_ + (if s.delta.clean then 0 else 1) } }
      events := e, terrace := x } := by
  cases hc : s.delta.clean with
  | true => exact ⟨_, _, rfl⟩
  | false =>
    obtain ⟨e, x, he⟩ := State.raise_frame _ 126 0 0 0x50D data
    exact ⟨e, x, he⟩

theorem State.pairsRestart_of_no_pair (h : s.cluster.pairs = []) : s.pairsRestart = s := by rw [State.pairsRestart, h]; rfl

/-- A cold rebuild of a cluster's device without pairs counts an unsafe shutdown, and goes through its phases. -/
theorem State.rebuildCold_frame (hpairs : s.cluster.pairs = []) : ∃ g e x, s.rebuildCold f false = ({ s with
    delta := { s.delta with clean := false, health := { s.delta.health with
      unsafe_ := s.delta.health.unsafe_ + (if s.delta.clean then 0 else 1) } }
    gorge := g, events := e, terrace := x } : State).rebuildPhases f (if s.delta.clean then 0 else 1) := by
  obtain ⟨e, x, he⟩ := s.unsafeShutdown_frame (eventData [(8, s.update.bootCount - 1)])
  refine ⟨s.resumeNonces.gorge, e, x, ?_⟩
  have hway : (if (!s.delta.clean) = true then 1 else 0) = if s.delta.clean = true then 0 else 1 := by cases s.delta.clean <;> rfl
  have hkey : ¬(false = true ∧ s.cluster.role = .standalone ∧ s.index.fpKey.isNone = true) := by simp
  simp only [State.rebuildCold]
  rw [if_neg hkey, Bool.not_false, Bool.true_and, he, State.pairsRestart_of_no_pair, hway]
  · rfl
  · exact hpairs

/-! ## The entry into SERVICE or SEALED (R15, R24, R365, R368) -/

theorem State.patrolBegin_frame (s : State) : ∃ n, s.patrolBegin = { s with delta := { s.delta with patrolStart := n } } := by
  cases h : decide (s.delta.patrolStart = 0) with
  | true => exact ⟨s.grain, by simp [State.patrolBegin, State.updDelta, of_decide_eq_true h]⟩
  | false => exact ⟨s.delta.patrolStart, by simp [State.patrolBegin, State.updDelta, of_decide_eq_false h]⟩

/-- A mode in which the cores run and the first patrol cycle begin. -/
theorem State.patrolMode_frame (s : State) {m : Mode} (h : m.running = true) : ∃ n p e x, (s.enterMode m).patrolBegin = { s with
    mode := m, delta := { s.delta with patrolStart := n }, pins := p, events := e, terrace := x } := by
  obtain ⟨p, e, x, hm⟩ := s.enterMode_frame h
  obtain ⟨n, hn⟩ := (s.enterMode m).patrolBegin_frame
  exact ⟨n, p, e, x, by rw [hn, hm]⟩

theorem State.trialStart_set (h : s.inTrial = true) (hd : s.spi.up.deadline = 0) :
    s.trialStart = { s with spi := s.spi.upWrite { s.spi.up with deadline := s.grain + 1000000 * s.spi.up.window } } := by
  rw [State.trialStart, if_pos ⟨h, hd⟩]; rfl

theorem State.trialStart_kept (h : s.inTrial = false ∨ s.spi.up.deadline ≠ 0) : s.trialStart = s := by
  rw [State.trialStart, if_neg]
  rintro ⟨ht, hd⟩
  rcases h with h | h
  · simp [h] at ht
  · exact h hd

/-- What the end of an activation leaves of the update. -/
def activationOver (u : Update) : Update := { u with quiesce := 0, revert := false, halfRaised := false, expired := false, active := none }

theorem State.activateEnd_none (h : s.update.active = none) : s.activateEnd = s.updUpdate activationOver := by
  simp only [State.activateEnd, State.updUpdate_update, h, Option.bind_none]
  rfl

theorem State.activateEnd_some {st : Stamp} {w : Work} (h : s.update.active = some st) (hw : s.work? st = some w) :
    s.activateEnd = (s.updUpdate activationOver).deliver w (if s.inTrial then { commit := w.stamp }
      else { status := .conditionFailed, detail := s.update.outcome, commit := w.stamp }) := by
  have hwork : (s.updUpdate fun u => { u with quiesce := 0, revert := false, halfRaised := false, expired := false }).work? st = some w := hw
  simp only [State.activateEnd, State.updUpdate_update, h, Option.bind_some, hwork]
  cases ht : s.inTrial with
  | true => exact if_pos ht
  | false => exact if_neg (Bool.not_eq_true _ ▸ ht)

theorem State.serviceEntry_due (hm : s.mode = .rebuild) (hp : s.pins.pwrFail = false) (hr : s.update.rebuilt = true)
    (ht : s.timeServes = true) (hs : s.delta.sealed = false) :
    s.serviceEntry = (s.enterMode .service).patrolBegin.trialStart.activateEnd := by
  rw [State.serviceEntry, if_pos (by simp [hm, hp, hr, ht, hs])]

theorem State.serviceEntry_early (h : s.update.rebuilt = false ∨ s.timeServes = false ∨ s.delta.sealed = true) : s.serviceEntry = s := by
  rw [State.serviceEntry, if_neg]
  rintro ⟨_, hr, hs, ht, _⟩
  rcases h with h | h | h <;> simp_all

theorem State.sealedEntry_due (hm : s.mode = .rebuild) (hr : s.update.rebuilt = true) (hs : s.delta.sealed = true) :
    s.sealedEntry = (s.enterMode .sealed).patrolBegin.trialStart.activateEnd := by
  rw [State.sealedEntry, if_pos ⟨hm, hr, hs⟩]

/-- The entry into SEALED with no trial and no activation. -/
theorem State.sealedEntry_plain (hm : s.mode = .rebuild) (hr : s.update.rebuilt = true) (hs : s.delta.sealed = true)
    (ht : s.inTrial = false) (ha : s.update.active = none) : ∃ n p e x, s.sealedEntry = { s with
      mode := .sealed, delta := { s.delta with patrolStart := n }, pins := p, events := e, terrace := x, update := activationOver s.update } := by
  obtain ⟨n, p, e, x, hu⟩ := s.patrolMode_frame (m := .sealed) rfl
  rw [State.sealedEntry_due hm hr hs]
  generalize (s.enterMode .sealed).patrolBegin = u at hu ⊢
  have hut : u.inTrial = false := by rw [hu]; exact ht
  have hua : u.update.active = none := by rw [hu]; exact ha
  refine ⟨n, p, e, x, ?_⟩
  rw [State.trialStart_kept (.inl hut), State.activateEnd_none hua, hu]
  rfl

/-- What SERVICE finds when its entry begins: all but mode, pins, patrol, events and recorder as before. -/
theorem State.serviceMode_keeps {u : State} (hu : u = (s.enterMode .service).patrolBegin) :
    u.inTrial = s.inTrial ∧ u.update = s.update ∧ u.spi = s.spi ∧ u.grain = s.grain ∧ u.works = s.works := by
  obtain ⟨n, p, e, x, h⟩ := s.patrolMode_frame (m := .service) rfl
  rw [hu, h]
  exact ⟨rfl, rfl, rfl, rfl, rfl⟩

/-! ## The rows -/

theorem acts_rebuildRun (hc : s.cored = true) (h : s.rebuildRun f = t) : Acts (.rebuildRun f) s t := by
  rw [Acts, exec_rebuildRun, execRebuildRun, State.act_pos hc, h]

theorem acts_serviceEntry (hc : s.cored = true) (h : s.serviceEntry = t) : Acts .serviceEntry s t := by
  rw [Acts, exec_serviceEntry, execServiceEntry, State.act_pos hc, h]

end

end Sys2Proof.Machine

namespace Sys2Proof

open Machine

/-- Settles O52: discovery and the phases of a rebuild each leave what their lemma spells, and the entry into SERVICE is the change of mode, the
start of the trial's clock and the end of the activation. -/
theorem rebuildLeadsToService : Obligations.RebuildLeadsToService := by
  intro s f hc hm
  have hp := State.powered_of_cored hc
  refine ⟨fun hr => ?rebuilt, fun hr hw hpop hpres hch _ => ?nothing, fun hr hw hsum hs hl hg => ?warm, fun p hr hw hpop hs hpairs _ => ?cold,
    fun hr hw hsum hs ht ha => ?warmSealed, fun h => ?early, fun hr ht hs u v hu hv => ?service⟩
  case rebuilt => exact acts_rebuildRun hc (State.rebuildRun_idle hr)
  case nothing => exact acts_rebuildRun hc (State.rebuildRun_nothing hm hp hr hw hpop hpres hch)
  case warm =>
    have hrun := State.rebuildRun_warm (f := f) hm hp hr hw hsum
    obtain ⟨e, x, hend, hmem⟩ := State.rebuildEnd_frame (s := s.resumed) hs 2 0 (noScan f)
    exact ⟨_, acts_rebuildRun hc (hrun.trans hend), hm, rfl, rfl, rfl, rfl, hmem⟩
  case cold =>
    obtain ⟨dies, e, x, hd⟩ := State.discover_recorded (p := f.nand) hpop
    have hpairs' : (s.discover f.nand).cluster.pairs = [] := by rw [hd]; exact hpairs
    obtain ⟨g, e', x', hcold⟩ := State.rebuildCold_frame (f := f) hpairs'
    have hrun := (State.rebuildRun_cold (f := f) hm hp hr hw hpop).trans hcold
    rw [hd] at hrun
    obtain ⟨hmode, hpins, hupd, hclean, hhealth, hpath, hwseq, hslices, hkeys⟩ := State.rebuildPhases_unsealed (by exact hs) hrun.symm
    refine ⟨_, acts_rebuildRun hc rfl, hmode.trans hm, by rw [hupd], hclean, hpath, by rw [hhealth], hwseq, hslices, fun k hk => ?_, by rw [hpins]⟩
    rw [hkeys] at hk
    obtain ⟨k', _, rfl⟩ := List.mem_map.1 hk
    rfl
  case warmSealed =>
    have hrun := (State.rebuildRun_warm (f := f) hm hp hr hw hsum).trans (State.rebuildEnd_sealed hs)
    obtain ⟨e, x, hdone⟩ := s.resumed.rebuildDone_frame 2 (noScan f) 0
    generalize s.resumed.rebuildDone 2 (noScan f) 0 = u at hrun hdone
    obtain ⟨n, p, e', x', hsealed⟩ :=
      State.sealedEntry_plain (s := u) (by rw [hdone]; exact hm) (by rw [hdone]) (by rw [hdone]; exact hs) (by rw [hdone]; exact ht)
        (by rw [hdone]; exact ha)
    exact ⟨_, acts_rebuildRun hc (hrun.trans hsealed), rfl, by rw [hdone]; rfl, by rw [hdone]; rfl⟩
  case early => exact acts_serviceEntry hc (State.serviceEntry_early h)
  case service =>
    obtain ⟨htrial, hupd, hspi, hgrain, hworks⟩ := State.serviceMode_keeps hu
    have hentry := State.serviceEntry_due hm hp hr ht hs
    rw [← hu] at hentry
    change v = u.updUpdate activationOver at hv
    refine ⟨fun htr ha => ?plain, fun htr hd ha => ?trial, fun st w ha hw => ⟨fun htr hd => ?succeeds, fun htr => ?fails⟩⟩
    case plain =>
      refine acts_serviceEntry hc ?_
      rw [hentry, State.trialStart_kept (.inl (htrial.trans htr)), State.activateEnd_none (hupd ▸ ha), hv]
    case trial =>
      refine acts_serviceEntry hc ?_
      rw [hentry, State.trialStart_set (htrial.trans htr) (hspi ▸ hd), State.activateEnd_none (hupd ▸ ha), hv, hspi, hgrain]
      rfl
    case succeeds =>
      have hw' : u.work? st = some w := by rw [State.work?, hworks]; exact hw
      refine acts_serviceEntry hc ?_
      rw [hentry, State.trialStart_kept (.inr (hspi ▸ hd)), State.activateEnd_some (hupd ▸ ha) hw', hv, htrial, htr, if_pos rfl]
    case fails =>
      have hw' : u.work? st = some w := by rw [State.work?, hworks]; exact hw
      refine acts_serviceEntry hc ?_
      rw [hentry, State.trialStart_kept (.inl (htrial.trans htr)), State.activateEnd_some (hupd ▸ ha) hw', hv, htrial, htr,
        if_neg Bool.false_ne_true, hupd]

end Sys2Proof
end

section
/-! The control area of the SPI NOR (R334, R336, R367): a record read back from the slot that it was written to. -/

namespace Sys2Proof.Machine

/-! ## Lengths -/

@[simp] theorem length_leBytes (n x : Nat) : (leBytes n x).length = n := by
  induction n generalizing x with
  | zero => rfl
  | succ n ih => simp [leBytes, ih]

@[simp] theorem length_beBytes (n x : Nat) : (beBytes n x).length = n := by simp [beBytes]

@[simp] theorem length_zeros (n : Nat) : (zeros n).length = n := List.length_replicate

theorem length_sealedBytes (b : Bytes) : (sealedBytes b).length = b.length + 4 := by simp [sealedBytes]

theorem UpRecord.length_bytes (r : UpRecord) : r.bytes.length = 64 := by
  rw [UpRecord.bytes, length_sealedBytes]; simp

theorem length_pointerRecord (slot seq : Nat) (hash : BitVec 384) : (pointerRecord slot seq hash).length = 128 := by
  rw [pointerRecord, length_sealedBytes]; simp

/-! ## Bytes read back -/

theorem spiRead_succ (m : List Host.Cell) (a n : Nat) : spiRead m a (n + 1) = spiByte m a :: spiRead m (a + 1) n := by
  simp only [spiRead, List.range_succ_eq_map, List.map_cons, List.map_map, Nat.add_zero]
  congr 1
  exact List.map_congr_left fun i _ => by simp [Nat.add_comm, Nat.add_left_comm]

/-- A write leaves the bytes in front of it. -/
theorem spiByte_spiWrite_before (m : List Host.Cell) (a k : Nat) (b : Bytes) (h : Memory.wf m = true) (hk : k < a) :
    spiByte (spiWrite m a b) k = spiByte m k := by
  induction b generalizing m a with
  | nil => rfl
  | cons x b ih =>
    rw [spiWrite, ih _ _ (memory_wf_spiPut m a x h) (by omega), spiByte_spiPut m a k x h, if_neg (by omega)]

/-- What is written is read. -/
theorem spiRead_spiWrite (m : List Host.Cell) (a : Nat) (b : Bytes) (h : Memory.wf m = true) :
    spiRead (spiWrite m a b) a b.length = b := by
  induction b generalizing m a with
  | nil => rfl
  | cons x b ih =>
    have hput := memory_wf_spiPut m a x h
    rw [List.length_cons, spiRead_succ, spiWrite, ih _ _ hput, spiByte_spiWrite_before _ _ _ _ hput (by omega),
      spiByte_spiPut m a a x h, if_pos rfl]

/-- A record of the control area stands in the slot that its number gives. -/
theorem spiRead_controlWrite (m : List Host.Cell) (base size slots n : Nat) (b : Bytes) (h : Memory.wf m = true) :
    spiRead (controlWrite m base size slots n b) (base + size * (n % slots)) b.length = b := by
  rw [controlWrite]
  refine spiRead_spiWrite _ _ b ?_
  split
  · exact memory_wf_spiErase m _ 4096 h
  · exact h

theorem Spi.spiRead_upWrite (p : Spi) (r : UpRecord) (h : Memory.wf p.mem = true) :
    spiRead (p.upWrite r).mem (0x10000 + 64 * (p.up.seqNo % 1024)) 64 = UpRecord.bytes { r with seqNo := p.up.seqNo + 1 } := by
  have hread := spiRead_controlWrite p.mem 0x10000 64 1024 p.up.seqNo (UpRecord.bytes { r with seqNo := p.up.seqNo + 1 }) h
  rwa [UpRecord.length_bytes] at hread

theorem Spi.spiRead_pointerWrite (p : Spi) (slot : Nat) (hash : BitVec 384) (h : Memory.wf p.mem = true) :
    spiRead (p.pointerWrite slot hash).mem (128 * (p.ptrSeq % 512)) 128 = pointerRecord slot (p.ptrSeq + 1) hash := by
  have hread := spiRead_controlWrite p.mem 0 128 512 p.ptrSeq (pointerRecord slot (p.ptrSeq + 1) hash) h
  rwa [length_pointerRecord, Nat.zero_add] at hread

end Sys2Proof.Machine
end

section
/-! The update state in the ROM (R367, R374). -/

namespace Sys2Proof.Machine

@[simp] theorem State.writeUp_spi (s : State) (f : UpRecord → UpRecord) : (s.writeUp f).spi = s.spi.upWrite (f s.spi.up) := rfl
@[simp] theorem State.writeUp_update (s : State) (f : UpRecord → UpRecord) : (s.writeUp f).update = s.update := s.updSpi_update _
@[simp] theorem State.writePointer_spi (s : State) (slot : Nat) :
    (s.writePointer slot).spi = s.spi.pointerWrite slot (Config.sha384 (s.manifestAt (slotBase slot))) := rfl
@[simp] theorem State.writePointer_update (s : State) (slot : Nat) : (s.writePointer slot).update = s.update :=
  s.updSpi_update _
@[simp] theorem State.applyImage_update (s : State) (slot length : Nat) : (s.applyImage slot length).update = s.update :=
  s.updSpi_update _
@[simp] theorem State.applyImage_up (s : State) (slot length : Nat) : (s.applyImage slot length).spi.up = s.spi.up := by
  rw [State.applyImage, State.updSpi_spi]
@[simp] theorem State.outcomeLater_spi (s : State) (source type outcome slot : Nat) :
    (s.outcomeLater source type outcome slot).spi = s.spi := rfl
@[simp] theorem State.outcomeLater_update (s : State) (source type outcome slot : Nat) :
    (s.outcomeLater source type outcome slot).update = { s.update with
      outcome := outcome, later := s.update.later ++ [(source, type, eventData [(1, outcome), (1, slot)])] } := rfl
/-- The bytes stand for themselves, so that no check evaluates the write. -/
theorem Spi.pointerWrite_frame (p : Spi) (slot : Nat) (hash : BitVec 384) : ∃ m, p.pointerWrite slot hash =
    { p with pointer := slot, ptrSeq := p.ptrSeq + 1, ptrHash := hash, mem := m } := ⟨_, rfl⟩
@[simp] theorem Spi.pointerWrite_up (p : Spi) (slot : Nat) (hash : BitVec 384) : (p.pointerWrite slot hash).up = p.up := by
  obtain ⟨m, h⟩ := p.pointerWrite_frame slot hash
  rw [h]

/-- A new slot pointer and the update state that goes with it. -/
theorem State.writePointer_writeUp_spi (s : State) (slot : Nat) (f : UpRecord → UpRecord) : ((s.writePointer slot).writeUp f).spi =
    (s.spi.pointerWrite slot (Config.sha384 (s.manifestAt (slotBase slot)))).upWrite (f s.spi.up) := by
  rw [State.writeUp_spi, State.writePointer_spi, Spi.pointerWrite_up]

theorem State.romRevert_spi (s : State) (c : Nat) : (s.romRevert c).spi =
    (s.spi.pointerWrite s.spi.up.previous (Config.sha384 (s.manifestAt (slotBase s.spi.up.previous)))).upWrite
      { s.spi.up with state := .idle, boots := 0, deadline := 0, outcome := c } := by
  rw [State.romRevert]
  exact (State.outcomeLater_spi ..).trans (State.writePointer_writeUp_spi ..)

theorem State.romRevert_update (s : State) (c : Nat) : (s.romRevert c).update = { s.update with
    outcome := c, later := s.update.later ++ [(215, 0xC03, eventData [(1, c), (1, s.spi.up.previous)])] } := by
  rw [State.romRevert, State.outcomeLater_update, State.writeUp_update, State.writePointer_update]

/-- The state behind the copy of a staged image that passed: the pointer names its slot, in TRIAL. -/
def State.applied (s : State) : State :=
  let new := 1 - s.spi.pointer
  (((s.applyImage new (field (s.manifestAt Config.stagingBase) 0xC 4)).writePointer new).writeUp fun u =>
    { u with state := .trial, boots := 1, previous := s.spi.pointer, deadline := 0, outcome := 1 }).outcomeLater 209 0xC00 1 new

theorem State.applied_spi {s a : State}
    (ha : a = s.applyImage (1 - s.spi.pointer) (field (s.manifestAt Config.stagingBase) 0xC 4)) : s.applied.spi =
    (a.spi.pointerWrite (1 - s.spi.pointer) (Config.sha384 (a.manifestAt (slotBase (1 - s.spi.pointer))))).upWrite
      { s.spi.up with state := .trial, boots := 1, previous := s.spi.pointer, deadline := 0, outcome := 1 } := by
  have hup : a.spi.up = s.spi.up := by rw [ha, State.applyImage_up]
  rw [State.applied, ← ha, ← hup]
  exact (State.outcomeLater_spi ..).trans (State.writePointer_writeUp_spi ..)

theorem State.applied_update (s : State) : s.applied.update = { s.update with
    outcome := 1, later := s.update.later ++ [(209, 0xC00, eventData [(1, 1), (1, 1 - s.spi.pointer)])] } := by
  rw [State.applied, State.outcomeLater_update, State.writeUp_update, State.writePointer_update, State.applyImage_update]

section
variable {s : State} {fails : Bool}

/-- An activation that a check or the copy ends: IDLE with its code, told once REBUILD has begun. -/
theorem State.romUpdate_refused {c : Nat} (h : s.spi.up.state = .applyPending)
    (hc : s.imageCheck Config.stagingBase ≠ 0 ∧ c = s.imageCheck Config.stagingBase ∨
      s.imageCheck Config.stagingBase = 0 ∧ fails = true ∧ c = 9) :
    s.romUpdate fails = ((s.writeUp fun u => { u with state := .idle, boots := 0, deadline := 0, outcome := c }).outcomeLater 209 0xC00 c
      s.spi.pointer, false, false) := by
  simp only [State.romUpdate, h]
  rcases hc with ⟨hcode, hc⟩ | ⟨hcode, hfails, rfl⟩
  · rw [if_pos hcode, hc]
  · rw [if_neg (by simp [hcode]), if_pos hfails]

/-- A staged image that passes and copies goes to the slot that the pointer does not name. -/
theorem State.romUpdate_applied (h : s.spi.up.state = .applyPending) (hc : s.imageCheck Config.stagingBase = 0) :
    s.romUpdate false = (s.applied, true, false) := by
  simp only [State.romUpdate, h]
  rw [if_neg (by simp [hc]), if_neg (by simp)]
  rfl

theorem State.romUpdate_reverts {c : Nat}
    (h : s.spi.up.state = .revertRequested ∧ c = 10 ∨ s.spi.up.state = .trial ∧ 2 ≤ s.spi.up.boots ∧ c = 11) :
    s.romUpdate fails = (s.romRevert c, false, true) := by
  rcases h with ⟨h, rfl⟩ | ⟨h, hb, rfl⟩
  · simp only [State.romUpdate, h]
  · simp only [State.romUpdate, h]
    rw [if_pos hb]

theorem State.romUpdate_first_trial (h : s.spi.up.state = .trial) (hb : s.spi.up.boots < 2) :
    s.romUpdate fails = (s.writeUp fun u => { u with boots := 2 }, false, false) := by
  simp only [State.romUpdate, h]
  rw [if_neg (by omega)]

theorem State.romUpdate_settled (h : s.spi.up.state = .idle ∨ s.spi.up.state = .confirmed) : s.romUpdate fails = (s, false, false) := by
  rcases h with h | h <;> simp only [State.romUpdate, h]

end

end Sys2Proof.Machine
end

section
/-! The boot ROM's run at the end of FILL (R15, R328): what it finds, the BOOT hold, and the start of REBUILD. -/

namespace Sys2Proof.Machine

/-! ## What the ROM finds -/

/-- What an image's checks read: the SPI NOR and the anti-rollback fuses. -/
theorem State.imageCheck_congr {s t : State} (hspi : t.spi = s.spi) (hfuse : t.update.fuse = s.update.fuse) (base : Nat) :
    t.imageCheck base = s.imageCheck base := by
  unfold State.imageCheck State.manifestAt
  rw [hspi, hfuse]

theorem State.drbg_requests_frame (s : State) : ∃ g f, s.drbg = { s with gorge := g, free := f } ∧ g.drbg = s.gorge.drbg := by
  refine ⟨_, _, rfl, ?_⟩
  change (if s.gorge.requests + 1 = 1048576 then { s.gorge with requests := 0, reseeds := inc64 s.gorge.reseeds }
    else { s.gorge with requests := s.gorge.requests + 1 } : Gorge).drbg = _
  split <;> rfl

/-- Draws of the DRBG keep its state code. -/
theorem State.drbg_foldl_frame (l : List Nat) (s : State) :
    ∃ g f, l.foldl (fun s _ => s.drbg) s = { s with gorge := g, free := f } ∧ g.drbg = s.gorge.drbg := by
  induction l generalizing s with
  | nil => exact ⟨_, _, rfl, rfl⟩
  | cons a l ih =>
    obtain ⟨g, f, h, hg⟩ := s.drbg_requests_frame
    obtain ⟨g', f', h', hg'⟩ := ih s.drbg
    rw [h] at h' hg'
    exact ⟨g', f', by rw [List.foldl_cons, h, h'], hg'.trans hg⟩

theorem State.updFn_foldl_frame (v : Nat → Fn → Fn) (l : List Nat) (s : State) :
    ∃ h, l.foldl (fun s f => s.updFn f (v f)) s = { s with host := h } := by
  induction l generalizing s with
  | nil => exact ⟨_, rfl⟩
  | cons a l ih =>
    obtain ⟨h, hl⟩ := ih (s.updFn a (v a))
    exact ⟨h, hl⟩

/-- The nonces' draw starts the DRBG, and touches the nonces. -/
theorem State.drawNonces_frame (s : State) : ∃ g f x n h, s.drawNonces = { s with
    gorge := g, free := f, terrace := x, update := { s.update with nonce := n }, host := h } ∧ g.drbg = 1 := by
  unfold State.drawNonces
  extract_lets n started drawn told
  obtain ⟨g, f, hdrawn, hg⟩ : ∃ g f, drawn = { started with gorge := g, free := f } ∧ g.drbg = started.gorge.drbg :=
    State.drbg_foldl_frame (List.range 66) started
  obtain ⟨h, hfold⟩ := State.updFn_foldl_frame (fun f x => { x with nonce := Config.drbg64 (n + 2 + f) }) (List.range 64) told
  refine ⟨g, f, { s.terrace with clearNonce := Config.drbg64 n }, Config.drbg64 (n + 1), h, ?_, hg⟩
  rw [hfold, show told = (drawn.updTerrace _).updUpdate _ from rfl, hdrawn]
  rfl

/-- `t` is a state in which the ROM has begun after a FILL in `s`: trained, in BOOT, with the DRBG started, and with all that it decides by
as `s` has it. -/
structure RomBegun (s t : State) : Prop where
  mode : t.mode = .boot
  trained : t.dram.trainDone = true
  filled : t.dram.fillDone = true
  drbg : t.gorge.drbg = 1
  spi : t.spi = s.spi
  fuse : t.update.fuse = s.update.fuse
  time : t.time = s.time
  straps : t.pins.straps = s.pins.straps
  holdup : t.pins.holdupStable = s.pins.holdupStable

/-- The storage key stands in Gorge, which a start under TEST_MODE alone leaves out. -/
def KeyLoaded (t : State) : Prop := t.pins.straps.test = false → t.gorge.storageKey = storageKey

/-- The ROM's first steps, before it looks for a slot (R328). -/
def State.romBegin (s : State) (rom : RomFindings) : State :=
  let s := s.updUpdate fun u => { u with sfdpOk := rom.sfdpOk, secretLocked := true }
  if s.pins.straps.test then s else s.updGorge fun g => { g with storageKey := storageKey }

theorem RomBegun.romBegin {s t : State} (h : RomBegun s t) (rom : RomFindings) : RomBegun s (t.romBegin rom) := by
  obtain ⟨hm, ht, hf, hd, hspi, hfuse, htime, hstraps, hhold⟩ := h
  simp only [State.romBegin]
  split <;> exact ⟨hm, ht, hf, hd, hspi, hfuse, htime, hstraps, hhold⟩

theorem State.romBegin_keyLoaded (s : State) (rom : RomFindings) : KeyLoaded (s.romBegin rom) := by
  simp only [State.romBegin]
  split
  · next htest => exact fun h => absurd (htest.symm.trans h) Bool.noConfusion
  · exact fun _ => rfl

section
variable {s u : State} {rom : RomFindings}

@[simp] theorem State.romBegin_straps (s : State) (rom : RomFindings) : (s.romBegin rom).pins.straps = s.pins.straps := by
  simp only [State.romBegin]; split <;> rfl

@[simp] theorem State.romBegin_spi (s : State) (rom : RomFindings) : (s.romBegin rom).spi = s.spi := by
  simp only [State.romBegin]; split <;> rfl

/-- TEST_MODE, an unusable SPI NOR and the recovery strap let no slot be tried. -/
theorem State.runRom_held {c : Nat} (h : s.pins.straps.test = true ∧ c = 4 ∨ s.pins.straps.test = false ∧ rom.sfdpOk = false ∧ c = 1 ∨
      s.pins.straps.test = false ∧ rom.sfdpOk = true ∧ s.pins.straps.boot = 2 ∧ c = 5) :
    s.runRom rom false false = (s.romBegin rom).bootHold c s.update.resetCause {} rom := by
  unfold State.runRom
  extract_lets reason found begun
  have hbegun : begun = s.romBegin rom := rfl
  have hreason : reason = s.update.resetCause := rfl
  clear_value begun reason
  rw [hbegun, hreason, State.romBegin_straps]
  rcases h with ⟨htest, rfl⟩ | ⟨htest, hsfdp, rfl⟩ | ⟨htest, hsfdp, hboot, rfl⟩
  · rw [if_pos htest]
  · rw [if_neg (by simp [htest]), if_pos (by simp [hsfdp])]
  · rw [if_neg (by simp [htest]), if_neg (by simp [hsfdp]), if_pos (by simp [hboot])]

/-- Else the ROM starts the slot that verifies, and holds with code 2 where none does. -/
theorem State.runRom_verified {slot : Option Nat} {other : Bool} (htest : s.pins.straps.test = false) (hsfdp : rom.sfdpOk = true)
    (hboot : s.pins.straps.boot ≠ 2) (hup : s.spi.up.state = .idle ∨ s.spi.up.state = .confirmed)
    (hv : (s.romBegin rom).romVerify = (u, slot, other)) :
    (slot = none → s.runRom rom false false = u.bootHold 2 s.update.resetCause { reverted := other } rom) ∧
    (∀ n, slot = some n → s.runRom rom false false = u.bootSlot n s.update.resetCause { reverted := other } rom false) := by
  have hupd : (s.romBegin rom).romUpdate rom.copyFails = (s.romBegin rom, false, false) :=
    State.romUpdate_settled (by rwa [State.romBegin_spi])
  unfold State.runRom
  extract_lets reason found begun
  have hbegun : begun = s.romBegin rom := rfl
  have hreason : reason = s.update.resetCause := rfl
  clear_value begun reason
  rw [hbegun, hreason, State.romBegin_straps, if_neg (by simp [htest]), if_neg (by simp [hsfdp]), if_neg (by simpa using hboot), hupd]
  dsimp only
  rw [hv]
  exact ⟨fun h => by subst h; rfl, fun n h => by subst h; rfl⟩

end

/-! ## The slot that verifies -/

theorem State.romVerify_pointer {s : State} (h : s.imageCheck (slotBase s.spi.pointer) = 0) :
    s.romVerify = (s, some s.spi.pointer, false) := by
  simp only [State.romVerify, h, if_true]

theorem State.romVerify_other {s : State} (h : s.imageCheck (slotBase s.spi.pointer) ≠ 0)
    (ho : s.imageCheck (slotBase (1 - s.spi.pointer)) = 0) :
    s.romVerify = (s.later 3 7 (eventData [(1, s.spi.pointer), (1, s.imageCheck (slotBase s.spi.pointer))]), some (1 - s.spi.pointer), true) := by
  simp only [State.romVerify, h, ho, if_true, if_false]

theorem State.romVerify_none {s : State} (h : s.imageCheck (slotBase s.spi.pointer) ≠ 0)
    (ho : s.imageCheck (slotBase (1 - s.spi.pointer)) ≠ 0) : s.romVerify = (s, none, false) := by
  simp only [State.romVerify, h, ho, if_false]

/-! ## The BOOT hold -/

theorem State.bootHold_frame (s : State) (code reason : Nat) (flags : BootFlags) (rom : RomFindings) : ∃ spi u x,
    s.bootHold code reason flags rom = { s with
      spi := spi, update := u, terrace := x, pins := { s.pins with alert := s.pins.warning || code != 0 } } ∧
    u.bootHold = code ∧ u.bootCount = (s.spi.lastBoot.map BootSlot.count).getD 0 + 1 := ⟨_, _, _, rfl, rfl, rfl⟩

/-- What a hold of BOOT leaves after a FILL in `s`. -/
theorem RomBegun.bootHold {s u : State} (h : RomBegun s u) {code : Nat} (hc : code ≠ 0) (reason : Nat) (flags : BootFlags) (rom : RomFindings)
    {t : State} (ht : t = u.bootHold code reason flags rom) : t.mode = .boot ∧ t.update.bootHold = code ∧ t.pins.alert = true ∧
      t.dram.trainDone = true ∧ t.dram.fillDone = true ∧ t.update.bootCount = (s.spi.lastBoot.map BootSlot.count).getD 0 + 1 ∧
      t.time.running = s.time.running ∧ t.gorge.drbg = 1 := by
  obtain ⟨spi, upd, x, heq, hhold, hcount⟩ := u.bootHold_frame code reason flags rom
  rw [heq] at ht
  subst ht
  exact ⟨h.mode, hhold, by simp [hc], h.trained, h.filled, by rw [hcount, h.spi], by rw [h.time], h.drbg⟩

end Sys2Proof.Machine
end

section
/-! The start of REBUILD in the slot that verified (R328 steps 6 to 9, R337, R343). -/

namespace Sys2Proof.Machine

/-! ## What the tail of a start keeps -/

/-- `t` is `s` further on in a start: the mode, the update, the pins, Gorge and the time counter stand, and every raise of `s` is kept. -/
structure StartGoesOn (s t : State) : Prop where
  mode : t.mode = s.mode
  update : t.update = s.update
  pins : t.pins = s.pins
  gorge : t.gorge = s.gorge
  running : t.time.running = s.time.running
  counter : t.time.counter = s.time.counter
  raises : s.events.raises ⊆ t.events.raises

theorem StartGoesOn.refl (s : State) : StartGoesOn s s := ⟨rfl, rfl, rfl, rfl, rfl, rfl, fun _ h => h⟩

theorem StartGoesOn.trans {s t u : State} (h : StartGoesOn s t) (h' : StartGoesOn t u) : StartGoesOn s u :=
  ⟨h'.mode.trans h.mode, h'.update.trans h.update, h'.pins.trans h.pins, h'.gorge.trans h.gorge, h'.running.trans h.running,
    h'.counter.trans h.counter, fun _ hm => h'.raises (h.raises hm)⟩

theorem Reported.startGoesOn {s t : State} (h : Reported s t) : StartGoesOn s t := by
  obtain ⟨⟨e, x, rfl⟩, hr⟩ := h
  exact ⟨rfl, rfl, rfl, rfl, rfl, rfl, hr⟩

/-- A fold of steps that each go on. -/
theorem StartGoesOn.foldl {α : Type} {f : State → α → State} (h : ∀ s a, StartGoesOn s (f s a)) (l : List α) (s : State) :
    StartGoesOn s (l.foldl f s) := by
  induction l generalizing s with
  | nil => exact .refl s
  | cons a l ih => exact (h s a).trans (ih _)

/-- The groups that a start sets up beside the ones it keeps. -/
theorem StartGoesOn.groups (s : State) (g : Glen) (b : Basin) (p : Ports) (d : Delta) :
    StartGoesOn s { s with glen := g, basin := b, ports := p, delta := d } := ⟨rfl, rfl, rfl, rfl, rfl, rfl, fun _ h => h⟩

theorem State.metaWrite_frame (s : State) (n : Nat) : ∃ d, s.metaWrite n = { s with delta := d } := by
  simp only [State.metaWrite]
  split <;> exact ⟨_, rfl⟩

theorem State.metaWrite_goesOn (s : State) (n : Nat) : StartGoesOn s (s.metaWrite n) := by
  obtain ⟨d, h⟩ := s.metaWrite_frame n
  rw [h]
  exact .groups s s.glen s.basin s.ports d

theorem State.updGlen_goesOn (s : State) (f : Glen → Glen) : StartGoesOn s (s.updGlen f) := .groups s _ s.basin s.ports s.delta

theorem State.ruleEvent_reported (s : State) (op id code : Nat) (st : Stamp) (raised : Bool) :
    Reported s (s.ruleEvent op id code st raised) := by
  simp only [State.ruleEvent]
  split
  · exact State.raise_reported ..
  · exact State.record_reported ..

theorem State.removeRules_goesOn (s : State) (p : Rule → Bool) : StartGoesOn s (s.removeRules p) := by
  unfold State.removeRules
  refine .foldl (fun u r => ?_) _ s
  have hdropped := (u.updGlen_goesOn fun g => g.dropRule r.id).trans (State.metaWrite_goesOn _ 0)
  exact hdropped.trans (State.ruleEvent_reported _ 2 r.id 0 0 false).startGoesOn

theorem State.glenRebuild_goesOn (s : State) (cold unreadable : Bool) : StartGoesOn s (s.glenRebuild cold unreadable) := by
  unfold State.glenRebuild
  extract_lets removed had banked told
  have hremoved : StartGoesOn s removed := (s.removeRules_goesOn _).trans (State.updGlen_goesOn _ _)
  have hbanked : StartGoesOn s banked := hremoved.trans (State.updGlen_goesOn _ _)
  have htold : StartGoesOn s told := by
    simp only [told]
    split
    · split
      · exact hbanked.trans (Reported.startGoesOn (State.raise_reported ..))
      · exact hbanked
    · exact .refl s
  exact htold.trans (State.updGlen_goesOn _ _)

theorem State.basinCarve_goesOn (s : State) (unreadable : Bool) : StartGoesOn s (s.basinCarve unreadable) := by
  have hbasin (f : Basin → Basin) : StartGoesOn s (s.updBasin f) := .groups s s.glen _ s.ports s.delta
  unfold State.basinCarve
  split
  · exact hbasin _
  · exact (hbasin _).trans (Reported.startGoesOn (State.raise_reported ..))

theorem State.timeSeal_goesOn (s : State) (st : Stamp) : StartGoesOn s (s.timeSeal st) := by
  simp only [State.timeSeal]
  split
  · exact .refl s
  · have hsealed : StartGoesOn s (s.updTime fun t => { t with sealed := true }) := ⟨rfl, rfl, rfl, rfl, rfl, rfl, fun _ h => h⟩
    exact hsealed.trans (Reported.startGoesOn (State.record_reported ..))

theorem State.bootRecordCopy_reported (s : State) (anchor : Nat × BitVec 384) (reason slot flags : Nat) :
    Reported s (s.bootRecordCopy anchor reason slot flags) := by
  unfold State.bootRecordCopy
  extract_lets last hash seq linked
  have hlinked : Reported s linked := by
    simp only [linked]
    split
    · exact .refl s
    · exact (State.raiseOnly_reported ..).trans (State.record_reported ..)
  exact (hlinked.trans (State.raiseOnly_reported ..)).trans (State.record_reported ..)

/-! ## The release of the cores -/

/-- Source 1 of the change into REBUILD. -/
def rebuildRaise (old : Mode) : Raise :=
  { fn := 0, source := 1, stamp := 0, data := eventData [(1, old.code), (1, Mode.code .rebuild)] }

/-- The release of the cores after a power-on or SYS_RESET#: REBUILD with the time counter at its first grain, told by source 1. -/
theorem State.enterRebuild_cold (s : State) (rom : RomFindings) (anchor : Nat × BitVec 384) (reason slot flags prevCount : Nat) {t : State}
    (ht : t = s.enterRebuild false rom anchor reason slot flags prevCount) :
    t.mode = .rebuild ∧ t.update = { s.update with later := [], rebuilt := false } ∧
      t.pins = { s.pins with ready := true, writeThrough := !s.pins.holdupStable, alert := s.pins.warning } ∧ t.gorge = s.gorge ∧
      t.time.running = true ∧ t.time.counter = Config.grainUnit ∧ rebuildRaise s.mode ∈ t.events.raises := by
  unfold State.enterRebuild at ht
  extract_lets counted old released copied waiting cleared heard raised strapped watched warned carved banked at ht
  obtain ⟨⟨e, x, hcopied⟩, _⟩ : Reported released copied := released.bootRecordCopy_reported anchor reason slot flags
  have hlater : Reported cleared heard := by
    refine .foldl (fun u a => ?_) waiting cleared
    obtain ⟨source, type, data⟩ := a
    exact State.raise_reported ..
  obtain ⟨⟨e', x', hheard⟩, _⟩ := hlater
  have hraise : raised = heard.raise 1 0 0 6 (eventData [(1, old.code), (1, Mode.code .rebuild)]) := rfl
  have hold : old = s.mode := rfl
  clear_value old raised
  have hmem : rebuildRaise s.mode ∈ raised.events.raises := by
    rw [rebuildRaise, ← hold, hraise]
    exact State.raise_mem ..
  obtain ⟨⟨e'', x'', hraised⟩, _⟩ : Reported heard raised := hraise ▸ State.raise_reported ..
  have hstrapped : Reported raised strapped := by
    simp only [strapped]
    split
    · exact State.raiseOnly_reported ..
    · exact .refl _
  have hwatched : Reported strapped watched := by
    simp only [watched]
    split
    · exact State.raise_reported ..
    · exact .refl _
  have hwarned : Reported watched warned := by
    simp only [warned]
    split
    · exact State.raise_reported ..
    · exact .refl _
  have hcarved : StartGoesOn warned carved :=
    ((warned.basinCarve_goesOn rom.splitBad).trans (.groups _ _ _ _ _)).trans (.groups _ _ _ _ _)
  have hsealed : StartGoesOn banked t := by
    subst ht
    split
    · exact State.timeSeal_goesOn ..
    · exact .refl _
  have hon : StartGoesOn raised t :=
    ((((hstrapped.trans hwatched).trans hwarned).startGoesOn.trans hcarved).trans (State.glenRebuild_goesOn ..)).trans hsealed
  have hbegun : raised = { cleared with events := e'', terrace := x'' } := by rw [hraised, hheard]
  have hcleared : cleared = { released with update := { released.update with later := [], rebuilt := false }, events := e, terrace := x } := by
    rw [show cleared = copied.updUpdate _ from rfl, hcopied]
    rfl
  rw [hcleared] at hbegun
  subst hbegun
  exact ⟨hon.mode, hon.update, hon.pins, hon.gorge, hon.running, hon.counter, hon.raises hmem⟩

end Sys2Proof.Machine
end

section
/-! The slot that verified, and the end of FILL (R15, R328, R333). -/

namespace Sys2Proof.Machine

theorem State.romFuse_settled {s : State} (h : s.spi.up.state ≠ .confirmed) (ok : Bool) : s.romFuse ok = s := by
  rw [State.romFuse, if_neg fun hc => h hc.1]

/-- A ring that takes no boot record holds BOOT with code 3. -/
theorem State.bootSlot_ring {s : State} (h : s.spi.up.state ≠ .confirmed) {rom : RomFindings} (hr : 4 ≤ rom.ringRetries) (n reason : Nat)
    (flags : BootFlags) (warm : Bool) : ∃ fl, s.bootSlot n reason flags rom warm = s.bootHold 3 reason fl rom := by
  simp only [State.bootSlot]
  rw [if_pos hr, State.romFuse_settled h]
  exact ⟨_, rfl⟩

/-- The key that a start derives for a slot's firmware (R333). -/
def State.slotAlias (s : State) (n : Nat) : Bytes :=
  aliasOf (cdiOf (Config.sha384 (s.manifestAt (slotBase n))) s.ownerHash s.update.fuse)

theorem State.slotAlias_congr {s t : State} (hspi : t.spi = s.spi) (hfuse : t.update.fuse = s.update.fuse) (n : Nat) :
    t.slotAlias n = s.slotAlias n := by
  unfold State.slotAlias State.manifestAt State.ownerHash
  rw [hspi, hfuse]

/-- Else the cores are released with what the boot record tells. -/
theorem State.bootSlot_cold {s : State} (h : s.spi.up.state ≠ .confirmed) {rom : RomFindings} (hr : rom.ringRetries < 4) (n reason : Nat)
    (flags : BootFlags) : ∃ (v : State) (anchor : Nat × BitVec 384) (fl prev : Nat),
      s.bootSlot n reason flags rom false = v.enterRebuild false rom anchor reason n fl prev ∧
      v.mode = s.mode ∧ v.pins = s.pins ∧ v.gorge = s.gorge ∧ v.update.running = n ∧ v.update.bootHold = 0 ∧
      v.update.bootCount = (s.spi.lastBoot.map BootSlot.count).getD 0 + 1 ∧ v.update.aliasKey = s.slotAlias n := by
  unfold State.bootSlot
  extract_lets fused prev fl hash alias_ count body anchor rec_ m parts ringed retried told opened
  have hfused : fused = s := State.romFuse_settled h rom.fuseOk
  clear_value fused
  subst hfused
  rw [if_neg (Nat.not_le.2 hr)]
  refine ⟨opened, anchor, _, prev, rfl, ?_⟩
  obtain ⟨l, hl⟩ : ∃ l, retried = { ringed with update := { ringed.update with later := l } } := by
    simp only [retried]
    split <;> exact ⟨_, rfl⟩
  clear_value retried
  subst hl
  exact ⟨rfl, rfl, rfl, rfl, rfl, rfl, rfl⟩

/-! ## The end of FILL -/

theorem State.fillDone_idle {s : State} (h : s.mode ≠ .fill ∨ s.dram.trainFail.isSome = true ∨ s.pins.pwrGood = false) (tr : DramTraining)
    (rom : RomFindings) : s.fillDone tr rom = s := by
  rw [State.fillDone, if_pos]
  rcases h with h | h | h <;> simp [h]

section
variable {s : State} (hp : s.powered = true) (hm : s.mode = .fill) (hf : s.dram.trainFail = none) (hg : s.pins.pwrGood = true)
  {tr : DramTraining} {rom : RomFindings}
include hp hm hf hg

theorem State.fillDone_failed {f : Nat × Nat} (h : tr.fail = some f) : s.fillDone tr rom = { s with
    dram := { s.dram with rate := tr.rate, density := tr.density, ranks := tr.ranks, trainFail := some f }
    pins := { s.pins with alert := true } } := by
  have hpf : s.pins.pwrFail = false := by simpa [State.powered] using hp
  rw [State.fillDone, if_neg (by simp [hm, hf, hg, hpf]), h]
  rfl

/-- Training and fill end: the ROM begins in BOOT. -/
theorem State.fillDone_trained (h : tr.fail = none) : ∃ b, s.fillDone tr rom = b.runRom rom false false ∧ RomBegun s b := by
  have hpf : s.pins.pwrFail = false := by simpa [State.powered] using hp
  rw [State.fillDone, if_neg (by simp [hm, hf, hg, hpf]), h]
  refine ⟨_, rfl, ?_⟩
  obtain ⟨g, f, x, n, ho, hdraw, hdrbg⟩ := State.drawNonces_frame ((s.updDram fun d =>
    { d with rate := tr.rate, density := tr.density, ranks := tr.ranks, fillDone := true, trainDone := true }).enterMode .boot)
  rw [hdraw]
  exact ⟨rfl, rfl, rfl, hdrbg, rfl, rfl, rfl, rfl, rfl⟩

end

theorem acts_fillDone {s t : State} {tr : DramTraining} {rom : RomFindings} (hp : s.powered = true) (h : s.fillDone tr rom = t) :
    Acts (.fillDone tr rom) s t := by
  rw [Acts, exec_fillDone, execFillDone, State.act_pos hp, h]

/-- The slot that a ROM finds: the pointer's where it verifies, else the other one where that does. -/
def SlotVerifies (s : State) (n : Nat) : Prop :=
  s.imageCheck (slotBase s.spi.pointer) = 0 ∧ n = s.spi.pointer ∨
    s.imageCheck (slotBase s.spi.pointer) ≠ 0 ∧ s.imageCheck (slotBase (1 - s.spi.pointer)) = 0 ∧ n = 1 - s.spi.pointer

theorem exists_slotVerifies {s : State}
    (h : s.imageCheck (slotBase s.spi.pointer) = 0 ∨ s.imageCheck (slotBase (1 - s.spi.pointer)) = 0) : ∃ n, SlotVerifies s n := by
  by_cases hp : s.imageCheck (slotBase s.spi.pointer) = 0
  · exact ⟨_, .inl ⟨hp, rfl⟩⟩
  · exact ⟨_, .inr ⟨hp, h.resolve_left hp, rfl⟩⟩

/-- The slot that verifies is started, and the event of a pointer slot that does not is kept. -/
theorem RomBegun.verified {s b : State} (h : RomBegun s b) {rom : RomFindings} (htest : s.pins.straps.test = false) (hsfdp : rom.sfdpOk = true)
    (hboot : s.pins.straps.boot ≠ 2) (hup : s.spi.up.state = .idle) {n : Nat}
    (hn : SlotVerifies s n) :
    ∃ (u : State) (reason : Nat) (flags : BootFlags), b.runRom rom false false = u.bootSlot n reason flags rom false ∧ RomBegun s u ∧
      u.gorge.storageKey = storageKey := by
  have hb := h.romBegin rom
  have hkey := b.romBegin_keyLoaded rom (by rw [hb.straps, htest])
  have hcheck := State.imageCheck_congr hb.spi hb.fuse
  have hup' : b.spi.up.state = .idle ∨ b.spi.up.state = .confirmed := .inl (by rw [h.spi, hup])
  have hrun {u : State} {slot : Option Nat} {other : Bool} (hv : (b.romBegin rom).romVerify = (u, slot, other)) :=
    (State.runRom_verified (by rw [h.straps, htest]) hsfdp (by rwa [h.straps]) hup' hv).2 n
  rcases hn with ⟨hc, rfl⟩ | ⟨hc, ho, rfl⟩
  · have hv := State.romVerify_pointer (s := b.romBegin rom) (by rw [hcheck, hb.spi, hc])
    exact ⟨_, _, _, hrun hv (by rw [hb.spi]), hb, hkey⟩
  · have hv := State.romVerify_other (s := b.romBegin rom) (by rwa [hcheck, hb.spi]) (by rw [hcheck, hb.spi, ho])
    exact ⟨_, _, _, hrun hv (by rw [hb.spi]), ⟨hb.mode, hb.trained, hb.filled, hb.drbg, hb.spi, hb.fuse, hb.time, hb.straps, hb.holdup⟩, hkey⟩

/-- Which of the straps, the flash, the slots and the ring holds BOOT after a FILL in `s`, and with which code (R15, R328). -/
def HoldsBoot (s : State) (rom : RomFindings) (code : Nat) : Prop :=
  s.pins.straps.test = true ∧ code = 4 ∨
    s.pins.straps.test = false ∧ rom.sfdpOk = false ∧ code = 1 ∨
    s.pins.straps.test = false ∧ rom.sfdpOk = true ∧ s.pins.straps.boot = 2 ∧ code = 5 ∨
    s.pins.straps.test = false ∧ rom.sfdpOk = true ∧ s.pins.straps.boot ≠ 2 ∧ s.imageCheck (slotBase s.spi.pointer) ≠ 0 ∧
      s.imageCheck (slotBase (1 - s.spi.pointer)) ≠ 0 ∧ code = 2 ∨
    s.pins.straps.test = false ∧ rom.sfdpOk = true ∧ s.pins.straps.boot ≠ 2 ∧ 4 ≤ rom.ringRetries ∧
      (s.imageCheck (slotBase s.spi.pointer) = 0 ∨ s.imageCheck (slotBase (1 - s.spi.pointer)) = 0) ∧ code = 3

theorem HoldsBoot.code_ne_zero {s : State} {rom : RomFindings} {code : Nat} (h : HoldsBoot s rom code) : code ≠ 0 := by
  simp only [HoldsBoot] at h
  omega

/-- The ROM's run ends in that hold. -/
theorem RomBegun.held {s b : State} (h : RomBegun s b) {rom : RomFindings} {code : Nat} (hc : HoldsBoot s rom code) (hup : s.spi.up.state = .idle) :
    ∃ (u : State) (reason : Nat) (flags : BootFlags), b.runRom rom false false = u.bootHold code reason flags rom ∧ RomBegun s u := by
  have hb := h.romBegin rom
  have early := State.runRom_held (s := b) (rom := rom) (c := code)
  rw [h.straps] at early
  rcases hc with hc | hc | hc | ⟨htest, hsfdp, hboot, hp, ho, rfl⟩ | ⟨htest, hsfdp, hboot, hr, hslot, rfl⟩
  · exact ⟨_, _, _, early (.inl hc), hb⟩
  · exact ⟨_, _, _, early (.inr (.inl hc)), hb⟩
  · exact ⟨_, _, _, early (.inr (.inr hc)), hb⟩
  · have hcheck := State.imageCheck_congr hb.spi hb.fuse
    have hv := State.romVerify_none (s := b.romBegin rom) (by rw [hcheck, hb.spi]; exact hp) (by rw [hcheck, hb.spi]; exact ho)
    have hrun := State.runRom_verified (by rw [h.straps]; exact htest) hsfdp (by rw [h.straps]; exact hboot) (.inl (by rw [h.spi, hup])) hv
    exact ⟨_, _, _, hrun.1 rfl, hb⟩
  · obtain ⟨n, hn⟩ := exists_slotVerifies hslot
    obtain ⟨u, reason, flags, hrun, hu, _⟩ := h.verified htest hsfdp hboot hup hn
    obtain ⟨fl, hring⟩ := State.bootSlot_ring (by rw [hu.spi, hup]; exact UpState.noConfusion) hr n reason flags false
    exact ⟨_, _, _, hrun.trans hring, hu⟩

end Sys2Proof.Machine

namespace Sys2Proof

open Machine

/-- Settles O50: the ROM's run after a FILL by what it finds, the update state by its cases, and the control area by a read of the slot
that a record was written to. -/
theorem startFollowsUpdateState : Obligations.StartFollowsUpdateState := by
  refine ⟨fun s tr rom hp hm hf hg => ⟨fun f h => ?failed, fun code h hup hc => ?held, fun n h hup htest hsfdp hboot hr hn => ?started⟩,
    fun s tr rom hp h => acts_fillDone hp (State.fillDone_idle h tr rom), fun s fails => ⟨fun h code hcode => ⟨fun c hc => ?refused,
    fun hc _ a ha => ?applied⟩, fun c h => ?reverted, fun h hb => State.romUpdate_first_trial h hb, State.romUpdate_settled⟩,
    fun p r slot hash hwf => ?records⟩
  case failed => exact acts_fillDone hp (State.fillDone_failed hp hm hf hg h)
  case held =>
    obtain ⟨b, hdone, hb⟩ := State.fillDone_trained hp hm hf hg (rom := rom) h
    obtain ⟨u, reason, flags, hrun, hu⟩ := hb.held hc hup
    exact ⟨_, acts_fillDone hp hdone, hu.bootHold (HoldsBoot.code_ne_zero hc) reason flags rom hrun⟩
  case started =>
    obtain ⟨b, hdone, hb⟩ := State.fillDone_trained hp hm hf hg (rom := rom) h
    obtain ⟨u, reason, flags, hrun, hu, hkey⟩ := hb.verified htest hsfdp hboot hup hn
    obtain ⟨v, anchor, fl, prev, hslot, hvm, hvp, hvg, hrunning, hhold, hcount, halias⟩ :=
      State.bootSlot_cold (by rw [hu.spi, hup]; exact UpState.noConfusion) hr n reason flags
    obtain ⟨hmode, hupd, hpins, hgorge, htime, hcounter, hmem⟩ := State.enterRebuild_cold v rom anchor reason n fl prev (hrun.trans hslot)
    refine ⟨_, acts_fillDone hp hdone, hmode, ?_⟩
    rw [hupd, hpins, hgorge, hvg, hvp]
    rw [hvm, hu.mode] at hmem
    exact ⟨hrunning, hhold, by rw [hcount, hu.spi], rfl, rfl, htime, hcounter, rfl, by rw [hu.holdup], hkey,
      halias.trans (State.slotAlias_congr hu.spi hu.fuse n), hmem⟩
  case refused => subst hcode; exact ⟨_, State.romUpdate_refused h hc, by simp, by simp⟩
  case applied => subst hcode; exact ⟨_, State.romUpdate_applied h hc, State.applied_spi ha, s.applied_update⟩
  case reverted => exact ⟨_, State.romUpdate_reverts h, s.romRevert_spi c, s.romRevert_update c⟩
  case records =>
    exact ⟨rfl, rfl, p.spiRead_upWrite r hwf, rfl, rfl, Spi.pointerWrite_up .., p.spiRead_pointerWrite slot hash hwf⟩

end Sys2Proof
end

section
/-! Rows that Col stamps (R9, R31 to R34): a row that waits for its grain's edge, or has it at once, and one whose time has not come. -/

namespace Sys2Proof.Machine

/-- A stamped row whose condition holds arrives. -/
theorem arrives_of_stamped {s : State} {c : Bool → Instr} {ok : Bool} {f : State → State} (h : ok = true)
    (hc : ∀ edge : Bool, exec (c edge) s = s.stamped ok edge f) : Arrives c s (f s) :=
  ⟨(hc false).trans (State.stamped_wait h), fun _ hg => (hc true).trans (State.stamped_edge h hg)⟩

theorem arrives_of_arrive {s : State} {c : Bool → Instr} {ok : Bool} {e : Event} (h : ok = true)
    (hc : ∀ edge : Bool, exec (c edge) s = s.stamped ok edge fun s => s.arrive e) : Arrives c s (s.arrive e) :=
  arrives_of_stamped (f := fun s => s.arrive e) h hc

/-- A stamped row whose condition does not hold has no effect. -/
theorem State.stamped_neg {s : State} {ok edge : Bool} {f : State → State} (h : ok = false) : s.stamped ok edge f = .next s := by
  simp [State.stamped, h]

section
variable {s : State}

theorem State.clocked_iff : s.clocked = true ↔ s.powered = true ∧ s.time.running = true := Bool.and_eq_true_iff
theorem State.cored_iff : s.cored = true ↔ s.powered = true ∧ s.mode.running = true := Bool.and_eq_true_iff

theorem State.cored_of_clocked (h : s.clocked = true) (hm : s.mode.running = true) : s.cored = true :=
  State.cored_iff.2 ⟨(State.clocked_iff.1 h).1, hm⟩

/-! ## Conditions of the timed rows -/

theorem State.deadlineDue_of_work {id : Stamp} {w : Work} (hw : s.work? id = some w) (h0 : w.deadline ≠ 0) (h : w.deadline ≤ s.grain) :
    s.deadlineDue id = true := by
  simp [State.deadlineDue, hw, h0, h]

theorem State.rereadDue_of_tracked {n ch at_ : Nat} (hm : (n, ch, at_) ∈ s.delta.tracked) (h : at_ + s.patrolPeriod / 4 ≤ s.grain) :
    s.rereadDue n ch = true := by
  rw [State.rereadDue, List.any_eq_true]
  exact ⟨_, hm, by simp [h]⟩

theorem State.ckptDue_iff : s.ckptDue = true ↔ ∀ g : Nat, s.delta.ckptAt = some g → g + 250000 ≤ s.grain := by
  simp [State.ckptDue, Option.all_eq_true]

theorem State.ckptDue_early {g : Nat} (hg : s.delta.ckptAt = some g) (h : s.grain < g + 250000) : s.ckptDue = false := by
  simp [State.ckptDue, hg, h]

end

end Sys2Proof.Machine

namespace Sys2Proof

open Machine

/-- Settles O21: each row is `stamped` under its condition, and `arrives_of_stamped` says what it then does. -/
theorem happeningsArrive : Obligations.HappeningsArrive := by
  intro s hc
  refine ⟨fun _ _ => arrives_of_arrive hc (exec_dmaDone _ _ · s), fun _ => arrives_of_arrive hc (exec_journalEntryWritten _ · s),
    fun _ => arrives_of_arrive hc (exec_firstByteReleased _ · s), fun h o => ?release,
    fun id w hw h0 hd => ?timeout, fun n h => ?keepalive, fun n h => ?counter, fun fn h => ?reset, fun hm => ?cores⟩
  case release => exact arrives_of_stamped (f := fun s => s.presentRelease h o 0) hc (exec_bufferRelease h o · s)
  case timeout => exact arrives_of_arrive (by simp [hc, State.deadlineDue_of_work hw h0 hd]) (exec_commandTimeout id · s)
  case keepalive => exact arrives_of_arrive (by simp [hc, h]) (exec_keepaliveExpiry n · s)
  case counter => exact arrives_of_arrive (by simp [hc, h]) (exec_frameCounterExhausted n · s)
  case reset => exact arrives_of_arrive (by simp [hc, State.fnPresent, h]) (exec_functionLevelReset fn · s)
  case cores =>
    have hr := State.cored_of_clocked hc hm
    refine ⟨fun _ => arrives_of_arrive hr (exec_programDone _ · s), fun _ _ => arrives_of_arrive hr (exec_programFailure _ _ · s),
      fun _ _ _ => arrives_of_arrive hr (exec_eraseFailure _ _ _ · s), fun _ _ _ => arrives_of_arrive hr (exec_eraseDone _ _ _ · s),
      fun _ _ _ => arrives_of_arrive hr (exec_codewordReadDone _ _ _ · s), fun _ => arrives_of_arrive hr (exec_xorRebuild _ · s),
      fun _ _ => ⟨arrives_of_arrive hr (exec_gcStep _ _ · s), arrives_of_arrive hr (exec_foldingStep _ _ · s),
        arrives_of_arrive hr (exec_refreshStep _ _ · s)⟩,
      fun _ _ _ _ => arrives_of_arrive hr (exec_patrolRead _ _ _ _ · s), fun _ _ _ => arrives_of_arrive hr (exec_rekeySweepStep _ _ _ · s),
      fun _ _ => arrives_of_arrive hr (exec_secureDeleteRelocationStep _ _ · s), fun _ _ => arrives_of_arrive hr (exec_bulkCopyStep _ _ · s),
      arrives_of_arrive hr (exec_recorderFlushDone · s), arrives_of_arrive hr (exec_retentionSweep · s),
      fun _ _ => arrives_of_arrive hr (exec_proposeCompletion _ _ · s), fun _ => arrives_of_arrive hr (exec_markCompletion _ · s),
      fun _ => arrives_of_arrive hr (exec_peerSessionFrameReceive _ · s), fun h => ?rate, fun n ch at_ _ ht h => ?reread, fun h => ?cycle,
      fun h lines => ?checkpoint, fun edge => ⟨fun h => ?rateEarly, fun h => ?cycleEarly, fun g hg h lines => ?checkpointEarly,
        fun w h => ?startEarly, fun w h => ?endEarly⟩,
      fun w h => ?start, fun w h => ?ends, fun p h1 h3 => ?idle, fun h => ?trial⟩
    case rate => exact arrives_of_arrive (by simp [hr, State.rateDue, h]) (exec_patrolRateUpdate · s)
    case reread => exact arrives_of_arrive (by simp [hr, State.rereadDue_of_tracked ht h]) (exec_patrolReread n ch _ · s)
    case cycle => exact arrives_of_arrive (by simp [hr, State.cycleDue, h]) (exec_patrolCycleEnd · s)
    case checkpoint => exact arrives_of_arrive (by simp [hr, State.ckptDue_iff.2 h]) (exec_checkpointTimer lines · s)
    case rateEarly => exact (exec_patrolRateUpdate edge s).trans (State.stamped_neg (by simp [State.rateDue, h]))
    case cycleEarly => exact (exec_patrolCycleEnd edge s).trans (State.stamped_neg (by simp [State.cycleDue, h]))
    case checkpointEarly => exact (exec_checkpointTimer lines edge s).trans (State.stamped_neg (by simp [State.ckptDue_early hg h]))
    case startEarly => exact (exec_calendarStartEdge w edge s).trans (State.stamped_neg (by simp [h]))
    case endEarly => exact (exec_calendarEndEdge w edge s).trans (State.stamped_neg (by simp [h]))
    case start => exact arrives_of_arrive (by simp [hr, h]) (exec_calendarStartEdge w · s)
    case ends => exact arrives_of_arrive (by simp [hr, h]) (exec_calendarEndEdge w · s)
    case idle => exact arrives_of_arrive (by simp [hr, h1, h3]) (exec_idleTimerExpiry p · s)
    case trial => exact arrives_of_arrive (by simp [hr, h]) (exec_trialWindowExpiry · s)

end Sys2Proof
end

section
/-! The edge of a grain (R30, R33): a due step counts against the 52 bits of a grain number. -/

namespace Sys2Proof.Machine

theorem exec_grainEdge_fault {s : State} {idle : Nat} (hc : s.clocked = true) (h : Config.maxGrain ≤ s.nextGrain + idle) :
    exec (.grainEdge idle) s = .fault .grainNumberExhausted := by
  rw [exec_grainEdge, execGrainEdge, if_neg (by simp [hc]), if_pos h]

/-- The counter runs at grain 0, and a forward step of 2^52 grains is due at the edge. -/
def farStepDue : State :=
  { State.reset with time := { State.reset.time with running := true, stepDue := some (2 ^ 52 * 1000) } }

theorem farStepDue_clocked : farStepDue.clocked = true := rfl
theorem farStepDue_grain : farStepDue.grain = 0 := rfl
theorem farStepDue_maxGrain_le : Config.maxGrain ≤ farStepDue.nextGrain := by decide

end Sys2Proof.Machine

namespace Sys2Proof

open Machine

/-- Refutes O22: it says that GRAIN_EDGE answers wherever the grain number and the idle grains stay within 52 bits, but the edge also takes
the forward step that is due (R21, R22), and faults where that step leads past them. -/
theorem not_grainsEnd : ¬ Obligations.GrainsEnd := by
  intro h
  obtain ⟨_, hanswers, _⟩ := h farStepDue farStepDue_clocked
  obtain ⟨t, ht, _⟩ := hanswers 0 (by rw [farStepDue_grain]; norm_num)
  have hfault := exec_grainEdge_fault (idle := 0) farStepDue_clocked farStepDue_maxGrain_le
  rw [ht] at hfault
  cases hfault

end Sys2Proof
end

section
/-! TIME_SET and SCHEDULE_SET (R19, R29, R38, R97, R99). -/

namespace Sys2Proof.Machine

section
variable {s b t : State} {c : Submission} {w : Work} {i : Instr}

/-! ## TIME_SET -/

theorem State.timeSet_configure (hf : b.timeSetFail w.desc = none) (ho : w.desc.param 0x20 1 = 0) : b.timeSet w = b.timeConfigure w := by
  simp only [State.timeSet, hf, ho]

theorem State.timeSet_setTod (hf : b.timeSetFail w.desc = none) (ho : w.desc.param 0x20 1 = 1) :
    b.timeSet w = ({ b with time := { b.time with todPending := some w.desc.stampArg.toNat } }).deliver w { commit := w.stamp } := by
  simp only [State.timeSet, hf, ho]
  rfl

theorem State.timeSet_readmit (hf : b.timeSetFail w.desc = none) (ho : w.desc.param 0x20 1 = 2) : b.timeSet w = b.readmit w := by
  simp only [State.timeSet, hf, ho]

section
variable {new : TimeConfig} (hn : new = timeConfigOf w.desc b.time.config)
include hn

/-- Neither the reference nor its backup changes. -/
theorem State.timeConfigure_kept (hsrc : b.time.config.source = new.source) (hport : b.time.config.timePort = new.timePort)
    (hprof : b.time.config.profile = new.profile) (hdom : b.time.config.domain = new.domain)
    (htrans : b.time.config.transport = new.transport) (hback : b.time.config.backup = new.backup) :
    b.timeConfigure w = (({ b with time := { b.time with config := new } }).metaWrite 0).deliver w { commit := w.stamp } := by
  simp only [State.timeConfigure, ← hn, hsrc, hport, hprof, hdom, htrans, hback, bne_self_eq_false, Bool.or_self, Bool.false_eq_true, if_false]
  rfl

/-- The search for a reference starts anew. -/
theorem State.timeConfigure_anew (h : b.time.config.source ≠ new.source ∨ b.time.config.timePort ≠ new.timePort ∨
    b.time.config.domain ≠ new.domain) : b.timeConfigure w = ((b.refChange w.stamp fun t => { t with
      config := new, mainMaster := none, backMaster := none, inUse := 255, masterId := 0, todPending := none, todApplied := false
      ppsMissing := false }).metaWrite 0).deliver w { commit := w.stamp } := by
  have hanew : (b.time.config.source != new.source || b.time.config.timePort != new.timePort || b.time.config.profile != new.profile ||
      b.time.config.domain != new.domain || b.time.config.transport != new.transport) = true := by
    simp only [Bool.or_eq_true, bne_iff_ne]
    tauto
  simp only [State.timeConfigure, ← hn, hanew, if_true]
  rfl

/-- The backup's master alone is let go. -/
theorem State.timeConfigure_backup (hsrc : b.time.config.source = new.source) (hport : b.time.config.timePort = new.timePort)
    (hprof : b.time.config.profile = new.profile) (hdom : b.time.config.domain = new.domain)
    (htrans : b.time.config.transport = new.transport) (hback : b.time.config.backup ≠ new.backup) :
    b.timeConfigure w = ((b.mastersChange w.stamp fun t => { t with config := new, backMaster := none }).metaWrite 0).deliver w
      { commit := w.stamp } := by
  have hother : (b.time.config.backup != new.backup) = true := by simpa using hback
  simp only [State.timeConfigure, ← hn, hsrc, hport, hprof, hdom, htrans, hother, bne_self_eq_false, Bool.or_self, Bool.false_eq_true,
    if_false, if_true]
  rfl

end

theorem State.readmit_relocked (hq : b.time.quality = .lost) (hr : b.time.relocked = true) :
    b.readmit w = ((b.recordEvent 16 w.stamp 0x106 (b.qualityData .lost .locked)).setQuality .locked w.stamp).deliver w
      { commit := w.stamp } := by
  rw [State.readmit, if_pos ⟨hq, hr⟩]
  rfl

theorem State.readmit_refused (hq : b.time.quality ≠ .lost) :
    b.readmit w = b.deliver w { status := .timeUnlocked, detail := b.time.quality.code, commit := w.stamp } := by
  rw [State.readmit, if_neg fun h => hq h.1, State.fails_eq]

/-! ## SCHEDULE_SET -/

/-- The window that SCHEDULE_SET names, before its edges of this grain are known. -/
def windowOf (d : Descriptor) : Window :=
  { enable := d.param 0x21 1 = 1, period := d.stampArg.toNat, start := d.param 0x28 8, duration := d.param 0x30 8
    gc := d.param 0x22 1, patrol := d.param 0x23 1, floor := d.param 0x24 1, hold := d.param 0x25 1 = 1 }

/-- The window as it is set in grain `g`, where `before` was set. -/
def Window.scheduled (x before : Window) (g : Nat) : Window :=
  { x with started := if (!before.enable || x.period != before.period || x.start != before.start) && x.active g && !before.active g
             then x.lastEdge g else g
           ended := g, endOwed := before.active g && !x.active g }

/-- A window whose other fields are those that the command names, and whose start edge is told in terms of itself. -/
theorem Window.eq_scheduled {d : Descriptor} {x before : Window} {g : Nat}
    (hx : x = { windowOf d with started := x.started, ended := g, endOwed := before.active g && !x.active g })
    (hstarted : x.started = if (!before.enable || x.period != before.period || x.start != before.start) && x.active g && !before.active g
      then x.lastEdge g else g) : x = (windowOf d).scheduled before g := by
  have hactive : x.active g = (windowOf d).active g := (congrArg (Window.active · g) hx).trans rfl
  have hedge : x.lastEdge g = (windowOf d).lastEdge g := (congrArg (Window.lastEdge · g) hx).trans rfl
  have hperiod : x.period = (windowOf d).period := (congrArg Window.period hx).trans rfl
  have hstart : x.start = (windowOf d).start := (congrArg Window.start hx).trans rfl
  rw [hstarted, hactive, hedge, hperiod, hstart] at hx
  exact hx

theorem State.scheduleSet_taken {n g : Nat} {x : Window} (hf : scheduleFail w.desc = none) (hn : n = w.desc.param 0x20 1)
    (hg : g = grainOf w.stamp) (hx : x = (windowOf w.desc).scheduled (mapGet {} b.time.windows n) g) :
    b.scheduleSet w = ((({ b with time := { b.time with windows := mapSet b.time.windows n x } }).updCol fun k =>
      { k with intake := k.intake ++ (if x.endDue g then [Event.calEnd n] else []) ++ (if x.startDue g then [Event.calStart n] else []) }).metaWrite
        0).deliver w { commit := w.stamp } := by
  subst hn hg hx
  simp only [State.scheduleSet, hf]
  rfl

/-! ## The commands' rows -/

theorem executes_timeSet (hi : exec i s = s.command (withOpcode 0xA5 c) true) (h : Alone s (withOpcode 0xA5 c) b w)
    (ht : b.timeSet w = t) : Executes i s t :=
  executes_of_adminRun hi h rfl (by rwa [State.adminRun, op_of_alone h rfl])

theorem executes_scheduleSet (hi : exec i s = s.command (withOpcode 0xA2 c) true) (h : Alone s (withOpcode 0xA2 c) b w)
    (ht : b.scheduleSet w = t) : Executes i s t :=
  executes_of_adminRun hi h rfl (by rwa [State.adminRun, op_of_alone h rfl])

/-- The operation that a TIME_SET row names. -/
theorem operation_of_alone {v : Nat} (h : Alone s (withOpcode 0xA5 (withParam 0x20 v c)) b w) : w.desc.param 0x20 1 = v % 256 := by
  rw [desc_of_alone h rfl, withOpcode_param, withParam_param v c (by norm_num) (by norm_num)]

end

end Sys2Proof.Machine

namespace Sys2Proof

open Machine

/-- Settles O29: each row is alone in its grain, so it leaves what its command's meaning leaves (`executes_of_adminRun`), which the lemma of
its operation spells. -/
theorem timeCommands : Obligations.TimeCommands := by
  intro s b c w old new hold hn
  subst hold
  refine ⟨fun h hf => ?configure, fun h hf => ?setTod, fun h hf => ?readmit, fun n g x before h hf hnum hg hbefore hx hstart => ?schedule⟩
  case configure =>
    have run {t : State} (ht : b.timeConfigure w = t) : Executes (.timeSetConfigure c true) s t :=
      executes_timeSet rfl h ((State.timeSet_configure hf (operation_of_alone h)).trans ht)
    exact ⟨fun hsrc hport hprof hdom htrans hback => run (State.timeConfigure_kept hn hsrc hport hprof hdom htrans hback),
      fun hanew => run (State.timeConfigure_anew hn hanew),
      fun hsrc hport hprof hdom htrans hback => run (State.timeConfigure_backup hn hsrc hport hprof hdom htrans hback)⟩
  case setTod => exact executes_timeSet rfl h (State.timeSet_setTod hf (operation_of_alone h))
  case readmit =>
    have run {t : State} (ht : b.readmit w = t) : Executes (.timeSetReadmit c true) s t :=
      executes_timeSet rfl h ((State.timeSet_readmit hf (operation_of_alone h)).trans ht)
    exact ⟨fun hq hr => run (State.readmit_relocked hq hr), fun hq => run (State.readmit_refused hq)⟩
  case schedule =>
    subst hbefore
    exact executes_scheduleSet rfl h (State.scheduleSet_taken hf hnum hg (Window.eq_scheduled hx hstart))

end Sys2Proof
end

section
/-! Finite maps whose value at one key is changed, buffer pools, and the state of a grain with one event (R31 to R33, R185 to R188). -/

namespace Sys2Proof

/-- A read after the value of one key is changed in place. -/
theorem mapGet?_map_at {α : Type} (m : NatMap α) (n k : Nat) (f : α → α) :
    mapGet? (m.map fun e => if e.1 = n then (e.1, f e.2) else e) k = if k = n then (mapGet? m k).map f else mapGet? m k := by
  induction m with
  | nil => simp [mapGet?]
  | cons e m ih =>
    obtain ⟨j, v⟩ := e
    by_cases hj : j = n
    · subst hj
      simp only [List.map_cons, if_true, mapGet?, ih]
      by_cases hk : k = j
      · simp [hk]
      · simp [hk, Ne.symm hk]
    · simp only [List.map_cons, if_neg hj, mapGet?, ih]
      by_cases hk : k = n
      · subst hk
        simp only [if_neg hj, if_true]
        split <;> rfl
      · simp only [if_neg hk]

/-- The value of one key changed twice in place. -/
theorem map_at_map_at {α : Type} (m : NatMap α) (n : Nat) (f g : α → α) :
    ((m.map fun e => if e.1 = n then (e.1, f e.2) else e).map fun e => if e.1 = n then (e.1, g e.2) else e) =
      m.map fun e => if e.1 = n then (e.1, g (f e.2)) else e := by
  rw [List.map_map]
  refine List.map_congr_left fun e _ => ?_
  by_cases he : e.1 = n <;> simp [he]

end Sys2Proof

namespace Sys2Proof.Machine

section
variable {s : State}

/-! ## Pools and handles -/

@[simp] theorem State.pool_updPool_same (s : State) (p : Nat) (f : Pool → Pool) : (s.updPool p f).pool p = f (s.pool p) :=
  (mapGet_mapUpd ..).trans (if_pos rfl)

theorem State.pool_updPool_other (f : Pool → Pool) {p k : Nat} (h : k ≠ p) : (s.updPool p f).pool k = s.pool k :=
  (mapGet_mapUpd ..).trans (if_neg h)

theorem State.pool_updBuffer_same (s : State) (h : Handle) (f : Buffer → Buffer) : (s.updBuffer h f).pool h.pool =
    { s.pool h.pool with buffers := (s.pool h.pool).buffers.map fun e => if e.1 = h.index then (e.1, f e.2) else e } :=
  s.pool_updPool_same ..

theorem State.pool_updBuffer_other {h : Handle} {k : Nat} (f : Buffer → Buffer) (hk : k ≠ h.pool) : (s.updBuffer h f).pool k = s.pool k :=
  State.pool_updPool_other _ hk

/-- New contents of a buffer change nothing that a handle's checks look at. -/
theorem State.checkHandle_updBuffer (h : Handle) (o : OwnerTag) (a : Option (Nat × Nat)) {f : Buffer → Buffer} (hgen : ∀ b, (f b).gen = b.gen)
    (halloc : ∀ b, (f b).alloc = b.alloc) (howner : ∀ b, (f b).owner = b.owner) :
    (s.updBuffer h f).checkHandle h o a = s.checkHandle h o a := by
  simp only [State.checkHandle, State.pool_updBuffer_same, mapGet?_map_at, if_true]
  cases mapGet? (s.pool h.pool).buffers h.index with
  | none => rfl
  | some b => simp only [Option.map_some, hgen, halloc, howner]

theorem State.zeroBuffer_good {h : Handle} {o : OwnerTag} (hk : s.checkHandle h o none = 0) :
    s.zeroBuffer h o = s.updBuffer h fun b => { b with bytes := [], poisoned := false } := if_pos hk

theorem State.zeroBuffer_bad {h : Handle} {o : OwnerTag} (hk : s.checkHandle h o none ≠ 0) : s.zeroBuffer h o = s := if_neg hk

theorem State.zeroBuffer_frame (s : State) (h : Handle) (o : OwnerTag) : ∃ b, s.zeroBuffer h o = { s with basin := b } := by
  unfold State.zeroBuffer
  split
  · exact ⟨_, rfl⟩
  · exact ⟨_, rfl⟩

theorem State.freeBuffer_good {h : Handle} {o : OwnerTag} (hk : s.checkHandle h o none = 0) :
    s.freeBuffer h o = (s.updBuffer h fun b => { b with alloc := false, bytes := [], poisoned := false }).updPool h.pool fun pl =>
      { pl with free := pl.free + 1, releases := inc64 pl.releases } := by
  simp only [State.freeBuffer, hk]

theorem State.freeBuffer_bad {h : Handle} {o : OwnerTag} {k : Nat} (hk : s.checkHandle h o none = k) (h0 : k ≠ 0) :
    s.freeBuffer h o = s.handleFault h o 2 k := by
  obtain ⟨n, rfl⟩ := Nat.exists_eq_succ_of_ne_zero h0
  simp only [State.freeBuffer, hk]

/-! ## The edge of a grain behind one arrival -/

theorem State.quiet_iff : s.quiet = true ↔ s.col.intake = [] ∧ s.col.carry = [] ∧ s.time.stepDue = none := by
  simp [State.quiet, and_assoc]

theorem Col.taken_of_empty {k : Col} (hi : k.intake = []) (hc : k.carry = []) (st : Stamp) :
    ({ k with intake := [], carry := [], last := st } : Col) = { k with last := st } := by
  cases k
  subst hi hc
  rfl

/-- Where only one thing waits for a stamp, it takes the grain's slot 0, has its effect there, and the grain ends. -/
theorem State.grainEdge_arrive (hq : s.quiet = true) (hp : s.powered = true) (e : Event) :
    (s.arrive e).grainEdge = restOfGrain s.grain ((atSlotZero s).applyEvent e (stampOf s.grain 0)) := by
  obtain ⟨hi, hc, _⟩ := State.quiet_iff.1 hq
  have hone : (s.arrive e).col.intake = [e] := by simp [State.arrive, hi]
  have htaken : ((s.arrive e).updCol fun k => { k with intake := [], carry := [], last := stampOf s.grain 0 }) = atSlotZero s :=
    congrArg (fun c => ({ s with col := c } : State)) (Col.taken_of_empty hi hc _)
  have hedge := State.grainEdge_of_single (s := s.arrive e) hone hc hp
  rwa [show (s.arrive e).grain = s.grain from rfl, htaken] at hedge

section
variable {i : Instr} {ok : Bool} {t : State} {e : Event} (hc : s.clocked = true) (hq : s.quiet = true) (hg : s.nextGrain < Config.maxGrain)
include hc hq hg

/-- A stamped row whose event is the only one of its grain: its step leaves what the event leaves at the grain's first stamp. The row may
change what neither the intake nor the time is. -/
theorem executes_of_stamped {u : State} {f : State → State} (hok : ok = true) (hi : exec i s = s.stamped ok true f) (hf : f s = u.arrive e)
    (hcol : u.col = s.col) (htime : u.time = s.time) (hpins : u.pins = s.pins)
    (ht : (atSlotZero u).applyEvent e (stampOf s.grain 0) = t) : Executes i s t := by
  have hq' : u.quiet = true := by rw [← hq, State.quiet, hcol, htime]; rfl
  have hp' : u.powered = true := by rw [← (State.clocked_iff.1 hc).1, State.powered, hpins]; rfl
  have hgrain : u.grain = s.grain := by rw [State.grain, htime]; rfl
  rw [Executes, hi, State.stamped_edge hok hg, hf, State.grainEdge_arrive hq' hp', hgrain, ht]

theorem executes_of_arrive (hok : ok = true) (hi : exec i s = s.stamped ok true fun s => s.arrive e)
    (ht : (atSlotZero s).applyEvent e (stampOf s.grain 0) = t) : Executes i s t :=
  executes_of_stamped hc hq hg hok hi rfl rfl rfl rfl ht

end

end

end Sys2Proof.Machine
end

section
/-! What the pipeline's events do at their stamps (R34, R35, R93, R113, R188, R232). -/

namespace Sys2Proof.Machine

section
variable {s : State} {id : Stamp} {w : Work} (hw : s.work? id = some w)
include hw

/-! ## DMA -/

theorem State.dmaApply_done (hp : w.phase = .dma) : s.dmaApply id .done = (if w.dropped then s else s.writeHost w).deliver w w.result := by
  simp only [State.dmaApply, hw, hp, if_true]

theorem State.dmaApply_readFailed (hponr : w.ponr = false) (hpost : w.posted = false) (hp : w.phase ≠ .dma) (off : Nat) :
    s.dmaApply id (.readFailed off) = s.endWithout w { status := .invalidField, detail := off, commit := w.stamp } := by
  simp only [State.dmaApply, hw]
  rw [if_pos (by simp [hponr, hpost, hp])]
  rfl

/-! ## Journal -/

/-- A journal entry written is the point of no return; a DELETE_SECURE and an APPLY go on to the index, the others to their place. -/
theorem State.journalApply_written (hp : w.phase = .journal) (hr : s.journalRoom w.items.length = true) :
    s.journalApply id = (s.journalPut w.journal).updWork w.stamp fun _ =>
      { w with ponr := true, result := w.writeResult 0, phase := if w.op = 0x13 ∨ w.isApply = true then .index else .program } := by
  simp only [State.journalApply, hw]
  rw [if_pos ⟨hp, hr⟩]
  by_cases hd : w.op = 0x13 ∨ w.isApply = true
  · simp only [if_pos hd]
    exact if_pos hd
  · simp only [if_neg hd]
    exact if_neg hd

/-! ## The first byte of a read -/

theorem State.firstByteApply_released (hm : w.mayRelease = true) {y : Work} (hy : y = { w with ponr := true }) :
    s.firstByteApply id = if y.phase = .release then ((s.updWork w.stamp fun _ => y).stream y).readReady y
      else (s.updWork w.stamp fun _ => y).stream y := by
  subst hy
  simp only [State.firstByteApply, hw, hm, if_true]

/-! ## Deadlines -/

theorem State.timeoutApply_caught (hk : w.catchable = true) (hs : s.waits w = true) :
    s.timeoutApply id = s.endWithout w { status := .timedOut, commit := w.stamp } := by
  simp only [State.timeoutApply, hw]
  rw [if_pos ⟨hk, hs⟩]
  rfl

theorem State.timeoutApply_kept (h : w.catchable = false ∨ s.waits w = false) : s.timeoutApply id = s := by
  simp only [State.timeoutApply, hw]
  rw [if_neg (by rcases h with h | h <;> simp [h])]

end

theorem Work.mayRelease_iff {w : Work} : w.mayRelease = true ↔ w.ponr = false ∧ w.data ≠ [] ∧ isReadOp w.op = true ∧
    (w.phase = .release ∨ w.phase = .cipher ∧ (if w.early then 1 else 2) ≤ w.unit) := by
  simp [Work.mayRelease, and_assoc]

/-! ## The release of a buffer -/

/-- A zeroed buffer that its owner releases is free; no other pool changes. -/
theorem State.zeroBuffer_freeBuffer {s : State} {h : Handle} {o : OwnerTag} (hk : s.checkHandle h o none = 0) :
    ∃ b : Basin, (atSlotZero (s.zeroBuffer h o)).freeBuffer h o = { s with basin := b, col := (atSlotZero s).col } ∧
      ({ s with basin := b } : State).pool h.pool = { s.pool h.pool with
        buffers := (s.pool h.pool).buffers.map fun e => if e.1 = h.index then (e.1, { e.2 with alloc := false, bytes := [], poisoned := false }) else e
        free := (s.pool h.pool).free + 1, releases := inc64 (s.pool h.pool).releases } ∧
      ∀ p : Nat, p ≠ h.pool → ({ s with basin := b } : State).pool p = s.pool p := by
  have hzero := State.zeroBuffer_good hk
  generalize hu : s.zeroBuffer h o = u at hzero
  have hku : u.checkHandle h o none = 0 := by
    rw [hzero]
    refine (State.checkHandle_updBuffer h o none ?_ ?_ ?_).trans hk <;> exact fun _ => rfl
  have hfree := State.freeBuffer_good (s := atSlotZero u) hku
  generalize hv : (atSlotZero u).freeBuffer h o = v at hfree
  have hpool (p : Nat) : v.pool p = if p = h.pool then { s.pool h.pool with
        buffers := (s.pool h.pool).buffers.map fun e => if e.1 = h.index then (e.1, { e.2 with alloc := false, bytes := [], poisoned := false }) else e
        free := (s.pool h.pool).free + 1, releases := inc64 (s.pool h.pool).releases } else s.pool p := by
    have hslot (p : Nat) : (atSlotZero u).pool p = u.pool p := rfl
    by_cases hp : p = h.pool
    · subst hp
      have hmap := map_at_map_at (s.pool h.pool).buffers h.index (fun b => { b with bytes := [], poisoned := false })
        fun b => { b with alloc := false, bytes := [], poisoned := false }
      rw [if_pos rfl, hfree, State.pool_updPool_same, State.pool_updBuffer_same, hslot, hzero, State.pool_updBuffer_same, hmap]
    · rw [if_neg hp, hfree, State.pool_updPool_other _ hp, State.pool_updBuffer_other _ hp, hslot, hzero, State.pool_updBuffer_other _ hp]
  refine ⟨v.basin, by rw [hfree, hzero]; rfl, (hpool _).trans (if_pos rfl), fun p hp => (hpool p).trans (if_neg hp)⟩

end Sys2Proof.Machine

namespace Sys2Proof

open Machine

/-- Settles O35: each row's event is alone in its grain (`executes_of_arrive`), and leaves what the lemma of its event spells. -/
theorem pipelineActsAtItsStamps : Obligations.PipelineActsAtItsStamps := by
  intro s x hc hq hg hx
  subst hx
  refine ⟨fun id w hw => ?works, fun h o => ⟨fun hk => ?freed, fun k h0 hk => ?reported⟩⟩
  case works =>
    have hw' : (atSlotZero s).work? id = some w := hw
    refine ⟨fun hp hd => ?written, fun hp hd => ?dropped, fun off hponr hpost hp => ?failed, fun hp hr hop ha => ?program,
      fun hp hr hd => ?index, fun y hponr hdata hop hy => ⟨fun hp hu => ?early, fun hp => ?release⟩,
      fun h0 hd => ⟨fun hk hs => ?caught, fun hk => ?kept⟩⟩
    case written =>
      exact executes_of_arrive hc hq hg hc (exec_dmaDone id .done true s) ((State.dmaApply_done hw' hp).trans (by rw [hd]; rfl))
    case dropped =>
      exact executes_of_arrive hc hq hg hc (exec_dmaDone id .done true s) ((State.dmaApply_done hw' hp).trans (by rw [hd]; rfl))
    case failed =>
      exact executes_of_arrive hc hq hg hc (exec_dmaDone id (.readFailed off) true s) (State.dmaApply_readFailed hw' hponr hpost hp off)
    case program =>
      refine executes_of_arrive hc hq hg hc (exec_journalEntryWritten id true s) ((State.journalApply_written hw' hp hr).trans ?_)
      rw [if_neg (by simp [hop, ha])]
    case index =>
      refine executes_of_arrive hc hq hg hc (exec_journalEntryWritten id true s) ((State.journalApply_written hw' hp hr).trans ?_)
      rw [if_pos hd]
    case early =>
      have hm : w.mayRelease = true := Work.mayRelease_iff.2 ⟨hponr, hdata, hop, .inr ⟨hp, hu⟩⟩
      refine executes_of_arrive hc hq hg hc (exec_firstByteReleased id true s) ?_
      rw [State.applyEvent, State.firstByteApply_released hw' hm hy, hw', if_neg (by simp [hy, hp])]
    case release =>
      have hm : w.mayRelease = true := Work.mayRelease_iff.2 ⟨hponr, hdata, hop, .inl hp⟩
      refine executes_of_arrive hc hq hg hc (exec_firstByteReleased id true s) ?_
      rw [State.applyEvent, State.firstByteApply_released hw' hm hy, hw', if_pos (by simp [hy, hp])]
    case caught => 
      exact executes_of_arrive hc hq hg (by simp [hc, State.deadlineDue_of_work hw h0 hd]) (exec_commandTimeout id true s)
        (State.timeoutApply_caught hw' hk hs)
    case kept =>
      exact executes_of_arrive hc hq hg (by simp [hc, State.deadlineDue_of_work hw h0 hd]) (exec_commandTimeout id true s)
        (State.timeoutApply_kept hw' hk)
  case freed =>
    obtain ⟨b, hfree, hpool, hother⟩ := State.zeroBuffer_freeBuffer hk
    obtain ⟨z, hz⟩ := s.zeroBuffer_frame h o
    refine ⟨_, executes_of_stamped (u := s.zeroBuffer h o) hc hq hg hc (exec_bufferRelease h o true s) rfl ?_ ?_ ?_ hfree, rfl, hpool, hother⟩
    all_goals rw [hz]
  case reported =>
    refine executes_of_stamped (u := s) (e := .release h o 0) hc hq hg hc (exec_bufferRelease h o true s) ?_ rfl rfl rfl
      (State.freeBuffer_bad (s := atSlotZero s) hk h0)
    exact congrArg (State.arrive · (.release h o 0)) (State.zeroBuffer_bad (hk ▸ h0))

end Sys2Proof
end

section
/-! What the other happenings do at their stamps (R38, R119, R123, R205, R233, R368, R371). -/

namespace Sys2Proof.Machine

/-! ## What a raise leaves -/

section
variable (s : State) (source fn : Nat) (st : Stamp) (type : Nat) (data : BitVec 128)

@[simp] theorem State.raise_time : (s.raise source fn st type data).time = s.time := by
  obtain ⟨e, x, h⟩ := s.raise_frame source fn st type data
  rw [h]

@[simp] theorem State.raise_host : (s.raise source fn st type data).host = s.host := by
  obtain ⟨e, x, h⟩ := s.raise_frame source fn st type data
  rw [h]

@[simp] theorem State.raise_glen : (s.raise source fn st type data).glen = s.glen := by
  obtain ⟨e, x, h⟩ := s.raise_frame source fn st type data
  rw [h]

@[simp] theorem State.raise_update : (s.raise source fn st type data).update = s.update := by
  obtain ⟨e, x, h⟩ := s.raise_frame source fn st type data
  rw [h]

@[simp] theorem State.raise_spi : (s.raise source fn st type data).spi = s.spi := by
  obtain ⟨e, x, h⟩ := s.raise_frame source fn st type data
  rw [h]

end

@[simp] theorem grainOf_stampOf_zero (g : Nat) : grainOf (stampOf g 0) = g := by simp [grainOf, stampOf]

section
variable {s : State}

/-! ## A function's reset (R119) -/

theorem State.fn_updFn (s : State) (f k : Nat) (g : Fn → Fn) : (s.updFn f g).fn k = if k = f then g (s.fn f) else s.fn k :=
  mapGet_mapUpd ..

/-- With no command in flight a function's reset catches none and keeps none. -/
theorem State.flrCommands_of_no_work (h : s.works = []) (f : Nat) : s.flrCommands f = (s.muteArrivals f true, 0, 0) := by
  have hw : (s.muteArrivals f true).works = [] := h
  have hm (g : Work → Work) : ((s.muteArrivals f true).updWorks fun ws => ws.map g) = s.muteArrivals f true := by
    show { s.muteArrivals f true with works := (s.muteArrivals f true).works.map g } = _
    rw [hw, List.map_nil, ← hw]
  simp only [State.flrCommands, h, List.filter_nil, List.foldl_nil, List.length_nil, hm]

/-- The registers of a function after its reset; the other functions', and the rings of the others, as before. -/
theorem State.flrApply_of_no_work (h : s.works = []) (f : Nat) (st : Stamp) :
    (s.flrApply f st).fn f = { pci := (s.fn f).pci, kek := (s.fn f).kek, kekVersion := (s.fn f).kekVersion, nonce := (s.fn f).nonce } ∧
      (∀ g, g ≠ f → (s.flrApply f st).fn g = s.fn g) ∧ (s.flrApply f st).host.rings = s.host.rings.filter (fun r => r.2.fn != f) ∧
      { fn := f, source := 100, stamp := st, data := eventData [(1, f), (4, 0), (4, 0)] } ∈ (s.flrApply f st).events.raises := by
  have happly : s.flrApply f st = (if f = 0 then ((s.muteArrivals f true).flrRegisters f).updLatches fun _ => []
      else (s.muteArrivals f true).flrRegisters f).raise 100 f st 0x303 (eventData [(1, f), (4, 0), (4, 0)]) := by
    simp only [State.flrApply, State.flrOne, State.flrCommands_of_no_work h]
  generalize hu : (if f = 0 then ((s.muteArrivals f true).flrRegisters f).updLatches fun _ => []
      else (s.muteArrivals f true).flrRegisters f) = u at happly
  have hhost : u.host = ((s.muteArrivals f true).flrRegisters f).host := by
    rw [← hu]; split <;> rfl
  have hkeep : (s.flrApply f st).host = ((s.muteArrivals f true).flrRegisters f).host := by rw [happly, State.raise_host, hhost]
  have hfn (g : Nat) : (s.flrApply f st).fn g = if g = f then
      { pci := (s.fn f).pci, kek := (s.fn f).kek, kekVersion := (s.fn f).kekVersion, nonce := (s.fn f).nonce } else s.fn g := by
    rw [show (s.flrApply f st).fn g = mapGet {} (s.flrApply f st).host.fns g from rfl, hkeep]
    exact State.fn_updFn ..
  refine ⟨(hfn f).trans (if_pos rfl), fun g hg => (hfn g).trans (if_neg hg), by rw [hkeep]; rfl, ?_⟩
  rw [happly]
  exact State.raise_mem ..

/-! ## The checkpoint timer (R233) -/

/-- The turn goes to the next slice. -/
def State.sliceTurn (s : State) : State :=
  (s.updIndex fun i => { i with ckptNext := (s.index.ckptNext + 1) % 240 }).updDelta fun d => { d with ckptAt := some s.grain }

section
variable (lines : List (DramLine × LineOutcome))

theorem State.checkpointApply_eq : s.checkpointApply lines =
    if s.delta.sealed ∨ s.pins.pwrFail ∨ s.delta.total = 0 ∨ s.index.ckptNext ∈ s.index.heldSlices then s.sliceTurn
    else if s.index.ckptNext ∈ s.index.ckptDirty ∨ (mapGet? s.delta.images s.index.ckptNext).isNone then
      s.sliceTurn.arrive (.step (.checkpoint s.index.ckptNext s.index.wseq lines) [])
    else ((s.sliceTurn.updIndex fun i => { i with ckptW := mapSet i.ckptW s.index.ckptNext s.index.wseq }).metaWrite 32).releaseJournal := rfl

theorem State.checkpointApply_skipped (h : s.index.ckptNext ∈ s.index.heldSlices ∨ s.delta.sealed = true ∨ s.delta.total = 0) :
    s.checkpointApply lines = s.sliceTurn := by
  rw [State.checkpointApply_eq, if_pos (by tauto)]

section
variable (hh : s.index.ckptNext ∉ s.index.heldSlices) (hs : s.delta.sealed = false) (ht : s.delta.total ≠ 0) (hp : s.pins.pwrFail = false)
include hh hs ht hp

theorem State.checkpointApply_dirty (h : s.index.ckptNext ∈ s.index.ckptDirty ∨ mapGet? s.delta.images s.index.ckptNext = none) :
    s.checkpointApply lines = s.sliceTurn.arrive (.step (.checkpoint s.index.ckptNext s.index.wseq lines) []) := by
  rw [State.checkpointApply_eq, if_neg (by simp [hh, hs, ht, hp]), if_pos (by simpa using h)]

theorem State.checkpointApply_clean (hd : s.index.ckptNext ∉ s.index.ckptDirty) (hi : (mapGet? s.delta.images s.index.ckptNext).isSome = true) :
    s.checkpointApply lines =
      ((s.sliceTurn.updIndex fun i => { i with ckptW := mapSet i.ckptW s.index.ckptNext s.index.wseq }).metaWrite 32).releaseJournal := by
  rw [State.checkpointApply_eq, if_neg (by simp [hh, hs, ht, hp]), if_neg (by simp [hd, Option.isSome_iff_ne_none.1 hi])]

end

end

/-! ## The calendar (R38, R39) -/

section
variable {w : Nat} {win : Window} (hw : win = mapGet {} s.time.windows w) (hs : s.time.isSet = true)
include hw hs

theorem State.calendarStart_due {g : Nat} (h : win.startDue g = true) :
    s.calendarStart w (stampOf g 0) = if win.hold then
        (s.updTime fun t => { t with windows := mapSet t.windows w { win with started := win.lastEdge g + 1 } }).calendarHold w (stampOf g 0)
      else s.updTime fun t => { t with windows := mapSet t.windows w { win with started := win.lastEdge g + 1 } } := by
  simp only [State.calendarStart, ← hw, grainOf_stampOf_zero]
  exact if_pos ⟨hs, h⟩

theorem State.calendarEnd_due {g : Nat} (h : win.endDue g = true) :
    s.calendarEnd w (stampOf g 0) =
      s.updTime fun t => { t with windows := mapSet t.windows w { win with ended := win.lastEnd g + 1, endOwed := false } } := by
  simp only [State.calendarEnd, ← hw, grainOf_stampOf_zero]
  exact if_pos ⟨hs, h⟩

end

/-! ## Idle timers (R123) -/

section
variable {p : Nat} (hm : s.mode.running = true) (ho : s.outstanding = false) (he : s.host.exiting = none) (hp : s.host.power < p)
  (hl : p ≤ s.powerLimit) (hi : s.idleLong p = true)
include hm ho he hp hl hi

/-- The device goes into the state of its idle timer: PS1 keeps all as it is, PS2 and deeper give credit, PS3 programs what is open. -/
theorem State.idleApply_taken (st : Stamp) : s.idleApply p st =
    let t := (if p = 3 then s.programAll else s).updHost fun h => { h with power := p }
    let t := if p = 3 then t.raise 103 0 st 0x305 (eventData [(1, s.host.power), (1, p)]) else t
    if 2 ≤ p then t.creditAll else t := by
  simp only [State.idleApply]
  rw [if_pos (by simp [hm, ho, he, hp, hl, hi])]

theorem State.idleApply_one (h : p = 1) (st : Stamp) : s.idleApply p st = s.updHost fun h => { h with power := 1 } := by
  rw [State.idleApply_taken hm ho he hp hl hi]
  simp [h]

theorem State.idleApply_two (h : p = 2) (st : Stamp) : s.idleApply p st = (s.updHost fun h => { h with power := 2 }).creditAll := by
  rw [State.idleApply_taken hm ho he hp hl hi]
  simp [h]

theorem State.idleApply_three (h : p = 3) (st : Stamp) : s.idleApply p st =
    ((s.programAll.updHost fun h => { h with power := 3 }).raise 103 0 st 0x305 (eventData [(1, s.host.power), (1, 3)])).creditAll := by
  rw [State.idleApply_taken hm ho he hp hl hi]
  simp [h]

end

theorem State.trialApply_due (h : s.trialDue = true) : s.trialApply =
    ((s.writeUp fun u => { u with state := .revertRequested }).updUpdate fun u => { u with expired := true, revert := true }).beginQuiesce :=
  if_pos h

/-! ## Rule operations and lock tokens (R205, R371) -/

theorem State.ruleStart_eq {op : Nat} (h : op ≠ 0) : s.ruleStart op =
    State.arrive { s with glen := { s.glen with busy := true, port := { s.glen.port with op := BitVec.ofNat 2 op } } } (.ruleOp op) := if_neg h

theorem State.ruleCommand_free {op : Nat} (h0 : op ≠ 0) (hb : s.glen.busy = false) : s.ruleCommand op =
    State.arrive { s with glen := { s.glen with busy := true, port := { s.glen.port with op := BitVec.ofNat 2 op } } } (.ruleOp op) := by
  rw [State.ruleCommand, if_neg (by simp [hb]), State.ruleStart_eq h0]

@[simp] theorem State.metaWrite_glen (s : State) (n : Nat) : (s.metaWrite n).glen = s.glen := by
  simp only [State.metaWrite]; split <;> rfl

@[simp] theorem State.ruleEvent_glen (s : State) (op id code : Nat) (st : Stamp) : (s.ruleEvent op id code st true).glen = s.glen := by
  rw [State.ruleEvent, if_pos rfl, State.raise_glen]

/-- A rule operation at its stamp records it, and clears BUSY. -/
theorem State.ruleApply_glen (op : Nat) (st : Stamp) :
    (s.ruleApply op st).glen.busy = false ∧ (s.ruleApply op st).glen.ruleStamp = st ∧ (s.ruleApply op st).glen.busyWrite = false := by
  simp only [State.ruleApply, State.ruleEvent_glen]
  split
  · exact ⟨rfl, rfl, rfl⟩
  · rw [State.metaWrite_glen]
    split
    · simp only [State.updGlen_glen, Glen.setTable]
      split <;> exact ⟨rfl, rfl, rfl⟩
    · split <;> exact ⟨rfl, rfl, rfl⟩

theorem State.lockCheck_congr {u : State} (hn : u.update.nonce = s.update.nonce) (hs : u.spi = s.spi) (b : Bytes) :
    u.lockCheck b = s.lockCheck b := by simp only [State.lockCheck, hn, hs]

theorem State.lockToken_congr {u : State} (h : u.update.token = s.update.token) : u.lockToken = s.lockToken := by
  simp only [State.lockToken, h]

/-- A lock token at its stamp draws the next nonce, and writes the lock where it passes. -/
theorem State.lockApply_checked {t : State} {st code : Nat} (ht : t = s.lockApply st) (hcode : code = s.lockCheck s.lockToken)
    (hw : s.update.busyWrite = false) :
    t.update.lockBusy = false ∧ t.update.lockCode = code ∧ t.update.lockError = (code != 0) ∧ t.update.nonce = Config.drbg64 s.free ∧
      (code ≠ 0 → t.spi = s.spi) ∧ (code = 0 → t.spi = s.spi.lockWrite (field s.lockToken 4 1 = 1)) := by
  simp only [State.lockApply, ← hcode] at ht
  have hfree (g : Spi → Spi) : (if code = 0 then s.updSpi g else s).free = s.free := by split <;> rfl
  have hupd (g : Spi → Spi) : (if code = 0 then s.updSpi g else s).update = s.update := by split <;> rfl
  have hspi (g : Spi → Spi) : (if code = 0 then s.updSpi g else s).spi = if code = 0 then g s.spi else s.spi := by split <;> rfl
  specialize hfree fun p => p.lockWrite (field s.lockToken 4 1 = 1)
  specialize hupd fun p => p.lockWrite (field s.lockToken 4 1 = 1)
  specialize hspi fun p => p.lockWrite (field s.lockToken 4 1 = 1)
  generalize (if code = 0 then s.updSpi fun p => p.lockWrite (field s.lockToken 4 1 = 1) else s) = u at ht hfree hupd hspi
  have hbusy : ¬ u.update.busyWrite = true := by rw [hupd, hw]; exact Bool.false_ne_true
  subst ht
  rw [State.raise_update, State.raise_spi]
  exact ⟨rfl, if_neg hbusy, rfl, congrArg Config.drbg64 hfree, fun h => hspi.trans (if_neg h), fun h => hspi.trans (if_pos h)⟩

theorem State.lockSubmit_free (hm : s.mode.running = true) (hb : s.update.lockBusy = false) :
    s.lockSubmit = State.arrive { s with update := { s.update with lockBusy := true } } .lockSubmit := by
  rw [State.lockSubmit, if_neg (by simp [hm]), if_neg (by simp [hb])]
  rfl

end

end Sys2Proof.Machine

namespace Sys2Proof

open Machine

/-- Settles O37: each row's event is alone in its grain (`executes_of_arrive`), and leaves what the lemma of its event spells. -/
theorem happeningsActAtTheirStamps : Obligations.HappeningsActAtTheirStamps := by
  intro s x st hc hq hg hst hx
  subst hst hx
  have hp := (State.clocked_iff.1 hc).1
  refine ⟨fun n h => ?keepalive, fun n h => ?counter, fun fn h hw => ?reset, fun hm => ?cores⟩
  case keepalive => exact executes_of_arrive hc hq hg (by simp [hc, h]) (exec_keepaliveExpiry n true s) rfl
  case counter => exact executes_of_arrive hc hq hg (by simp [hc, h]) (exec_frameCounterExhausted n true s) rfl
  case reset =>
    exact ⟨_, executes_of_arrive hc hq hg (by simp [hc, State.fnPresent, h]) (exec_functionLevelReset fn true s) rfl,
      State.flrApply_of_no_work (s := atSlotZero s) hw fn _⟩
  case cores =>
    have hr := State.cored_of_clocked hc hm
    refine ⟨fun k lines y hdue hk hy => ?checkpoint, fun w win hwin hset => ⟨fun hd hh => ?starts, fun hd hh => ?startsHold, fun hd => ?ends⟩,
      fun p h1 ho he hpow hl hi => ?idle, fun h => ?trial, fun op row t hrow hb ht => ?rule, fun t code hb hw hcode ht => ?lock⟩
    case checkpoint =>
      subst hk hy
      have run {t : State} (ht : (atSlotZero s).checkpointApply lines = t) : Executes (.checkpointTimer lines true) s t :=
        executes_of_arrive hc hq hg (by simp [hr, State.ckptDue_iff.2 hdue]) (exec_checkpointTimer lines true s) ht
      have hpins : (atSlotZero s).pins.pwrFail = false := (by simpa [State.powered] using hp : s.pins.pwrFail = false)
      exact ⟨fun h => run (State.checkpointApply_skipped (s := atSlotZero s) lines h), fun hh hs ht =>
        ⟨fun h => run (State.checkpointApply_dirty (s := atSlotZero s) lines hh hs ht hpins h),
          fun hd hi => run (State.checkpointApply_clean (s := atSlotZero s) lines hh hs ht hpins hd hi)⟩⟩
    case starts =>
      refine executes_of_arrive hc hq hg (by simp [hr, State.startDue, hset, ← hwin, hd]) (exec_calendarStartEdge w true s)
        ((State.calendarStart_due (s := atSlotZero s) hwin hset hd).trans (if_neg (by simp [hh])))
    case startsHold =>
      refine executes_of_arrive hc hq hg (by simp [hr, State.startDue, hset, ← hwin, hd]) (exec_calendarStartEdge w true s)
        ((State.calendarStart_due (s := atSlotZero s) hwin hset hd).trans (if_pos hh))
    case ends =>
      exact executes_of_arrive hc hq hg (by simp [hr, State.endDue, hset, ← hwin, hd]) (exec_calendarEndEdge w true s)
        (State.calendarEnd_due (s := atSlotZero s) hwin hset hd)
    case idle =>
      have run {t : State} {n : Nat} (h : p = n) (hn : n ≤ 3) (ht : (atSlotZero s).idleApply p (stampOf s.grain 0) = t) :
          Executes (.idleTimerExpiry n true) s t := by
        subst h
        exact executes_of_arrive hc hq hg (by simp [hr, h1, hn]) (exec_idleTimerExpiry p true s) ht
      exact ⟨fun h => run h (by norm_num) (State.idleApply_one (s := atSlotZero s) hm ho he hpow hl hi h _),
        fun h => run h (by norm_num) (State.idleApply_two (s := atSlotZero s) hm ho he hpow hl hi h _),
        fun h => run h (by norm_num) (State.idleApply_three (s := atSlotZero s) hm ho he hpow hl hi h _)⟩
    case trial => exact executes_of_arrive hc hq hg (by simp [hr, h]) (exec_trialWindowExpiry true s) (State.trialApply_due (s := atSlotZero s) h)
    case rule =>
      have run (h0 : op ≠ 0) (hi : exec (row true) s = s.stamped s.cored true fun s => s.ruleCommand op) : Executes (row true) s t :=
        executes_of_stamped hc hq hg hr hi (State.ruleCommand_free h0 hb) rfl rfl rfl ht.symm
      refine ⟨?_, ht ▸ State.ruleApply_glen _ _⟩
      simp only [List.mem_cons, List.not_mem_nil, or_false, Prod.mk.injEq] at hrow
      obtain ⟨rfl, rfl⟩ | ⟨rfl, rfl⟩ | ⟨rfl, rfl⟩ := hrow
      · exact run (by norm_num) (exec_ruleAdd true s)
      · exact run (by norm_num) (exec_ruleRemove true s)
      · exact run (by norm_num) (exec_ruleSetResult true s)
    case lock =>
      generalize hu : ({ atSlotZero s with update := { (atSlotZero s).update with lockBusy := true } } : State) = u at ht
      have hupd : u.update = { s.update with lockBusy := true } := by rw [← hu]; rfl
      have hspi : u.spi = s.spi := by rw [← hu]; rfl
      have hfree : u.free = s.free := by rw [← hu]; rfl
      have htoken : u.lockToken = s.lockToken := State.lockToken_congr (by rw [hupd])
      have hcheck : u.lockCheck s.lockToken = s.lockCheck s.lockToken := State.lockCheck_congr (by rw [hupd]) hspi _
      have hrun : Executes (.lockSubmit true) s t :=
        executes_of_stamped hc hq hg hr (exec_lockSubmit true s) (State.lockSubmit_free hm hb) rfl rfl rfl (by rw [ht, ← hu]; rfl)
      have hlock := State.lockApply_checked (code := code) ht (by rw [hcode, htoken, hcheck]) (by rw [hupd, hw])
      rw [hspi, hfree, htoken] at hlock
      exact ⟨hrun, hlock⟩

end Sys2Proof
end

section
/-! The time's quality and its reference (R18, R26): what each change leaves of the time, and of the rest of the state. -/

namespace Sys2Proof.Machine

section
variable {s t : State}

/-! ## Time quality -/

/-- `t` is `s` but for a time quality of `q` and what goes with it: "LOCKED since boot" and its grain, the relocked flag, which may go, the
TIME_SEAL, the events and the recorder; every raise of `s` stands in it. -/
def Requalified (s t : State) (q : Quality) : Prop :=
  ∃ locked kept grain told e x, t = { s with
    time := { s.time with quality := q, lockedBoot := locked, relocked := s.time.relocked && kept, lockGrain := grain, sealed := told }
    events := e, terrace := x } ∧ s.events.raises ⊆ e.raises

theorem Requalified.refl (s : State) : Requalified s s s.time.quality :=
  ⟨s.time.lockedBoot, true, s.time.lockGrain, s.time.sealed, s.events, s.terrace, by rw [Bool.and_true], fun _ h => h⟩

theorem Requalified.reported {u : State} {q : Quality} (h : Requalified s t q) (hr : Reported t u) : Requalified s u q := by
  obtain ⟨l, k, g, d, e, x, rfl, hs⟩ := h
  obtain ⟨⟨e', x', rfl⟩, hs'⟩ := hr
  exact ⟨l, k, g, d, e', x', rfl, fun _ hm => hs' (hs hm)⟩

theorem State.raiseDevice_running (hm : s.mode.running = true) (source type : Nat) (st : Stamp) (data : BitVec 128) :
    s.raiseDevice source type st data = s.raise source 0 st type data := by
  unfold State.raiseDevice
  split
  · next h => rw [h] at hm; cases hm
  · next h => rw [h] at hm; cases hm
  · rfl

theorem State.timeSeal_requalified {q : Quality} (h : Requalified s t q) (st : Stamp) : Requalified s (t.timeSeal st) q := by
  simp only [State.timeSeal]
  split
  · exact h
  · refine Requalified.reported ?_ (State.record_reported ..)
    obtain ⟨l, k, g, d, e, x, rfl, hs⟩ := h
    exact ⟨l, k, g, true, e, x, rfl, hs⟩

theorem State.setQuality_same {q : Quality} (h : s.time.quality = q) (st : Stamp) : s.setQuality q st = s := if_pos h

/-- R26: what a change of quality leaves while the cores run. -/
theorem State.setQuality_requalified (hm : s.mode.running = true) (q : Quality) (st : Stamp) : Requalified s (s.setQuality q st) q := by
  by_cases hq : s.time.quality = q
  · rw [State.setQuality_same hq, ← hq]
    exact .refl s
  · simp only [State.setQuality]
    rw [if_neg hq, State.raiseDevice_running (s := s.updTime _) hm]
    have hraised : ∀ u, Reported (s.updTime fun t => { t with
        quality := q, lockedBoot := t.lockedBoot || q = .locked, relocked := t.relocked && q = .lost
        lockGrain := if t.lockedBoot ∨ q ≠ .locked then t.lockGrain else s.grain }) u → Requalified s u q := fun u hu =>
      Requalified.reported ⟨_, _, _, s.time.sealed, s.events, s.terrace, rfl, fun _ h => h⟩ hu
    split
    · refine State.timeSeal_requalified (hraised _ ?_) _
      split
      · exact (State.raise_reported ..).trans (State.raise_reported ..)
      · exact State.raise_reported ..
    · exact hraised _ (State.raise_reported ..)

/-- R26: a change to another quality than LOCKED raises source 16, in every mode. -/
theorem State.setQuality_other {q : Quality} (hne : s.time.quality ≠ q) (hq : q ≠ .locked) (st : Stamp) :
    s.setQuality q st = (s.updTime fun t => { t with quality := q, relocked := t.relocked && q = .lost }).raiseDevice 16 0x100 st
      (s.qualityData s.time.quality q) := by
  have htime : (s.updTime fun t => { t with
      quality := q, lockedBoot := t.lockedBoot || q = .locked, relocked := t.relocked && q = .lost
      lockGrain := if t.lockedBoot ∨ q ≠ .locked then t.lockGrain else s.grain }) =
      s.updTime fun t => { t with quality := q, relocked := t.relocked && q = .lost } := by
    simp [State.updTime, hq]
  simp only [State.setQuality]
  rw [if_neg hne, if_neg hq, htime]
  rfl

theorem Requalified.quality {q : Quality} (h : Requalified s t q) : t.time.quality = q := by
  obtain ⟨_, _, _, _, _, _, rfl, _⟩ := h
  rfl

/-! ## What an update of the reference leaves alone -/

/-- A time behind another with the same masters, source and counter: only the quality, the samples, of which none is new, and what the
servo keeps for them may have changed. -/
structure Time.SameReference (t u : Time) : Prop where
  main     : u.mainMaster = t.mainMaster
  back     : u.backMaster = t.backMaster
  inUse    : u.inUse = t.inUse
  masterId : u.masterId = t.masterId
  absent   : u.absent = t.absent
  counter  : u.counter = t.counter
  samples  : u.samples.length ≤ t.samples.length

theorem Time.SameReference.refl (t : Time) : t.SameReference t := ⟨rfl, rfl, rfl, rfl, rfl, rfl, le_rfl⟩

theorem Time.SameReference.trans {t u v : Time} (h : t.SameReference u) (h' : u.SameReference v) : t.SameReference v :=
  ⟨h'.main.trans h.main, h'.back.trans h.back, h'.inUse.trans h.inUse, h'.masterId.trans h.masterId, h'.absent.trans h.absent,
    h'.counter.trans h.counter, h'.samples.trans h.samples⟩

theorem Requalified.sameReference {q : Quality} (h : Requalified s t q) : s.time.SameReference t.time := by
  obtain ⟨_, _, _, _, _, _, rfl, _⟩ := h
  exact ⟨rfl, rfl, rfl, rfl, rfl, rfl, le_rfl⟩

/-! ## The reference is lost, or becomes valid (R26) -/

/-- The time when the reference is lost, with the uncertainty that is kept. -/
def Time.unreferenced (t : Time) (unc now : Nat) : Time :=
  { t with uncBase := unc, uncAt := now, halfRaised := false, inBound := 0, outBound := 0, samples := [], stepDue := none
           increment := Config.nominalIncrement }

theorem State.refLost_locked (h : s.time.quality = .locked) (st unc : Nat) :
    s.refLost st unc = (s.updTime (·.unreferenced 250 s.nowNs)).setQuality .holdover st := by
  simp only [State.refLost, h]
  rfl

theorem State.refLost_sameReference (hm : s.mode.running = true) (st unc : Nat) : s.time.SameReference (s.refLost st unc).time := by
  have hkeep (u : Nat) : s.time.SameReference (s.updTime (·.unreferenced u s.nowNs)).time := ⟨rfl, rfl, rfl, rfl, rfl, rfl, Nat.zero_le _⟩
  have hquality (u : Nat) : s.time.SameReference ((s.updTime (·.unreferenced u s.nowNs)).setQuality .holdover st).time :=
    (hkeep u).trans (State.setQuality_requalified (s := s.updTime _) hm _ st).sameReference
  unfold State.refLost
  split
  · exact hquality unc
  · exact hquality 250
  · exact (hkeep unc).trans ⟨rfl, rfl, rfl, rfl, rfl, rfl, le_rfl⟩
  · exact hkeep unc

theorem State.refValidNow_begins (h : s.time.quality = .unlocked ∨ s.time.quality = .holdover) (st : Nat) :
    s.refValidNow st = (s.updTime fun t => { t with inBound := 0, outBound := 0, samples := [] }).setQuality .acquiring st := by
  rcases h with h | h <;> simp only [State.refValidNow, State.updTime_time, h]

theorem State.refValidNow_other (h : s.time.quality ≠ .unlocked) (h' : s.time.quality ≠ .holdover) (st : Nat) :
    s.refValidNow st = s.updTime fun t => { t with inBound := 0, outBound := 0, samples := [] } := by
  simp only [State.refValidNow, State.updTime_time]

theorem State.refValidNow_sameReference (hm : s.mode.running = true) (st : Nat) : s.time.SameReference (s.refValidNow st).time := by
  have hkeep : s.time.SameReference (s.updTime fun t => { t with inBound := 0, outBound := 0, samples := [] }).time :=
    ⟨rfl, rfl, rfl, rfl, rfl, rfl, Nat.zero_le _⟩
  by_cases h : s.time.quality = .unlocked ∨ s.time.quality = .holdover
  · rw [State.refValidNow_begins h]
    exact hkeep.trans (State.setQuality_requalified (s := s.updTime _) hm _ st).sameReference
  · rw [State.refValidNow_other (fun h' => h (.inl h')) fun h' => h (.inr h')]
    exact hkeep

section
variable {st : Nat} {f : Time → Time}

theorem State.refChange_kept (h : (f s.time).refValid = s.time.refValid) : s.refChange st f = s.updTime f := by
  simp only [State.refChange, State.updTime_time, h]
  cases s.time.refValid <;> rfl

theorem State.refChange_lost (h : s.time.refValid = true) (h' : (f s.time).refValid = false) :
    s.refChange st f = (s.updTime f).refLost st s.time.uncertainty := by
  simp only [State.refChange, State.updTime_time, h, h']

theorem State.refChange_valid (h : s.time.refValid = false) (h' : (f s.time).refValid = true) :
    s.refChange st f = (s.updTime f).refValidNow st := by
  simp only [State.refChange, State.updTime_time, h, h']

theorem State.refChange_sameReference (hm : s.mode.running = true) : (f s.time).SameReference (s.refChange st f).time := by
  cases h : s.time.refValid <;> cases h' : (f s.time).refValid
  · rw [State.refChange_kept (h'.trans h.symm)]; exact .refl _
  · rw [State.refChange_valid h h']; exact State.refValidNow_sameReference (s := s.updTime f) hm st
  · rw [State.refChange_lost h h']; exact State.refLost_sameReference (s := s.updTime f) hm st _
  · rw [State.refChange_kept (h'.trans h.symm)]; exact .refl _

/-! ## A change of the masters (R18) -/

/-- The port in use follows the masters. -/
def Time.chosen (t : Time) : Time := { t with inUse := t.choosePort.1, masterId := t.choosePort.2 }

/-- Source 17 at a switch from one port to the other. -/
def State.switchRaise (s : State) (old : Nat) (st : Nat) : State :=
  s.raise 17 0 st 0x101 (eventData [(1, old), (1, s.time.inUse), (8, s.time.masterId.toNat)])

theorem State.mastersChange_eq : s.mastersChange st f =
    let u := s.refChange st fun t => (f t).chosen
    if s.time.inUse ≠ u.time.inUse ∧ s.time.inUse ≠ 255 ∧ u.time.inUse ≠ 255 then u.switchRaise s.time.inUse st else u := rfl

theorem State.mastersChange_reported : Reported (s.refChange st fun t => (f t).chosen) (s.mastersChange st f) := by
  rw [State.mastersChange_eq]
  dsimp only
  split
  · exact State.raise_reported ..
  · exact .refl _

theorem Reported.time {u v : State} (h : Reported u v) : v.time = u.time := by
  obtain ⟨⟨_, _, rfl⟩, _⟩ := h
  rfl

theorem State.mastersChange_time : (s.mastersChange st f).time = (s.refChange st fun t => (f t).chosen).time :=
  State.mastersChange_reported.time

theorem State.mastersChange_sameReference (hm : s.mode.running = true) : (f s.time).chosen.SameReference (s.mastersChange st f).time := by
  rw [State.mastersChange_time]
  exact State.refChange_sameReference (f := fun t => (f t).chosen) hm

/-- Source 17 at a switch of ports. -/
theorem State.mastersChange_switch (hm : s.mode.running = true) {port : Nat} {clock : BitVec 64} (hc : (f s.time).choosePort = (port, clock))
    (hne : s.time.inUse ≠ port) (ho : s.time.inUse ≠ 255) (hn : port ≠ 255) :
    ({ fn := 0, source := 17, stamp := st, data := eventData [(1, s.time.inUse), (1, port), (8, clock.toNat)] } : Raise) ∈
      (s.mastersChange st f).events.raises := by
  have hsame := State.refChange_sameReference (s := s) (st := st) (f := fun t => (f t).chosen) hm
  have hport : (s.refChange st fun t => (f t).chosen).time.inUse = port := hsame.inUse.trans (congrArg Prod.fst hc)
  have hclock : (s.refChange st fun t => (f t).chosen).time.masterId = clock := hsame.masterId.trans (congrArg Prod.snd hc)
  rw [State.mastersChange_eq]
  dsimp only
  rw [if_pos ⟨by rwa [hport], ho, by rwa [hport]⟩, State.switchRaise, hport, hclock]
  exact State.raise_mem ..

/-- R26: a LOCKED time that loses its last master goes into HOLDOVER, from an uncertainty of 250 ns, with the nominal increment. -/
theorem State.mastersChange_holdover (hm : s.mode.running = true) (hv : s.time.refValid = true) (hg : (f s.time).refValid = false)
    (hq : (f s.time).quality = .locked) (hcounter : (f s.time).counter = s.time.counter) :
    (s.mastersChange st f).time.quality = .holdover ∧ (s.mastersChange st f).time.uncBase = 250 ∧
      (s.mastersChange st f).time.uncAt = s.nowNs ∧ (s.mastersChange st f).time.increment = Config.nominalIncrement := by
  have hlost := State.refChange_lost (s := s) (st := st) (f := fun t => (f t).chosen) hv hg
  rw [State.refLost_locked (s := s.updTime fun t => (f t).chosen) hq] at hlost
  have hrq := State.setQuality_requalified (s := (s.updTime fun t => (f t).chosen).updTime
    (·.unreferenced 250 (s.updTime fun t => (f t).chosen).nowNs)) hm .holdover st
  rw [← hlost] at hrq
  rw [State.mastersChange_time]
  obtain ⟨_, _, _, _, _, _, hu, _⟩ := hrq
  rw [hu]
  exact ⟨rfl, rfl, congrArg (· / Config.nsUnit) hcounter, rfl⟩

/-- R26: the first master ends UNLOCKED or HOLDOVER. -/
theorem State.mastersChange_acquiring (hm : s.mode.running = true) (hv : s.time.refValid = false) (hg : (f s.time).refValid = true)
    (hq : (f s.time).quality = .unlocked ∨ (f s.time).quality = .holdover) : (s.mastersChange st f).time.quality = .acquiring := by
  have hvalid := State.refChange_valid (s := s) (st := st) (f := fun t => (f t).chosen) hv hg
  rw [State.refValidNow_begins (s := s.updTime fun t => (f t).chosen) hq] at hvalid
  have hrq := State.setQuality_requalified (s := (s.updTime fun t => (f t).chosen).updTime
    fun t => { t with inBound := 0, outBound := 0, samples := [] }) hm .acquiring st
  rw [State.mastersChange_time, hvalid, hrq.quality]

/-- A change of the masters that keeps a reference keeps the quality. -/
theorem State.mastersChange_kept (h : (f s.time).refValid = s.time.refValid) : (s.mastersChange st f).time = (f s.time).chosen := by
  rw [State.mastersChange_time, State.refChange_kept (by exact h)]
  rfl

end

end

end Sys2Proof.Machine
end

section
/-! A servo sample (R21, R26, R411), part by part: the estimate, the limit, the step or slew, and what the quality becomes. -/

namespace Sys2Proof.Machine

/-! ## The parts of a sample -/

/-- The sample is kept, and its estimate counted in bound or out of it. -/
def State.estimated (s : State) (raw o : Int) : State :=
  (s.updTime fun t => { t with
    samples := (raw :: t.samples).take 16, offset := o
    inBound := if decide (-250 ≤ o ∧ o ≤ 250) then t.inBound + 1 else 0
    outBound := if decide (-250 ≤ o ∧ o ≤ 250) then 0 else t.outBound + 1 }).draw

/-- The nominal increment, with no step due and no sample in or out of bound. -/
def Time.unslewed (t : Time) : Time := { t with increment := Config.nominalIncrement, stepDue := none, inBound := 0, outBound := 0 }

/-- The estimate stands at or below the holdover limit: the time is LOST, under source 19 where it was not known. -/
def State.belowLimit (s : State) (before o : Int) : State :=
  (if -(s.time.config.limit * 1000 : Nat) < before ∨ s.time.quality ≠ .lost then
    (s.updTime Time.unslewed).raise 19 0 0 0x103 (eventData [(4, ns32 o)])
  else s.updTime Time.unslewed).setQuality .lost 0

/-- An estimate above the limit calls for a step or a slew, but for a clock fault. -/
def State.steered (s : State) (o : Int) : State :=
  if s.time.clkFault then s
  else if decide (1000000 < o) || (!s.time.isSet && decide (0 < o)) then s.updTime fun t => { t with stepDue := some o }
  else s.updTime fun t => { t with stepDue := none, increment := servoIncrement s.free o }

/-- What the quality becomes after the sample. -/
def State.judged (s : State) (o : Int) (fault : Bool) : State :=
  match s.time.quality with
  | .locked => if 1000000 < o ∨ 4 ≤ s.time.outBound then s.setQuality .acquiring 0 else s
  | .acquiring => if 8 ≤ s.time.inBound ∧ s.time.isSet then s.setQuality .locked 0 else s
  | .lost =>
    if 8 ≤ s.time.inBound ∧ !s.time.relocked ∧ !fault then
      (s.updTime fun t => { t with relocked := true }).raise 21 0 0 0x100 (eventData [(4, ns32 o)])
    else s
  | _ => s

section
variable {s t : State} {o raw : Int}

theorem State.servoSample_eq
    (ho : o = servoEstimate s.free (s.time.config.limit * 1000 : Nat) ((raw :: s.time.samples).take 16) raw) : s.servoSample raw =
      if o ≤ -(s.time.config.limit * 1000 : Nat) then (s.estimated raw o).belowLimit s.time.offset o
      else ((s.estimated raw o).steered o).judged o s.time.clkFault := by
  subst ho
  rfl

/-! ## At or below the limit (R21, R28) -/

theorem Requalified.of_reported {u : State} {q : Quality} (hr : Reported s t) (h : Requalified t u q) : Requalified s u q := by
  obtain ⟨⟨e, x, rfl⟩, hs⟩ := hr
  obtain ⟨l, k, g, d, e', x', rfl, hs'⟩ := h
  exact ⟨l, k, g, d, e', x', rfl, fun _ hm => hs' (hs hm)⟩

/-- Source 19 is raised where the time was not LOST, or the estimate has just crossed the limit. -/
theorem State.belowLimit_crossed {before : Int} (hm : s.mode.running = true)
    (h : s.time.quality ≠ .lost ∨ -(s.time.config.limit * 1000 : Nat) < before) :
    Requalified (s.updTime Time.unslewed) (s.belowLimit before o) .lost ∧
      ({ fn := 0, source := 19, stamp := 0, data := eventData [(4, ns32 o)] } : Raise) ∈ (s.belowLimit before o).events.raises := by
  rw [State.belowLimit, if_pos h.symm]
  have hraise := (s.updTime Time.unslewed).raise_reported 19 0 0 0x103 (eventData [(4, ns32 o)])
  have hmem := (s.updTime Time.unslewed).raise_mem 19 0 0 0x103 (eventData [(4, ns32 o)])
  generalize (s.updTime Time.unslewed).raise 19 0 0 0x103 (eventData [(4, ns32 o)]) = u at hraise hmem
  have hmu : u.mode.running = true := by
    obtain ⟨⟨e, x, rfl⟩, _⟩ := hraise
    exact hm
  have hrq := State.setQuality_requalified hmu .lost 0
  refine ⟨.of_reported hraise hrq, ?_⟩
  obtain ⟨_, _, _, _, _, _, h, hsub⟩ := hrq
  rw [h]
  exact hsub hmem

/-- A LOST time whose estimate stays at or below the limit says nothing. -/
theorem State.belowLimit_still {before : Int} (h : s.time.quality = .lost) (hb : before ≤ -(s.time.config.limit * 1000 : Nat)) :
    s.belowLimit before o = s.updTime Time.unslewed := by
  have hcrossed : ¬(-(s.time.config.limit * 1000 : Nat) < before ∨ s.time.quality ≠ .lost) := fun hc => hc.elim (not_lt.2 hb) (· h)
  rw [State.belowLimit, if_neg hcrossed, State.setQuality_same (s := s.updTime Time.unslewed) h]

theorem State.belowLimit_requalified (hm : s.mode.running = true) (before o : Int) :
    Requalified (s.updTime Time.unslewed) (s.belowLimit before o) .lost := by
  by_cases h : s.time.quality ≠ .lost ∨ -(s.time.config.limit * 1000 : Nat) < before
  · exact (State.belowLimit_crossed hm h).1
  · obtain ⟨hq, hb⟩ := not_or.1 h
    rw [State.belowLimit_still (not_not.1 hq) (not_lt.1 hb), ← not_not.1 hq]
    exact .refl _

/-! ## Step or slew (R21) -/

theorem State.steered_fault (h : s.time.clkFault = true) : s.steered o = s := if_pos h

theorem State.steered_step (h : s.time.clkFault = false) (ho : 1000000 < o ∨ s.time.isSet = false ∧ 0 < o) :
    s.steered o = s.updTime fun t => { t with stepDue := some o } := by
  rw [State.steered, if_neg (by simp [h]), if_pos (by simpa using ho)]

theorem State.steered_slew (h : s.time.clkFault = false) (ho : o ≤ 1000000) (hs : s.time.isSet = true ∨ o ≤ 0) :
    s.steered o = s.updTime fun t => { t with stepDue := none, increment := servoIncrement s.free o } := by
  rw [State.steered, if_neg (by simp [h]), if_neg]
  rcases hs with hs | hs
  · simp [hs, ho]
  · simp [ho, hs]

theorem State.steered_frame (s : State) (o : Int) :
    ∃ due inc, s.steered o = { s with time := { s.time with stepDue := due, increment := inc } } := by
  unfold State.steered
  split
  · exact ⟨_, _, rfl⟩
  · split <;> exact ⟨_, _, rfl⟩

/-- The increment of a slew stays within its bounds, and stands at them beyond 250 ns. -/
theorem servoIncrement_bounds (draw : Nat) (o : Int) :
    Config.minIncrement ≤ servoIncrement draw o ∧ servoIncrement draw o ≤ Config.maxIncrement ∧
      (250 < o → servoIncrement draw o = Config.maxIncrement) ∧ (o < -250 → servoIncrement draw o = Config.minIncrement) := by
  have hle : Config.minIncrement ≤ Config.maxIncrement := by decide
  unfold servoIncrement
  split
  · exact ⟨hle, le_rfl, fun _ => rfl, fun _ => by omega⟩
  · split
    · exact ⟨le_rfl, hle, fun _ => by omega, fun _ => rfl⟩
    · exact ⟨le_max_left .., max_le hle (min_le_left ..), fun _ => by omega, fun _ => by omega⟩

/-! ## The quality after a sample (R26) -/

theorem State.judged_frame (hm : s.mode.running = true) (o : Int) (fault : Bool) : ∃ q r l g d e x, s.judged o fault = { s with
    time := { s.time with quality := q, relocked := r, lockedBoot := l, lockGrain := g, sealed := d }, events := e, terrace := x } := by
  have hquality (q : Quality) : ∃ q' r l g d e x, s.setQuality q 0 = { s with
      time := { s.time with quality := q', relocked := r, lockedBoot := l, lockGrain := g, sealed := d }, events := e, terrace := x } := by
    obtain ⟨l, k, g, d, e, x, h, _⟩ := State.setQuality_requalified (s := s) hm q 0
    exact ⟨_, _, l, g, d, e, x, h⟩
  have hself : ∃ q r l g d e x, s = { s with
      time := { s.time with quality := q, relocked := r, lockedBoot := l, lockGrain := g, sealed := d }, events := e, terrace := x } :=
    ⟨_, _, _, _, _, _, _, rfl⟩
  unfold State.judged
  split
  · split
    · exact hquality _
    · exact hself
  · split
    · exact hquality _
    · exact hself
  · split
    · obtain ⟨e, x, h⟩ := (s.updTime fun t => { t with relocked := true }).raise_frame 21 0 0 0x100 (eventData [(4, ns32 o)])
      exact ⟨_, _, _, _, _, e, x, h⟩
    · exact hself
  · exact hself

theorem State.judged_locked (hm : s.mode.running = true) (h : s.time.quality = .locked) (fault : Bool) :
    (s.judged o fault).time.quality = if 1000000 < o ∨ 4 ≤ s.time.outBound then .acquiring else .locked := by
  simp only [State.judged, h]
  split
  · exact (State.setQuality_requalified hm _ 0).quality
  · exact h

theorem State.judged_acquiring (hm : s.mode.running = true) (h : s.time.quality = .acquiring) (fault : Bool) :
    (s.judged o fault).time.quality = if 8 ≤ s.time.inBound ∧ s.time.isSet = true then .locked else .acquiring := by
  simp only [State.judged, h]
  split
  · exact (State.setQuality_requalified hm _ 0).quality
  · exact h

theorem State.judged_other (h : s.time.quality ≠ .locked) (h' : s.time.quality ≠ .acquiring) (fault : Bool) :
    (s.judged o fault).time.quality = s.time.quality := by
  unfold State.judged
  split
  · next hq => exact absurd hq h
  · next hq => exact absurd hq h'
  · split
    · rw [State.raise_time]; rfl
    · rfl
  · rfl

/-- LOST is relocked by the eighth sample in bound, with source 21. -/
theorem State.judged_relocks (h : s.time.quality = .lost) (hr : s.time.relocked = false) (h8 : 8 ≤ s.time.inBound) :
    (s.judged o false).time.relocked = true ∧
      ({ fn := 0, source := 21, stamp := 0, data := eventData [(4, ns32 o)] } : Raise) ∈ (s.judged o false).events.raises := by
  simp only [State.judged, h]
  rw [if_pos (by simp [h8, hr])]
  exact ⟨by rw [State.raise_time]; rfl, State.raise_mem ..⟩

/-! ## A whole sample -/

section
variable (hm : s.mode.running = true)
  (ho : o = servoEstimate s.free (s.time.config.limit * 1000 : Nat) ((raw :: s.time.samples).take 16) raw)
include hm ho

theorem State.servoSample_below (hb : o ≤ -(s.time.config.limit * 1000 : Nat)) :
    Requalified ((s.estimated raw o).updTime Time.unslewed) (s.servoSample raw) .lost ∧
      (s.time.quality ≠ .lost ∨ -(s.time.config.limit * 1000 : Nat) < s.time.offset →
        ({ fn := 0, source := 19, stamp := 0, data := eventData [(4, ns32 o)] } : Raise) ∈ (s.servoSample raw).events.raises) ∧
      (s.time.quality = .lost → s.time.offset ≤ -(s.time.config.limit * 1000 : Nat) → (s.servoSample raw).events = s.events) := by
  rw [State.servoSample_eq ho, if_pos hb]
  exact ⟨State.belowLimit_requalified (s := s.estimated raw o) hm .., fun h => (State.belowLimit_crossed (s := s.estimated raw o) hm h).2,
    fun hq hl => by rw [State.belowLimit_still (s := s.estimated raw o) hq hl]; rfl⟩

theorem State.servoSample_within (hb : ¬ o ≤ -(s.time.config.limit * 1000 : Nat)) : ∃ due inc q r l g d e x,
    s.servoSample raw = { s.estimated raw o with
      time := { (s.estimated raw o).time with
        stepDue := due, increment := inc, quality := q, relocked := r, lockedBoot := l, lockGrain := g, sealed := d }
      events := e, terrace := x } ∧
    (s.time.clkFault = true → inc = s.time.increment ∧ due = s.time.stepDue) ∧
    (s.time.clkFault = false → 1000000 < o ∨ s.time.isSet = false ∧ 0 < o → due = some o ∧ inc = s.time.increment) ∧
    (s.time.clkFault = false → o ≤ 1000000 → s.time.isSet = true ∨ o ≤ 0 → due = none ∧ inc = servoIncrement (s.free + 1) o) ∧
    (s.time.quality = .locked → q = if 1000000 < o ∨ 4 ≤ (s.estimated raw o).time.outBound then .acquiring else .locked) ∧
    (s.time.quality = .acquiring → q = if 8 ≤ (s.estimated raw o).time.inBound ∧ s.time.isSet = true then .locked else .acquiring) ∧
    (s.time.quality ≠ .locked → s.time.quality ≠ .acquiring → q = s.time.quality) ∧
    (s.time.quality = .lost → s.time.relocked = false → s.time.clkFault = false → 8 ≤ (s.estimated raw o).time.inBound →
      r = true ∧ ({ fn := 0, source := 21, stamp := 0, data := eventData [(4, ns32 o)] } : Raise) ∈ e.raises) := by
  rw [State.servoSample_eq ho, if_neg hb]
  obtain ⟨due, inc, hst⟩ := (s.estimated raw o).steered_frame o
  have hfault : s.time.clkFault = true → inc = s.time.increment ∧ due = s.time.stepDue := fun h => by
    rw [State.steered_fault (s := s.estimated raw o) h] at hst
    exact ⟨(congrArg (·.time.increment) hst).symm, (congrArg (·.time.stepDue) hst).symm⟩
  have hstep : s.time.clkFault = false → 1000000 < o ∨ s.time.isSet = false ∧ 0 < o → due = some o ∧ inc = s.time.increment := fun h ho => by
    rw [State.steered_step (s := s.estimated raw o) h ho] at hst
    exact ⟨(congrArg (·.time.stepDue) hst).symm, (congrArg (·.time.increment) hst).symm⟩
  have hslew : s.time.clkFault = false → o ≤ 1000000 → s.time.isSet = true ∨ o ≤ 0 → due = none ∧ inc = servoIncrement (s.free + 1) o :=
    fun h ho hs => by
      rw [State.steered_slew (s := s.estimated raw o) h ho hs] at hst
      exact ⟨(congrArg (·.time.stepDue) hst).symm, (congrArg (·.time.increment) hst).symm⟩
  rw [hst]
  have hmu : State.mode { s.estimated raw o with time := { (s.estimated raw o).time with stepDue := due, increment := inc } } |>.running := hm
  have hlocked := State.judged_locked (o := o) hmu (fault := s.time.clkFault)
  have hacquiring := State.judged_acquiring (o := o) hmu (fault := s.time.clkFault)
  have hother := State.judged_other (o := o) (fault := s.time.clkFault)
    (s := { s.estimated raw o with time := { (s.estimated raw o).time with stepDue := due, increment := inc } })
  have hrelocks := State.judged_relocks (o := o)
    (s := { s.estimated raw o with time := { (s.estimated raw o).time with stepDue := due, increment := inc } })
  obtain ⟨q, r, l, g, d, e, x, hj⟩ := State.judged_frame hmu o s.time.clkFault
  rw [hj] at hlocked hacquiring hother
  refine ⟨due, inc, q, r, l, g, d, e, x, hj, hfault, hstep, hslew, hlocked, hacquiring, hother, fun hq hr hf h8 => ?_⟩
  have := hrelocks hq hr h8
  rw [hf] at hj
  rwa [hj] at this

end

/-! ## A Sync exchange (R17, R18) -/

theorem syncInRange_iff {e : SyncExchange} :
    syncInRange e = true ↔ -7 ≤ e.syncLog ∧ e.syncLog ≤ 0 ∧ -7 ≤ e.delayLog ∧ e.delayLog ≤ 0 := decide_eq_true_iff

/-- Whether Sync and Delay_Req of a clock are in the ranges, as the exchange shows. -/
def Time.present (t : Time) (e : SyncExchange) : Time := { t with absent := t.absent.filter fun x => x != (e.port, e.clock) }

/-- A master outside the supported intervals counts as absent, and is no master of its port. -/
def Time.gone (t : Time) (e : SyncExchange) : Time :=
  let keep (m : Option Master) : Option Master := m.filter fun m => m.ann.clock != e.clock
  let t := { t with absent := (e.port, e.clock) :: t.absent.filter fun x => x != (e.port, e.clock) }
  if e.port = t.config.timePort then { t with mainMaster := keep t.mainMaster } else { t with backMaster := keep t.backMaster }

variable {e : SyncExchange}

theorem State.sync_idle (h : s.ptpPort e.port = false) : s.sync e = s := if_pos (by simp [h])

theorem State.sync_inRange (h : s.ptpPort e.port = true) (hr : syncInRange e = true) : s.sync e =
    if s.time.inUse = e.port ∧ s.time.masterId = e.clock then (s.updTime (·.present e)).servoSample e.raw else s.updTime (·.present e) := by
  simp only [State.sync, h, hr]
  rfl

theorem State.sync_outOfRange (h : s.ptpPort e.port = true) (hr : syncInRange e = false) : s.sync e = s.mastersChange 0 (·.gone e) := by
  simp only [State.sync, h, hr]
  rfl

theorem acts_syncReceive (hc : s.cored = true) (h : s.sync e = t) : Acts (.syncReceive e) s t := by
  rw [Acts, exec_syncReceive, execSyncReceive, State.act_pos hc, h]

/-! ## Masters and validity (R18, R26) -/

theorem Time.choosePort_none {t : Time} (h : t.mainMaster = none) (h' : t.backMaster = none) : t.choosePort = (255, 0) := by
  simp [Time.choosePort, h, h']

theorem Time.refValid_ptp {t : Time} (h : t.config.source = 0) : t.refValid = (t.mainMaster.isSome || t.backMaster.isSome) := if_pos h

theorem State.source_of_ptpPort {p : Nat} (h : s.ptpPort p = true) : s.time.config.source = 0 := by
  simp only [State.ptpPort, Bool.and_eq_true, decide_eq_true_eq] at h
  exact h.1.1

/-- What the loss of a clock touches. -/
theorem Time.gone_frame (t : Time) (e : SyncExchange) : ∃ main back, t.gone e = { t with
    absent := (e.port, e.clock) :: t.absent.filter fun x => x != (e.port, e.clock), mainMaster := main, backMaster := back } := by
  unfold Time.gone
  dsimp only
  split
  · exact ⟨_, _, rfl⟩
  · exact ⟨_, _, rfl⟩

theorem Time.gone_timePort {t : Time} (h : e.port = t.config.timePort) : (t.gone e).mainMaster = t.mainMaster.filter (·.ann.clock != e.clock) ∧
    (t.gone e).backMaster = t.backMaster := by
  unfold Time.gone
  dsimp only
  rw [if_pos h]
  exact ⟨rfl, rfl⟩

end

end Sys2Proof.Machine
end

section
namespace Sys2Proof

open Machine

/-- Settles O57: an exchange is a change of the masters, a sample or nothing (`State.sync_outOfRange`, `State.sync_inRange`), and a sample's
parts leave what their lemmas spell. -/
theorem servoSamples : Obligations.ServoSamples := by
  intro s e o hc
  have hm := (State.cored_iff.1 hc).2
  refine ⟨syncInRange_iff, fun hp => acts_syncReceive hc (State.sync_idle hp), fun hp hr => ?outOfRange,
    fun u hp hr hu => ⟨fun h => ?otherMaster, fun hport hclock ho => ?sample⟩⟩
  case outOfRange =>
    refine ⟨_, acts_syncReceive hc (State.sync_outOfRange hp hr), ?_⟩
    obtain ⟨main, back, hgone⟩ := s.time.gone_frame e
    have hsame := State.mastersChange_sameReference (s := s) (st := 0) (f := (·.gone e)) hm
    have hsource := State.source_of_ptpPort hp
    refine ⟨?_, ?_, ?_, fun m hport hmain hclock hback => ?_, fun m hport hmain hclock => ?_⟩
    · rw [hsame.absent, show (s.time.gone e).chosen.absent = (s.time.gone e).absent from rfl, hgone]
      exact List.mem_cons_self ..
    · refine hsame.samples.trans (le_of_eq ?_)
      rw [show (s.time.gone e).chosen.samples = (s.time.gone e).samples from rfl, hgone]
    · rw [hsame.counter, show (s.time.gone e).chosen.counter = (s.time.gone e).counter from rfl, hgone]
    · obtain ⟨hgm, hgb⟩ := Time.gone_timePort hport
      have hnone : (s.time.gone e).mainMaster = none := by simp [hgm, hmain, hclock]
      have hchosen := Time.choosePort_none hnone (hgb.trans hback)
      refine ⟨hsame.main.trans hnone, hsame.inUse.trans (congrArg Prod.fst hchosen), fun hq => ?_⟩
      refine (State.mastersChange_holdover hm ?_ ?_ ?_ ?_).1
      · rw [Time.refValid_ptp hsource, hmain]; rfl
      · rw [Time.refValid_ptp (by rw [hgone]; exact hsource), hnone, hgb, hback]; rfl
      · rw [hgone]; exact hq
      · rw [hgone]
    · refine hsame.main.trans ?_
      rw [show (s.time.gone e).chosen.mainMaster = (s.time.gone e).mainMaster from rfl, (Time.gone_timePort hport).1, hmain]
      simp [hclock]
  case otherMaster =>
    subst hu
    refine acts_syncReceive hc ((State.sync_inRange hp hr).trans (if_neg ?_))
    tauto
  case sample =>
    have hsample : s.sync e = u.servoSample e.raw := by rw [State.sync_inRange hp hr, if_pos ⟨hport, hclock⟩, hu]; rfl
    have hmu : u.mode.running = true := by rw [hu]; exact hm
    have hou : o = servoEstimate u.free (u.time.config.limit * 1000 : Nat) ((e.raw :: u.time.samples).take 16) e.raw := by rw [ho, hu]; rfl
    refine ⟨_, acts_syncReceive hc hsample, ?_⟩
    by_cases hb : o ≤ -(u.time.config.limit * 1000 : Nat)
    case pos =>
      obtain ⟨hrq, hcrossed, hstill⟩ := State.servoSample_below hmu hou hb
      generalize u.servoSample e.raw = t at hrq hcrossed hstill ⊢
      obtain ⟨l, k, g, d, e', x', rfl, _⟩ := hrq
      subst hu
      exact ⟨rfl, rfl, rfl, rfl, rfl, rfl, rfl, rfl, fun _ => ⟨rfl, rfl, rfl, rfl, hcrossed, hstill⟩, fun h => absurd hb (not_le.2 h)⟩
    case neg =>
      obtain ⟨due, inc, q, r, l, g, d, e', x', ht, hfault, hstep, hslew, hlocked, hacquiring, hother, hrelocks⟩ :=
        State.servoSample_within hmu hou hb
      rw [ht]
      subst hu
      refine ⟨rfl, rfl, rfl, rfl, rfl, rfl, rfl, rfl, fun h => absurd h hb, fun _ => ⟨fun hlo hhi => ?_, fun h => ?_, hfault, hstep,
        fun hf ho hs => ?_, hlocked, hacquiring, hother, hrelocks⟩⟩
      · exact ⟨if_pos (decide_eq_true ⟨hlo, hhi⟩), if_pos (decide_eq_true ⟨hlo, hhi⟩)⟩
      · have hout : ¬ decide (-250 ≤ o ∧ o ≤ 250) = true := by rw [decide_eq_true_iff]; omega
        exact ⟨if_neg hout, if_neg hout⟩
      · obtain ⟨hdue, hinc⟩ := hslew hf ho hs
        obtain ⟨hmin, hmax, hhigh, hlow⟩ := servoIncrement_bounds (s.free + 1) o
        rw [hdue, hinc]
        exact ⟨rfl, rfl, hmin, hmax, hhigh, hlow⟩

end Sys2Proof
end

section
/-! Steps, masters, PPS, the time base and holdover (R17 to R22, R26, R27, R181). -/

namespace Sys2Proof.Machine

section
variable {s t : State}

/-! ## A forward step (R21, R22) -/

theorem exec_timeStep_idle (h : s.time.stepDue = none ∨ s.cored = false) : exec .timeStep s = .next s := by
  rw [exec_timeStep, execTimeStep, if_pos]
  rcases h with h | h <;> simp [h]

section
variable {d : Int} (hc : s.cored = true) (hd : s.time.stepDue = some d)
include hc hd

theorem exec_timeStep_edge (hg : s.nextGrain < Config.maxGrain) : exec .timeStep s = .next (s.keepQueue s.grainEdge) := by
  rw [exec_timeStep, execTimeStep, if_neg (by simp [hc, hd]), if_neg (not_le.2 hg)]

theorem exec_timeStep_fault (hg : Config.maxGrain ≤ s.nextGrain) : exec .timeStep s = .fault .grainNumberExhausted := by
  rw [exec_timeStep, execTimeStep, if_neg (by simp [hc, hd]), if_pos hg]

end

@[simp] theorem State.runTo_mode (s : State) (g : Nat) : (s.runTo g).mode = s.mode := by rw [State.runTo, State.updTime_mode]

theorem State.passEdge_running (hm : s.mode.running = true) (g : Nat) : s.passEdge g = (s.runTo (g + 1)).applyStep g := by
  simp only [State.passEdge, State.runTo_mode, hm, if_true]

/-- The time after a forward step; the first one restores the calendar. -/
def Time.stepped (t : Time) (d : Int) : Time :=
  { t with counter := t.counter + d.toNat * Config.nsUnit, stepDue := none, isSet := true, offset := 0, samples := []
           ppsLast := t.ppsLast + d.toNat, inBound := 0, outBound := 0, increment := Config.nominalIncrement }

theorem State.applyStep_forward {d : Int} (h : s.time.stepDue = some d) (hd : 0 < d) (g : Nat) : s.applyStep g =
    ((s.updTime (·.stepped d)).updTime fun t => { t with
      skipped := satAdd max64 t.skipped ((s.updTime (·.stepped d)).grain - g - 1)
      windows := if !s.time.isSet then t.windows.map (fun e => (e.1, e.2.restore (s.updTime (·.stepped d)).grain)) else t.windows }).raise
      18 0 0 0x102 (eventData [(8, g), (8, (s.updTime (·.stepped d)).grain)]) := by
  simp only [State.applyStep, h]
  exact if_neg (not_le.2 hd)
theorem State.grain_of_counter (h : t.time.counter = s.time.counter) : t.grain = s.grain := congrArg (· / Config.grainUnit) h

/-- R21: a forward step sets the counter on, begins the servo anew, and reports the grains that it skips. -/
theorem State.applyStep_spec {d : Int} (h : s.time.stepDue = some d) (hd : 0 < d) (g : Nat) :
    (s.applyStep g).time.counter = s.time.counter + d.toNat * Config.nsUnit ∧ (s.applyStep g).time.isSet = true ∧
      (s.applyStep g).time.stepDue = none ∧ (s.applyStep g).time.offset = 0 ∧ (s.applyStep g).time.increment = Config.nominalIncrement ∧
      (s.applyStep g).time.skipped = satAdd max64 s.time.skipped ((s.applyStep g).grain - g - 1) ∧
      ({ fn := 0, source := 18, stamp := 0, data := eventData [(8, g), (8, (s.applyStep g).grain)] } : Raise) ∈ (s.applyStep g).events.raises := by
  have happly := State.applyStep_forward h hd g
  -- the stepped state stays a name, or a comparison of two states would compute its counter
  generalize hu : s.updTime (·.stepped d) = u at happly
  have hut : u.time = s.time.stepped d := by rw [← hu]; rfl
  have hgrain : (s.applyStep g).grain = u.grain := State.grain_of_counter (by rw [happly, State.raise_time, State.updTime_time])
  rw [hgrain, happly, State.raise_time, State.updTime_time, hut, Time.stepped]
  generalize u.grain - g - 1 = grains
  exact ⟨rfl, rfl, rfl, rfl, rfl, rfl, State.raise_mem ..⟩

/-! ## Announces (R17, R18) -/

theorem announceGood_iff {a : Announce} : announceGood a = true ↔ -3 ≤ a.logInterval ∧ a.logInterval ≤ 1 ∧ a.arb = false := by
  simp [announceGood, and_assoc]

/-- The masters after an Announce. -/
def Time.announced (t : Time) (a : Announce) (now : Nat) : Time :=
  let good := announceGood a && !t.absent.contains (a.port, a.clock)
  if a.port = t.config.timePort then { t with mainMaster := masterAfter t.mainMaster a good now }
  else { t with backMaster := masterAfter t.backMaster a good now }

theorem Time.announced_timePort {t : Time} {a : Announce} (h : a.port = t.config.timePort) (now : Nat) : t.announced a now =
    { t with mainMaster := masterAfter t.mainMaster a (announceGood a && !t.absent.contains (a.port, a.clock)) now } := if_pos h

theorem State.announce_idle {a : Announce} (h : s.ptpPort a.port = false ∨ a.domain ≠ s.time.config.domain) : s.announce a = s := by
  refine if_neg ?_
  rcases h with h | h <;> simp [h]

theorem State.announce_taken {a : Announce} (h : s.ptpPort a.port = true) (hd : a.domain = s.time.config.domain) :
    s.announce a = s.mastersChange 0 (·.announced a s.localUs) := by
  rw [State.announce, if_pos ⟨h, hd⟩]
  rfl

section
variable {a : Announce} {now : Nat}

theorem masterAfter_none (good : Bool) :
    masterAfter none a good now = if good then some { ann := a, since := now, last := now } else none := rfl

theorem masterAfter_same {b : Master} (h : b.ann.clock = a.clock) (good : Bool) :
    masterAfter (some b) a good now = if good then some { b with ann := a, count := b.count + 1, last := now } else none := if_pos h

theorem masterAfter_other {b : Master} (h : b.ann.clock ≠ a.clock) (good : Bool) : masterAfter (some b) a good now =
    if good = true ∧ a.rank < b.ann.rank then some { ann := a, since := now, last := now } else some b := if_neg h

end

/-! ## Masters lost and taken back (R18) -/

theorem Time.choosePort_main {t : Time} {m : Master} (h : t.mainMaster = some m) (hb : t.inUse ≠ t.config.backup ∨ t.backMaster = none) :
    t.choosePort = (t.config.timePort, m.ann.clock) := by
  rcases hb with hb | hb <;> simp [Time.choosePort, h, hb]

theorem Time.choosePort_back {t : Time} {b : Master} (h : t.mainMaster = none) (hb : t.backMaster = some b) :
    t.choosePort = (t.config.backup, b.ann.clock) := by
  simp [Time.choosePort, h, hb]

/-- The port's master is lost. -/
def Time.masterless (t : Time) (port : Nat) : Time :=
  { t with mainMaster := if port = t.config.timePort then none else t.mainMaster
           backMaster := if port = t.config.backup then none else t.backMaster }

theorem Time.masterless_timePort {t : Time} {p : Nat} (h : p = t.config.timePort) (hb : t.config.backup ≠ p) :
    t.masterless p = { t with mainMaster := none } := by
  simp [Time.masterless, h, Ne.symm (h ▸ hb)]

theorem State.announceLost_due {p : Nat} {m : Master} (hsrc : s.time.config.source = 0) (hm : s.masterOf p = some m)
    (h : m.last + 3 * announceUs m.ann ≤ s.localUs) : s.announceLost p = s.mastersChange 0 (·.masterless p) := by
  rw [State.announceLost, if_pos (by simp [hsrc, hm, h])]
  rfl

theorem State.announceLost_early {p : Nat} {m : Master} (hm : s.masterOf p = some m) (h : s.localUs < m.last + 3 * announceUs m.ann) :
    s.announceLost p = s := if_neg (by simp [hm, h])

theorem State.announceLost_none {p : Nat} (h : s.time.config.source ≠ 0 ∨ s.masterOf p = none) : s.announceLost p = s := by
  refine if_neg ?_
  rcases h with h | h <;> simp [h]

theorem State.masterOf_timePort {p : Nat} (h : p = s.time.config.timePort) : s.masterOf p = s.time.mainMaster := if_pos h

/-- Time returns to the time port. -/
def Time.returned (t : Time) : Time := { t with inUse := t.config.timePort }

theorem State.portReturn_due {m : Master} (hsrc : s.time.config.source = 0) (hu : s.time.inUse = s.time.config.backup)
    (hb : s.time.config.backup ≠ 255) (hm : s.time.mainMaster = some m) (h : m.since + 16 * announceUs m.ann ≤ s.localUs) :
    s.portReturn = s.mastersChange 0 Time.returned := by
  simp only [State.portReturn]
  rw [if_pos ⟨hsrc, hu, hb, by simp [hm, h]⟩]
  rfl

theorem State.portReturn_early {m : Master} (hm : s.time.mainMaster = some m) (h : s.localUs < m.since + 16 * announceUs m.ann) :
    s.portReturn = s := if_neg (by simp [hm, h])

theorem State.portReturn_none (h : s.time.config.source ≠ 0 ∨ s.time.inUse ≠ s.time.config.backup ∨ s.time.mainMaster = none) :
    s.portReturn = s := by
  refine if_neg ?_
  rcases h with h | h | h <;> simp [h]

/-! ## Delay messages (R17, R181) -/

theorem State.pdelay_on {p : Nat} (h : s.ptpPort p = true) (rx tx c : Nat) (req : BitVec 80) (q : BitVec 16) :
    s.pdelay p rx tx c req q = s.ptpSend p true
      (ptpBytes 3 s.time.config.domain (c + (tx - rx) * 65536) p q (zeros 10 ++ beBytes 10 req.toNat)) := if_pos h

theorem State.pdelay_off {p : Nat} (h : s.ptpPort p = false) (rx tx c : Nat) (req : BitVec 80) (q : BitVec 16) :
    s.pdelay p rx tx c req q = s := if_neg (by simp [h])

section
variable {p : Nat} {u : State} (hu : u = s.updPort p fun x => { x with ptpSeq := x.ptpSeq + 1 }) (hp : s.ptpPort p = true)
include hu hp

theorem State.delayReq_peer (hd : s.time.config.delay = 1) :
    s.delayReq p = u.ptpSend p true (ptpBytes 2 s.time.config.domain 0 p (s.port p).ptpSeq (zeros 20)) := by
  subst hu
  simp only [State.delayReq, hd, decide_true]
  exact if_pos ⟨hp, .inl trivial⟩

theorem State.delayReq_end (hd : s.time.config.delay ≠ 1) (hi : s.time.inUse = p) :
    s.delayReq p = u.ptpSend p false (ptpBytes 1 s.time.config.domain 0 p (s.port p).ptpSeq (zeros 10)) := by
  subst hu
  simp only [State.delayReq, decide_eq_false hd]
  exact if_pos ⟨hp, .inr hi⟩

end

theorem State.delayReq_idle {p : Nat} (h : s.ptpPort p = false ∨ s.time.config.delay ≠ 1 ∧ s.time.inUse ≠ p) : s.delayReq p = s := by
  refine if_neg ?_
  rcases h with h | ⟨h, h'⟩
  · simp [h]
  · simp [h, h']

/-! ## PPS (R19, R20) -/

theorem Time.refValid_pps {t : Time} (h : t.config.source = 1) : t.refValid = (t.todApplied && !t.ppsMissing) := if_neg (by simp [h])

/-- An edge of PPS_IN begins a second at a reading of the counter, and applies a SET_TOD that waits. -/
def Time.pulsed (t : Time) (second now : Nat) : Time :=
  { t with todPending := none, todApplied := t.todApplied || t.todPending.isSome, refSecond := second, ppsLast := now, ppsMissing := false }

theorem Time.pulsed_refValid {t : Time} (h : t.config.source = 1) (second now : Nat) :
    (t.pulsed second now).refValid = (t.todApplied || t.todPending.isSome) := by
  rw [Time.refValid_pps (t := t.pulsed second now) h]
  simp [Time.pulsed]

/-- The second that an edge begins, without a SET_TOD. -/
def Time.nextSecond (t : Time) (now : Nat) : Nat :=
  t.refSecond + (if t.ppsMissing then max 1 ((now - t.ppsLast + 500000000) / 1000000000) else 1)

section
variable {ns now : Nat} (hsrc : s.time.config.source = 1) (hnow : now = s.nowNs + ns % 1000)
include hsrc hnow

theorem State.ppsIn_eq {second : Nat} (h2 : second = s.time.todPending.getD (s.time.nextSecond now)) : s.ppsIn ns =
    if (s.refChange 0 (·.pulsed second now)).time.todApplied then
      (s.refChange 0 (·.pulsed second now)).servoSample ((second : Int) * 1000000000 - (now : Int))
    else s.refChange 0 (·.pulsed second now) := by
  subst hnow h2
  rw [State.ppsIn, if_neg (by simp [hsrc])]
  rfl

/-- A SET_TOD that applies begins the reference, where it was not valid, with no sample. -/
theorem State.ppsIn_setTod {sec : Nat} (h : s.time.todPending = some sec) (hq : s.time.quality = .lost) :
    s.ppsIn ns = ({ s with time := { s.time with
      todPending := none, todApplied := true, refSecond := sec, ppsLast := now, ppsMissing := false
      inBound := if s.time.refValid then s.time.inBound else 0, outBound := if s.time.refValid then s.time.outBound else 0
      samples := if s.time.refValid then s.time.samples else [] } } : State).servoSample ((sec : Int) * 1000000000 - (now : Int)) := by
  have happlied : (s.time.pulsed sec now).todApplied = true := by simp [Time.pulsed, h]
  have hvalid : (s.time.pulsed sec now).refValid = true := by rw [Time.pulsed_refValid hsrc]; simp [h]
  have hchange : s.refChange 0 (·.pulsed sec now) = { s with time := { s.time with
      todPending := none, todApplied := true, refSecond := sec, ppsLast := now, ppsMissing := false
      inBound := if s.time.refValid then s.time.inBound else 0, outBound := if s.time.refValid then s.time.outBound else 0
      samples := if s.time.refValid then s.time.samples else [] } } := by
    cases hv : s.time.refValid
    · rw [State.refChange_valid hv hvalid, State.refValidNow_other (s := s.updTime _) (by simp [Time.pulsed, hq]) (by simp [Time.pulsed, hq])]
      simp [State.updTime, Time.pulsed, h]
    · rw [State.refChange_kept (hvalid.trans hv.symm)]
      simp [State.updTime, Time.pulsed, h]
  rw [State.ppsIn_eq hsrc hnow (second := sec) (by rw [h]; rfl), hchange]
  exact if_pos rfl

/-- Before a SET_TOD an edge gives no sample. -/
theorem State.ppsIn_unset (h : s.time.todPending = none) (ha : s.time.todApplied = false) : s.ppsIn ns = { s with time := { s.time with
    refSecond := s.time.nextSecond now, ppsLast := now, ppsMissing := false } } := by
  have hp : s.time.pulsed (s.time.nextSecond now) now =
      { s.time with refSecond := s.time.nextSecond now, ppsLast := now, ppsMissing := false } := by simp [Time.pulsed, h, ha]
  have hvalid : (s.time.pulsed (s.time.nextSecond now) now).refValid = s.time.refValid := by
    rw [Time.pulsed_refValid hsrc, Time.refValid_pps hsrc, h, ha]; rfl
  rw [State.ppsIn_eq hsrc hnow (second := s.time.nextSecond now) (by rw [h]; rfl), State.refChange_kept hvalid, State.updTime_time, hp,
    if_neg (by simp [ha])]
  exact congrArg (fun t => ({ s with time := t } : State)) hp

/-- An edge of a reference in use gives a sample. -/
theorem State.ppsIn_sampled (h : s.time.todPending = none) (ha : s.time.todApplied = true) (hm : s.time.ppsMissing = false) :
    s.ppsIn ns = ({ s with time := { s.time with refSecond := s.time.refSecond + 1, ppsLast := now } } : State).servoSample
      (((s.time.refSecond + 1 : Nat) : Int) * 1000000000 - (now : Int)) := by
  have hn : s.time.nextSecond now = s.time.refSecond + 1 := by simp [Time.nextSecond, hm]
  have hp : s.time.pulsed (s.time.refSecond + 1) now = { s.time with refSecond := s.time.refSecond + 1, ppsLast := now } := by
    simp [Time.pulsed, h, ha, hm]
  have hvalid : (s.time.pulsed (s.time.refSecond + 1) now).refValid = s.time.refValid := by
    rw [Time.pulsed_refValid hsrc, Time.refValid_pps hsrc, h, ha, hm]; rfl
  rw [State.ppsIn_eq hsrc hnow (second := s.time.refSecond + 1) (by rw [h, hn]; rfl), State.refChange_kept hvalid, State.updTime_time, hp,
    if_pos (by exact ha)]
  exact congrArg (fun t => ({ s with time := t } : State).servoSample _) hp

end

theorem State.ppsIn_idle (h : s.time.config.source ≠ 1) (ns : Nat) : s.ppsIn ns = s := if_pos h

/-- R19: PPS_IN is missing, before a SET_TOD has applied. -/
theorem State.ppsLost_due (hsrc : s.time.config.source = 1) (h0 : s.time.ppsLast ≠ 0) (hm : s.time.ppsMissing = false)
    (h : s.time.ppsLast + 1001000000 ≤ s.nowNs) (ha : s.time.todApplied = false) : s.ppsLost =
      (s.raise 26 0 0 0x103 (eventData [(8, s.time.ppsLast / 1000)])).updTime fun t => { t with ppsMissing := true } := by
  simp only [State.ppsLost]
  rw [if_pos ⟨hsrc, h0, by simp [hm], h⟩, State.refChange_kept]
  rw [State.raise_time, Time.refValid_pps (t := { s.time with ppsMissing := true }) hsrc, Time.refValid_pps hsrc, ha]
  rfl

theorem State.ppsLost_idle (h : s.time.config.source ≠ 1 ∨ s.time.ppsLast = 0 ∨ s.time.ppsMissing = true ∨ s.nowNs < s.time.ppsLast + 1001000000) :
    s.ppsLost = s := by
  refine if_neg ?_
  rcases h with h | h | h | h <;> simp [h]

section
variable {sec : Nat} (hs : sec = s.nowNs / 1000000000 * 1000000000)
include hs

theorem State.ppsOut_rises (h : s.time.ppsOutAt < sec) :
    s.ppsOut = { s with time := { s.time with ppsOutAt := sec, ppsOut := decide (s.nowNs < sec + 1000000) } } := by
  subst hs
  exact if_pos h

theorem State.ppsOut_falls (h : sec ≤ s.time.ppsOutAt) (ho : s.time.ppsOut = true) (hf : s.time.ppsOutAt + 1000000 ≤ s.nowNs) :
    s.ppsOut = { s with time := { s.time with ppsOut := false } } := by
  subst hs
  simp only [State.ppsOut]
  rw [if_neg (not_lt.2 h), if_pos (by simp [ho, hf])]
  rfl

theorem State.ppsOut_still (h : sec ≤ s.time.ppsOutAt) (ho : s.time.ppsOut = false ∨ s.nowNs < s.time.ppsOutAt + 1000000) : s.ppsOut = s := by
  subst hs
  simp only [State.ppsOut]
  rw [if_neg (not_lt.2 h), if_neg]
  rcases ho with ho | ho <;> simp [ho]

end

/-! ## The time base and holdover (R20, R26, R27) -/

theorem State.raiseDevice_time (source type : Nat) (st : Stamp) (data : BitVec 128) : (s.raiseDevice source type st data).time = s.time := by
  obtain ⟨u, e, x, h⟩ := s.raiseDevice_frame source type st data
  rw [h]

theorem State.raiseDevice_stopped (hm : s.mode.running = false) (source type : Nat) (st : Stamp) (data : BitVec 128) :
    s.raiseDevice source type st data = s.later source type data := by
  unfold State.raiseDevice
  split
  · rfl
  · rfl
  · next h h' => cases hs : s.mode <;> simp_all [Mode.running]

/-- An event of the physical function takes no raise and no kept event away. -/
theorem State.raiseDevice_keeps (source type : Nat) (st : Stamp) (data : BitVec 128) :
    s.events.raises ⊆ (s.raiseDevice source type st data).events.raises ∧
      s.update.later ⊆ (s.raiseDevice source type st data).update.later := by
  cases hm : s.mode.running
  · rw [State.raiseDevice_stopped hm]
    exact ⟨fun _ h => h, fun _ h => List.mem_append_left _ h⟩
  · rw [State.raiseDevice_running hm, State.raise_update]
    exact ⟨(s.raise_reported source 0 st type data).2, fun _ h => h⟩

/-- LOST touches nothing of the time but the quality, in every mode. -/
theorem State.setQuality_lost (st : Stamp) : (s.setQuality .lost st).time = { s.time with quality := .lost } ∧
    s.events.raises ⊆ (s.setQuality .lost st).events.raises ∧ s.update.later ⊆ (s.setQuality .lost st).update.later := by
  by_cases hq : s.time.quality = .lost
  · rw [State.setQuality_same hq, ← hq]
    exact ⟨rfl, fun _ h => h, fun _ h => h⟩
  · rw [State.setQuality_other hq Quality.noConfusion]
    refine ⟨?_, State.raiseDevice_keeps (s := s.updTime _) ..⟩
    rw [State.raiseDevice_time]
    simp [State.updTime]

/-- The time when TIMEBASE_CLK fails. -/
def Time.faulted (t : Time) (ppm : Int) : Time :=
  { t with clkFault := true, ppm := ppm, relocked := false, stepDue := none, increment := Config.nominalIncrement
           uncBase := t.uncertainty, uncAt := t.counter / Config.nsUnit }

theorem State.clkFault_idle {ppm : Int} (h : ppm.natAbs ≤ 10000 ∨ s.time.clkFault = true) : s.clkFault ppm = s := if_pos h

theorem State.clkFault_taken {ppm : Int} (h : 10000 < ppm.natAbs) (hf : s.time.clkFault = false) : s.clkFault ppm =
    ((s.updTime (·.faulted ppm)).raiseDevice 20 0x103 0 (eventData [(4, ns32 (ppm / 100))])).setQuality .lost 0 := by
  have hnot : ¬(ppm.natAbs ≤ 10000 ∨ s.time.clkFault = true) := by simp [hf, h]
  simp only [State.clkFault]
  rw [if_neg hnot]
  rfl

theorem State.holdHalf_due (hq : s.time.quality = .holdover) (hh : s.time.halfRaised = false)
    (h : s.time.config.limit * 500 < s.time.uncertainty) : s.holdHalf =
      ({ s with time := { s.time with halfRaised := true } } : State).raise 23 0 0 0x100
        (eventData [(4, ns32 s.time.uncertainty), (4, s.time.config.limit)]) := by
  simp only [State.holdHalf]
  rw [if_pos ⟨hq, by simp [hh], h⟩]
  rfl

theorem State.holdHalf_idle (h : s.time.quality ≠ .holdover ∨ s.time.halfRaised = true ∨ s.time.uncertainty ≤ s.time.config.limit * 500) :
    s.holdHalf = s := by
  refine if_neg ?_
  rcases h with h | h | h <;> simp [h]

theorem State.holdLimit_reached (hq : s.time.quality = .holdover) (h : s.time.config.limit * 1000 ≤ s.time.uncertainty) :
    s.holdLimit = s.setQuality .lost 0 := if_pos ⟨hq, h⟩

theorem State.holdLimit_idle (h : s.time.quality ≠ .holdover ∨ s.time.uncertainty < s.time.config.limit * 1000) : s.holdLimit = s := by
  refine if_neg ?_
  rcases h with h | h <;> simp [h]

/-- R27: HOLDOVER that ends in LOST says so. -/
theorem State.setQuality_lost_mem (hm : s.mode.running = true) (hq : s.time.quality = .holdover) (st : Stamp) :
    ({ fn := 0, source := 16, stamp := st, data := eventData [(1, Quality.code .holdover), (1, Quality.code .lost), (4, ns32 s.time.offset),
      (4, ns32 s.time.uncertainty)] } : Raise) ∈ (s.setQuality .lost st).events.raises := by
  rw [State.setQuality_other (by rw [hq]; exact Quality.noConfusion) Quality.noConfusion, State.raiseDevice_running (s := s.updTime _) hm, hq]
  exact State.raise_mem ..

/-! ## The rows -/

/-- A row that acts where its condition holds leaves what its effect leaves. -/
theorem acts_of_act {c : Instr} {ok : Bool} {f : State → State} (hok : ok = true) (hi : exec c s = s.act ok f) (h : f s = t) : Acts c s t := by
  rw [Acts, hi, State.act_pos hok, h]

end

end Sys2Proof.Machine
end

section
namespace Sys2Proof

open Machine

/-- Settles O58: each row acts by its own meaning, whose lemma spells what it leaves; a change of the masters leaves them as
`State.mastersChange_sameReference` says, with the quality that the validity of the reference gives. -/
theorem timeReferences : Obligations.TimeReferences := by
  intro s
  refine ⟨exec_timeStep_idle, fun d hc hd hg => exec_timeStep_edge hc hd hg, fun d hc hd hg => exec_timeStep_fault hc hd hg,
    fun hm => State.passEdge_running hm _, fun d g hd h0 => ?step, fun hc a good hgood => ?announce, fun m a now => ?masterAfter,
    fun hc p m b hsrc hmaster => ?lost, fun hc p h => ?noMaster, fun hc m hsrc hu hb hne hmain => ?back, fun hc h => ?noReturn,
    fun hc p => ?delays, fun hc hsrc ns now hnow => ?pps, fun hc hsrc => ?noPps, fun hc sec hs => ?ppsOut, fun hp ppm => ?clock,
    fun hc hq => ?holdover, fun hc hq => ?noHoldover⟩
  case step => exact State.applyStep_spec hd h0 g
  case announce =>
    have hm := (State.cored_iff.1 hc).2
    refine ⟨announceGood_iff, fun h => acts_of_act hc (exec_announceReceive a s) (State.announce_idle h), fun hp hd hport hback =>
      ⟨_, acts_of_act hc (exec_announceReceive a s) (State.announce_taken hp hd), ?_⟩⟩
    have hafter := Time.announced_timePort hport s.localUs
    rw [← hgood] at hafter
    have hsame := State.mastersChange_sameReference (s := s) (st := 0) (f := (·.announced a s.localUs)) hm
    have hsource := State.source_of_ptpPort hp
    have hmain : (s.mastersChange 0 (·.announced a s.localUs)).time.mainMaster = masterAfter s.time.mainMaster a good s.localUs :=
      hsame.main.trans (congrArg Time.mainMaster hafter)
    have hback' : (s.time.announced a s.localUs).backMaster = none := (congrArg Time.backMaster hafter).trans hback
    have hchosen (port : Nat) (clock : BitVec 64) (h : (s.time.announced a s.localUs).choosePort = (port, clock)) :
        (s.mastersChange 0 (·.announced a s.localUs)).time.inUse = port ∧ (s.mastersChange 0 (·.announced a s.localUs)).time.masterId = clock :=
      ⟨hsame.inUse.trans (congrArg Prod.fst h), hsame.masterId.trans (congrArg Prod.snd h)⟩
    refine ⟨hmain, hsame.back.trans hback', fun h => ?_, fun m h => ?_, fun h hg hq => ?_, fun m h hclock hg hq => ?_⟩
    · exact hchosen _ _ (Time.choosePort_none (hsame.main.symm.trans h) hback')
    · refine hchosen _ _ ((Time.choosePort_main (t := s.time.announced a s.localUs) (hsame.main.symm.trans h) (.inr hback')).trans ?_)
      rw [hafter, hport]
    · refine State.mastersChange_acquiring hm ?_ ?_ (by rwa [hafter])
      · rw [Time.refValid_ptp hsource, h, hback]; rfl
      · rw [Time.refValid_ptp (by rw [hafter]; exact hsource), hafter, h, masterAfter_none, if_pos hg]; rfl
    · refine State.mastersChange_holdover hm ?_ ?_ (by rwa [hafter]) (by rw [hafter])
      · rw [Time.refValid_ptp hsource, h]; rfl
      · rw [Time.refValid_ptp (by rw [hafter]; exact hsource), hback', hafter, h, masterAfter_same hclock, hg]; rfl
  case masterAfter =>
    refine ⟨⟨rfl, rfl⟩, fun b hb => ⟨fun h => ?_, fun h => ?_⟩⟩
    · rw [hb, masterAfter_same h, masterAfter_same h]
      exact ⟨rfl, rfl⟩
    · rw [hb, masterAfter_other h, masterAfter_other h]
      exact ⟨if_neg (by simp), fun hr => if_pos ⟨rfl, hr⟩, fun hr => if_neg (by simp [hr])⟩
  case lost =>
    have hm := (State.cored_iff.1 hc).2
    have hsame := State.mastersChange_sameReference (s := s) (st := 0) (f := (·.masterless p)) hm
    have hacts (h : m.last + 3 * announceUs m.ann ≤ s.localUs) : Acts (.announceReceiptTimeout p) s (s.mastersChange 0 (·.masterless p)) :=
      acts_of_act hc (exec_announceReceiptTimeout p s) (State.announceLost_due hsrc hmaster h)
    refine ⟨fun h => acts_of_act hc (exec_announceReceiptTimeout p s) (State.announceLost_early hmaster h),
      fun h hp hb hp' hb' hu hback => ⟨_, hacts h, ?_⟩, fun h hp hb hback hq => ⟨_, hacts h, ?_⟩⟩
    all_goals
      have hgone := Time.masterless_timePort hp hb
      have hvalid : s.time.refValid = true := by rw [Time.refValid_ptp hsrc, ← State.masterOf_timePort hp, hmaster]; rfl
    · have hchosen : (s.time.masterless p).choosePort = (s.time.config.backup, b.ann.clock) := by
        rw [hgone]
        exact Time.choosePort_back rfl hback
      have hkept : (s.time.masterless p).refValid = s.time.refValid := by
        rw [hvalid, Time.refValid_ptp (by rw [hgone]; exact hsrc), hgone, hback]; rfl
      refine ⟨hsame.main.trans (by rw [hgone]; rfl), hsame.inUse.trans (congrArg Prod.fst hchosen),
        hsame.masterId.trans (congrArg Prod.snd hchosen), ?_, ?_⟩
      · rw [State.mastersChange_kept (f := (·.masterless p)) hkept, hgone]
        rfl
      · have hraise := State.mastersChange_switch (s := s) (st := 0) (f := (·.masterless p)) hm hchosen (by rw [hu]; exact hb.symm) (by rwa [hu]) hb'
        rwa [hu] at hraise
    · have hchosen : (s.time.masterless p).choosePort = (255, 0) := by
        rw [hgone]
        exact Time.choosePort_none rfl hback
      refine ⟨hsame.main.trans (by rw [hgone]; rfl), hsame.inUse.trans (congrArg Prod.fst hchosen),
        (State.mastersChange_holdover hm hvalid ?_ (by rwa [hgone]) (by rw [hgone])).1⟩
      rw [Time.refValid_ptp (by rw [hgone]; exact hsrc), hgone, hback]; rfl
  case noMaster => exact acts_of_act hc (exec_announceReceiptTimeout p s) (State.announceLost_none h)
  case back =>
    have hm := (State.cored_iff.1 hc).2
    have hsame := State.mastersChange_sameReference (s := s) (st := 0) (f := Time.returned) hm
    have hchosen : s.time.returned.choosePort = (s.time.config.timePort, m.ann.clock) := Time.choosePort_main hmain (.inl hne.symm)
    refine ⟨fun h => acts_of_act hc (exec_timePortReturn s) (State.portReturn_early hmain h), fun h =>
      ⟨_, acts_of_act hc (exec_timePortReturn s) (State.portReturn_due hsrc hu hb hmain h), hsame.inUse.trans (congrArg Prod.fst hchosen),
        hsame.masterId.trans (congrArg Prod.snd hchosen), fun hp d hd => ?_⟩⟩
    rw [hd, ← hu]
    exact State.mastersChange_switch hm hchosen (by rwa [hu]) (by rwa [hu]) hp
  case noReturn => exact acts_of_act hc (exec_timePortReturn s) (State.portReturn_none h)
  case delays =>
    refine ⟨fun rx tx c req q => ⟨fun hp => ?_, fun hp => ?_⟩, fun u hu hp => ⟨fun hd => ?_, fun hd hi => ?_, fun hd hi => ?_⟩, fun hp => ?_⟩
    · exact acts_of_act hc (exec_pdelayReqReceive p rx tx c req q s) (State.pdelay_on hp rx tx c req q)
    · exact acts_of_act hc (exec_pdelayReqReceive p rx tx c req q s) (State.pdelay_off hp rx tx c req q)
    · exact acts_of_act hc (exec_delayReqSend p s) (State.delayReq_peer hu hp hd)
    · exact acts_of_act hc (exec_delayReqSend p s) (State.delayReq_end hu hp hd hi)
    · exact acts_of_act hc (exec_delayReqSend p s) (State.delayReq_idle (.inr ⟨hd, hi⟩))
    · exact acts_of_act hc (exec_delayReqSend p s) (State.delayReq_idle (.inl hp))
  case pps =>
    refine ⟨fun sec h hq => ?_, fun h ha => ?_, fun h ha hm => ?_, fun h0 hm h ha => ?_, fun h => ?_⟩
    · exact acts_of_act hc (exec_ppsInEdge ns s) (State.ppsIn_setTod hsrc hnow h hq)
    · exact acts_of_act hc (exec_ppsInEdge ns s) (State.ppsIn_unset hsrc hnow h ha)
    · exact acts_of_act hc (exec_ppsInEdge ns s) (State.ppsIn_sampled hsrc hnow h ha hm)
    · exact acts_of_act hc (exec_ppsInMissing s) (State.ppsLost_due hsrc h0 hm h ha)
    · exact acts_of_act hc (exec_ppsInMissing s) (State.ppsLost_idle (.inr h))
  case noPps =>
    exact ⟨acts_of_act hc (exec_ppsInMissing s) (State.ppsLost_idle (.inl hsrc)),
      fun ns => acts_of_act hc (exec_ppsInEdge ns s) (State.ppsIn_idle hsrc ns)⟩
  case ppsOut =>
    exact ⟨fun h => acts_of_act hc (exec_ppsOutEdge s) (State.ppsOut_rises hs h),
      fun h ho hf => acts_of_act hc (exec_ppsOutEdge s) (State.ppsOut_falls hs h ho hf),
      fun h ho => acts_of_act hc (exec_ppsOutEdge s) (State.ppsOut_still hs h ho)⟩
  case clock =>
    refine ⟨fun h => acts_of_act hp (exec_timebaseClkFault ppm s) (State.clkFault_idle h), fun h hf =>
      ⟨_, acts_of_act hp (exec_timebaseClkFault ppm s) (State.clkFault_taken h hf), ?_⟩⟩
    obtain ⟨htime, hraises, hlater⟩ := State.setQuality_lost
      (s := (s.updTime (·.faulted ppm)).raiseDevice 20 0x103 0 (eventData [(4, ns32 (ppm / 100))])) 0
    rw [State.raiseDevice_time] at htime
    rw [htime]
    refine ⟨rfl, rfl, rfl, rfl, rfl, rfl, rfl, rfl, fun hm => hraises ?_, fun hm => hlater ?_⟩
    · rw [State.raiseDevice_running (s := s.updTime _) hm]
      exact State.raise_mem ..
    · rw [State.raiseDevice_stopped (s := s.updTime _) hm]
      exact List.mem_append_right _ (List.mem_singleton_self _)
  case holdover =>
    have hm := (State.cored_iff.1 hc).2
    refine ⟨fun hh h => acts_of_act hc (exec_holdoverHalf s) (State.holdHalf_due hq hh h),
      fun h => acts_of_act hc (exec_holdoverHalf s) (State.holdHalf_idle (.inr h)),
      fun h => ⟨acts_of_act hc (exec_holdoverLimitReached s) (State.holdLimit_reached hq h), ?_, fun d hd => ?_⟩,
      fun h => acts_of_act hc (exec_holdoverLimitReached s) (State.holdLimit_idle (.inr h))⟩
    · exact congrArg Time.quality (State.setQuality_lost 0).1
    · exact hd ▸ State.setQuality_lost_mem hm hq 0
  case noHoldover =>
    exact ⟨acts_of_act hc (exec_holdoverHalf s) (State.holdHalf_idle (.inl hq)),
      acts_of_act hc (exec_holdoverLimitReached s) (State.holdLimit_idle (.inl hq))⟩

end Sys2Proof
end

section
/-! How a command arrives on its carrier (R108, R110, R138, R145, R339), and what the draws and writes of its buffers leave alone. -/

namespace Sys2Proof.Machine

section
variable {s t u : State}

/-! ## Rows that carry a command -/

theorem exec_of_submissionOf {i : Instr} {c : Submission} {edge : Bool} (h : submissionOf i = some (c, edge)) (s : State) :
    exec i s = s.command c edge := by
  unfold submissionOf at h
  split at h <;> cases h <;> rfl

/-- A row that carries a command and is stamped where the clock runs. -/
theorem acts_of_stamped_clocked {i : Instr} {edge : Bool} {f : State → State} (hp : s.powered = true)
    (hi : exec i s = s.stamped s.powered (edge && s.time.running) f) (hf : f s = u) :
    ((edge && s.time.running) = false → Acts i s u) ∧
      (edge = true → s.time.running = true → s.nextGrain < Config.maxGrain → ActsAtEdge i s u) := by
  subst hf
  refine ⟨fun h => ?_, fun he hr hg => ?_⟩
  · rw [Acts, hi, h, State.stamped_wait hp]
  · rw [ActsAtEdge, hi, he, hr, Bool.and_self, State.stamped_edge hp hg]

/-- R340: a vendor-defined request carries RECORD_READ, after the three opening requests. -/
theorem State.vendorRequest_serves (h : s.firmwareServes = true) (c : Submission) : s.vendorRequest c =
    if s.mgmt.spdm < 3 then s.emit (.mgmt [5, 0x7F, 4]) else s.mgmtRequest { (withOpcode 0xA8 c) with carrier := .mgmt } := by
  rw [State.vendorRequest, State.spdmAfter, if_neg (by simp [h])]
  rfl

theorem State.mgmtRequest_stamped (hr : s.romServes = false) (hm : s.mode.running = true) (c : Submission) :
    s.mgmtRequest c = s.arrive (.cmd { c := c }) := by
  rw [State.mgmtRequest, if_neg (by simp [hr]), if_pos hm]

/-! ## Draws and writes of buffers -/

/-- `t` is `s` but for Basin, the events and the recorder. -/
def Buffered (s t : State) : Prop := ∃ b e x, t = { s with basin := b, events := e, terrace := x }

theorem Buffered.refl (s : State) : Buffered s s := ⟨_, _, _, rfl⟩

theorem Buffered.trans (h : Buffered s t) (h' : Buffered t u) : Buffered s u := by
  obtain ⟨_, _, _, rfl⟩ := h
  obtain ⟨b, e, x, rfl⟩ := h'
  exact ⟨b, e, x, rfl⟩

theorem State.takeBuffer_buffered (p : Nat) (o : OwnerTag) : Buffered s (s.takeBuffer p o).1 := s.takeBuffer_frame p o

theorem State.writeBuffer_buffered (h : Handle) (o : OwnerTag) (off : Nat) (b : Bytes) : Buffered s (s.writeBuffer h o off b).1 := by
  simp only [State.writeBuffer, State.access]
  cases s.checkHandle h o (some (off, b.length)) with
  | zero => exact ⟨_, _, _, rfl⟩
  | succ k => exact s.handleFault_frame h o 1 _

theorem State.chainWrite_buffered (hs : List Handle) (o : OwnerTag) (off : Nat) (b : Bytes) : Buffered s (s.chainWrite hs o off b) := by
  simp only [State.chainWrite]
  generalize zeros off ++ b = all
  generalize hs.zipIdx = l
  induction l generalizing s with
  | nil => exact .refl s
  | cons e l ih => exact (s.writeBuffer_buffered ..).trans ih

theorem State.lowEvents_pool (p k : Nat) : (s.lowEvents p).pool k = s.pool k := by
  obtain ⟨_, _, h⟩ := s.lowEvents_frame p
  rw [h]
  rfl

/-- A buffer taken leaves its pool one less. -/
theorem State.takeBuffer_free (p : Nat) (o : OwnerTag) : ((s.takeBuffer p o).1.pool p).free = (s.pool p).free - 1 := by
  simp only [State.takeBuffer, State.lowEvents_pool, State.pool_updPool_same]

theorem State.rxDraw_free (h : 1 ≤ (s.pool 3).free) (o : OwnerTag) : s.rxDraw o = ((s.takeBuffer 3 o).1, some (s.takeBuffer 3 o).2) := if_pos h

/-- R178: receive draws succeed where pool 3 holds the buffers. -/
theorem State.rxDraws_free (o : OwnerTag) (k : Nat) (acc : List Handle) (h : k ≤ (s.pool 3).free) :
    ∃ t hs, s.rxDraws o k acc = (t, hs, true) ∧ Buffered s t := by
  induction k generalizing s acc with
  | zero => exact ⟨s, _, rfl, .refl s⟩
  | succ k ih =>
    obtain ⟨t, hs, ht, hb⟩ := ih (s := (s.takeBuffer 3 o).1) ((s.takeBuffer 3 o).2 :: acc) (by rw [State.takeBuffer_free]; omega)
    refine ⟨t, hs, ?_, (s.takeBuffer_buffered 3 o).trans hb⟩
    rw [State.rxDraws, State.rxDraw_free (by omega)]
    exact ht

theorem State.fetchDraw_free (h : s.fetchReserve < (s.pool 0).free) (o : OwnerTag) :
    s.fetchDraw false o = ((s.takeBuffer 0 o).1, some (s.takeBuffer 0 o).2) := if_pos h

/-! ## A command published on a ring (R110) -/

/-- A ring whose next entry has been fetched. -/
def Ring.advanced (r : Ring) : Ring :=
  { r with fetch := (r.fetch + 1) % r.sqLen, tail := if r.tail = r.fetch then (r.fetch + 1) % r.sqLen else r.tail
           position := r.position + 1, fetched := r.fetched + 1 }

theorem Buffered.updRing (h : Buffered s t) (n : Nat) (f : Ring → Ring) : Buffered (s.updRing n f) (t.updRing n f) := by
  obtain ⟨b, e, x, rfl⟩ := h
  exact ⟨b, e, x, rfl⟩

theorem State.ring?_updRing_same {n : Nat} {r : Ring} (hr : s.ring? n = some r) (f : Ring → Ring) :
    (s.updRing n f).ring? n = some (f r) := by
  have hmap := (mapGet?_map_at s.host.rings n n f).trans (if_pos rfl)
  rw [show mapGet? s.host.rings n = some r from hr] at hmap
  exact hmap

theorem State.beginExit_frame (s : State) : ∃ exiting, s.beginExit = { s with host := { s.host with exiting := exiting } } := by
  by_cases h : s.host.power ≠ 0 ∧ s.host.exiting.isNone
  · exact ⟨some s.host.power, by rw [State.beginExit, State.updHost, if_pos h]⟩
  · exact ⟨s.host.exiting, by rw [State.beginExit, State.updHost, if_neg h]⟩

theorem State.fetchHoldUpdate_frame (s : State) : ∃ hold raised b, s.fetchHoldUpdate =
    { s with host := { s.host with fetchHold := hold, fetchRaised := raised }, basin := b } := by
  unfold State.fetchHoldUpdate
  split
  · split
    · exact ⟨_, _, _, rfl⟩
    · exact ⟨_, _, _, rfl⟩
  · exact ⟨_, _, _, rfl⟩

/-- A descriptor fetched has taken a pool 0 buffer, moves its ring on and stands last at the intake. -/
theorem State.fetchOne_data {n : Nat} {r : Ring} (hr : s.ring? n = some r) (hm : s.mayFetch (.data n) = true)
    (hf : s.fetchReserve < (s.pool 0).free) (c : Submission) : ∃ h : Handle, h.pool = 0 ∧ ∃ t f, f r = r.advanced ∧ Buffered (s.updRing n f) t ∧
      s.fetchOne (.data n) c = (t.arrive (.cmd { c := c, pos := r.position, hs := [h] })).beginExit.fetchHoldUpdate := by
  simp only [State.fetchOne, State.ringOf, hr, hm, State.fetchDraw_free hf, State.updRingOf]
  refine ⟨(s.takeBuffer 0 _).2, rfl, _, fun q => { q with
    fetch := (r.fetch + 1) % r.sqLen, tail := if q.tail = q.fetch then (r.fetch + 1) % r.sqLen else q.tail
    position := q.position + 1, fetched := q.fetched + 1 }, rfl, ?_, rfl⟩
  exact ((s.takeBuffer_buffered ..).updRing ..).trans (State.writeBuffer_buffered ..)

theorem State.fetchAlone_turn {id : RingId} (hm : s.mayFetch id = true) (ht : s.takesTurn id = true) (c : Submission) :
    s.fetchAlone id c = (s.fetchOne id c).turnTaken id := if_pos (by simp [hm, ht])

/-! ## A request message on a session (R138, R142, R178) -/

theorem Buffered.updSession (h : Buffered s t) (n : Nat) (f : Session → Session) : Buffered (s.updSession n f) (t.updSession n f) := by
  obtain ⟨b, e, x, rfl⟩ := h
  exact ⟨b, e, x, rfl⟩

theorem State.session?_updSession_same {n : Nat} {x : Session} (hx : s.session? n = some x) (f : Session → Session) :
    (s.updSession n f).session? n = some (f x) := by
  have hmap := (mapGet?_map_at s.wire.sessions n n f).trans (if_pos rfl)
  rw [show mapGet? s.wire.sessions n = some x from hx] at hmap
  exact hmap

theorem Buffered.session? (h : Buffered s t) (n : Nat) : t.session? n = s.session? n := by
  obtain ⟨_, _, _, rfl⟩ := h
  rfl

/-- A request that is new, where commands are admitted, reaches the intake. -/
theorem State.admitMessage_col {n : Nat} {x : Session} (hx : s.session? n = some x) (hb : s.mode ≠ .boot) (m : Message) (c : Submission) :
    (s.admitMessage n m c).col = { s.col with intake := s.col.intake ++ [.cmd { c := c }] } := by
  have hmode (f : Session → Session) : ¬(s.updSession n f).mode = .boot := hb
  simp only [State.admitMessage, hx]
  rw [if_neg (hmode _)]
  obtain ⟨_, h⟩ := State.beginExit_frame (State.arrive _ _)
  rw [h]
  rfl

/-- A whole message within the grant and the replay window is admitted. -/
theorem State.messageWhole_col {n : Nat} {x : Session} {m : Message} (hx : s.session? n = some x) (hb : s.mode ≠ .boot)
    (hg : seqLt x.grant m.seqNo = false) (hi : seqLt m.seqNo x.params.initial = false)
    (hw : seqLe m.seqNo x.highest = true → (x.highest - m.seqNo).toNat < Config.replayWindow) (c : Submission) :
    (s.messageWhole n m c).col = { s.col with intake := s.col.intake ++ [.cmd { c := c }] } := by
  simp only [State.messageWhole, hx]
  rw [if_neg (by simp [hg]), if_neg (by simpa [hi] using hw)]
  exact State.admitMessage_col (s := s.updSession ..) (State.session?_updSession_same hx _) hb m c

theorem State.chainLength_updSession (n : Nat) (f : Session → Session) (p len : Nat) :
    (s.updSession n f).chainLength p len = s.chainLength p len := rfl

/-- A request message of an open session whose sequence is new: its chain is drawn and written, and the message is whole. -/
theorem State.wireRequest_whole {n : Nat} {q : BitVec 32} {x : Session} {c : Submission} (hx : s.session? n = some x) (ho : x.state = .open_)
    (hs : (x.seen.find? fun e => e.seqNo = q) = none)
    (hf : s.chainLength x.params.port (x.params.overhead + (messageBytes c).length) ≤ (s.pool 3).free) :
    ∃ (t : State) (m : Message) (y : Session),
      t.session? n = some y ∧ y.grant = x.grant ∧ y.params = x.params ∧ y.highest = x.highest ∧ t.mode = s.mode ∧ t.col = s.col ∧
      m.seqNo = q ∧ s.wireRequest n q c = t.messageWhole n m c := by
  obtain ⟨t, hs', hdraws, hdrawn⟩ := State.rxDraws_free (s := s.updSession n fun x => { x with rx := inc64 x.rx, lastRx := s.grain, pings := 0 })
    { cls := 0, number := x.params.port } _ [] hf
  have hwritten := hdrawn.trans (t.chainWrite_buffered hs' { cls := 0, number := x.params.port }
    (x.params.overhead - 36 - if x.params.secure then 24 else 0) (messageBytes c))
  have hx' := (hwritten.session? n).trans (State.session?_updSession_same hx _)
  simp only [State.wireRequest, hx, ho, hs, State.chainLength_updSession, hdraws]
  rw [if_neg (by simp)]
  refine ⟨_, _, _, State.session?_updSession_same hx' _, rfl, rfl, rfl, ?_, ?_, rfl, rfl⟩
  all_goals
    obtain ⟨b, e, x, h⟩ := hwritten
    rw [State.updSession, State.updWire, h]
    rfl

end

end Sys2Proof.Machine
end

section
namespace Sys2Proof

open Machine

/-- Settles O19: the row of a command submits it (`exec_of_submissionOf`), and each carrier's lemma says what that leaves. -/
theorem commandsArrive : Obligations.CommandsArrive := by
  refine ⟨⟨fun i c edge s hi hp => acts_of_stamped_clocked hp (exec_of_submissionOf hi s) rfl, fun c edge s u hp hf hu => ?vendor⟩,
    fun s c => ⟨fun n r hc hr hm ht hf => ?ring, fun hc hr hm => ?management, fun n q x hc hx ho hb hs hg hi hw hf => ?wire⟩⟩
  case vendor => exact acts_of_stamped_clocked hp (exec_vendorDefinedRequest c edge s) ((State.vendorRequest_serves hf c).trans hu.symm)
  case ring =>
    have hsubmit : s.submit c = (s.fetchOne (.data n) c).turnTaken (.data n) := by
      rw [State.submit, hc]
      exact State.fetchAlone_turn hm ht c
    obtain ⟨h, hpool, t, f, hadvanced, ⟨b, e, x, rfl⟩, hone⟩ := State.fetchOne_data hr hm hf c
    obtain ⟨exiting, hexit⟩ := State.beginExit_frame (State.arrive _ _)
    obtain ⟨hold, raised, b', hhold⟩ := State.fetchHoldUpdate_frame _
    rw [hsubmit, hone, hhold, hexit]
    exact ⟨h, hpool, rfl, (State.ring?_updRing_same hr f).trans (congrArg some hadvanced), rfl⟩
  case management =>
    rw [State.submit, hc]
    exact State.mgmtRequest_stamped hr hm c
  case wire =>
    obtain ⟨t, m, y, hy, hgrant, hparams, hhighest, hmode, hcol, hseq, hrun⟩ := State.wireRequest_whole hx ho hs hf
    have hsubmit : s.submit c = t.messageWhole n m c := by
      rw [State.submit, hc]
      exact hrun
    subst hseq
    rw [hsubmit, State.messageWhole_col hy (hmode ▸ hb) (hgrant ▸ hg) (hparams ▸ hi) (hhighest ▸ hw), hcol]

end Sys2Proof
end

section
/-! The version that a read finds (R53 to R56, R67). -/

namespace Sys2Proof.Machine

/-! ## The newest version at or below a bound -/

/-- `v` is the version of `vs` with the greatest stamp at or below `bound`. -/
def Newest (vs : List Version) (bound : Nat) (v : Version) : Prop :=
  v ∈ vs ∧ v.stamp ≤ bound ∧ ∀ w ∈ vs, w.stamp ≤ bound → w.stamp ≤ v.stamp

section
variable {vs : List Version} {bound : Nat} {v : Version}

/-- In a chain with strictly falling stamps, the first version at or below a bound is the newest one there. -/
theorem find?_iff_newest (h : vs.Pairwise fun a b => b.stamp < a.stamp) :
    (vs.find? fun v => v.stamp ≤ bound) = some v ↔ Newest vs bound v := by
  induction vs with
  | nil => simp [Newest]
  | cons x vs ih =>
    obtain ⟨hx, hvs⟩ := List.pairwise_cons.1 h
    simp only [List.find?_cons]
    split
    · next hle =>
      have hle : x.stamp ≤ bound := by simpa using hle
      constructor
      · rintro ⟨⟩
        exact ⟨List.mem_cons_self, hle, fun w hw _ => by
          rcases List.mem_cons.1 hw with rfl | hw
          · exact le_rfl
          · exact (hx w hw).le⟩
      · rintro ⟨hv, -, hmax⟩
        rcases List.mem_cons.1 hv with rfl | hv
        · rfl
        · exact absurd (hx v hv) (Nat.not_lt.2 (hmax x List.mem_cons_self hle))
    · next hgt =>
      have hgt : ¬ x.stamp ≤ bound := by simpa using hgt
      rw [ih hvs]
      constructor
      · rintro ⟨hv, hb, hmax⟩
        refine ⟨List.mem_cons_of_mem _ hv, hb, fun w hw hwb => ?_⟩
        rcases List.mem_cons.1 hw with rfl | hw
        · exact absurd hwb hgt
        · exact hmax w hw hwb
      · rintro ⟨hv, hb, hmax⟩
        rcases List.mem_cons.1 hv with rfl | hv
        · exact absurd hb hgt
        · exact ⟨hv, hb, fun w hw => hmax w (List.mem_cons_of_mem _ hw)⟩

/-! ## What a walk answers -/

variable {grain st : Nat}

theorem look_of_find?_none (h : (vs.find? fun v => v.stamp ≤ bound) = none) : look vs bound grain st = .missing 0 0 := by
  simp only [look, h]

theorem look_secured (h : (vs.find? fun v => v.stamp ≤ bound) = some v) (h0 : v.secured ≠ 0) (hs : v.secured < st) :
    look vs bound grain st = .missing 3 v.secured := by
  simp [look, h, h0, hs]

section
variable (h : (vs.find? fun v => v.stamp ≤ bound) = some v) (hs : v.secured = 0 ∨ st ≤ v.secured)
include hs

theorem not_secured_before : ¬ (v.secured ≠ 0 ∧ v.secured < st) := fun ⟨h0, hlt⟩ => hs.elim h0 (Nat.not_le.2 hlt)

include h

theorem look_tombstone (hk : v.kind = .tombstone) : look vs bound grain st = .missing 1 v.stamp := by
  simp only [look, h]
  rw [if_neg (not_secured_before hs), if_pos hk]

theorem look_expired (hk : v.kind ≠ .tombstone) (h0 : v.expiry ≠ 0) (he : v.expiry ≤ grain) :
    look vs bound grain st = .missing 2 v.stamp := by
  simp only [look, h]
  rw [if_neg (not_secured_before hs), if_neg hk, if_pos ⟨h0, he⟩]

theorem look_visible (hk : v.kind ≠ .tombstone) (he : v.expiry = 0 ∨ grain < v.expiry) : look vs bound grain st = .found v := by
  simp only [look, h]
  rw [if_neg (not_secured_before hs), if_neg hk, if_neg fun ⟨h0, hle⟩ => he.elim h0 (Nat.not_lt.2 hle)]

end

/-- A walk finds the first version at or below its bound, if that version is visible. -/
theorem look_found_iff : look vs bound grain st = .found v ↔ (vs.find? fun v => v.stamp ≤ bound) = some v ∧
    v.kind ≠ .tombstone ∧ (v.expiry = 0 ∨ grain < v.expiry) ∧ (v.secured = 0 ∨ st ≤ v.secured) := by
  constructor
  · intro hl
    unfold look at hl
    split at hl
    · cases hl
    · next x hx =>
      split at hl
      · cases hl
      · split at hl
        · cases hl
        · split at hl
          · cases hl
          · next hs hk he =>
            cases hl
            simp only [not_and_or, not_not, Nat.not_le, Nat.not_lt] at hs he
            exact ⟨hx, hk, he, hs⟩
  · rintro ⟨hf, hk, he, hs⟩
    exact look_visible hf hs hk he

/-- A walk finds no version of any kind where all are above its bound. -/
theorem look_absent_iff : look vs bound grain st = .missing 0 0 ↔ ∀ v ∈ vs, bound < v.stamp := by
  have hnone : (vs.find? fun v => v.stamp ≤ bound) = none ↔ ∀ v ∈ vs, bound < v.stamp := by simp
  rw [← hnone]
  refine ⟨fun hl => ?_, look_of_find?_none⟩
  unfold look at hl
  split at hl
  · assumption
  · repeat' split at hl
    all_goals cases hl

end

/-! ## The argument of a read in the past (R54) -/

section
variable {s : State} {ns a st : Nat}

theorem State.answerable_iff : s.answerable ns a st = true ↔ a ∈ s.holdsOf ns ∨ s.answerFrom ns (grainOf st) ≤ a := by
  simp [State.answerable]

theorem State.asOfFail_future (h : st < a) : s.asOfFail ns a st = some (.futureStamp, 0) := if_pos h

theorem State.asOfFail_answerable (h : a ≤ st) (ha : s.answerable ns a st = true) : s.asOfFail ns a st = none := by
  rw [State.asOfFail, if_neg (Nat.not_lt.2 h), if_pos ha]

theorem State.asOfFail_beyond (h : a ≤ st) (ha : ¬ s.answerable ns a st = true) : s.asOfFail ns a st = some (.beyondHorizon, 0) := by
  rw [State.asOfFail, if_neg (Nat.not_lt.2 h), if_neg ha]

end

end Sys2Proof.Machine

namespace Sys2Proof

open Machine

/-- Settles O8: the first version at or below the bound is the newest one there (`find?_iff_newest`), and what a walk answers on it follows
its own flags; an as-of argument fails by one of the two bounds of R54. -/
theorem readsSeeTheNewestVersion : Obligations.ReadsSeeTheNewestVersion := by
  intro vs bound grain st hvs
  refine ⟨fun v => ?found, look_absent_iff, fun v hv hb hmax => ?missing, fun s ns a => ?asOf⟩
  case found =>
    rw [look_found_iff, find?_iff_newest hvs, Newest]
    tauto
  case missing =>
    have hf := (find?_iff_newest hvs).2 ⟨hv, hb, hmax⟩
    exact ⟨look_secured hf, look_tombstone hf, look_expired hf⟩
  case asOf =>
    rcases Nat.lt_or_ge st a with h | h
    · rw [State.asOfFail_future h]
      simp [Nat.not_le.2 h, h]
    · by_cases ha : s.answerable ns a st = true
      · rw [State.asOfFail_answerable h ha]
        have ha := State.answerable_iff.1 ha
        simp only [reduceCtorEq, false_iff, true_iff]
        exact ⟨Nat.not_lt.2 h, fun ⟨_, hm, hlt⟩ => ha.elim hm (Nat.not_le.2 hlt), h, ha⟩
      · rw [State.asOfFail_beyond h ha]
        rw [State.answerable_iff, not_or, Nat.not_le] at ha
        simp only [Option.some.injEq, Prod.mk.injEq, reduceCtorEq, false_iff, and_true, true_iff]
        exact ⟨Nat.not_lt.2 h, ⟨h, ha⟩, fun ⟨_, hc⟩ => hc.elim ha.1 (Nat.not_le.2 ha.2)⟩

end Sys2Proof
end

section
/-! Namespaces and hold points (R44 to R48, R57, R96): what NAMESPACE_SET, NAMESPACE_DELETE, HOLD_SET and HOLD_RELEASE leave. -/

namespace Sys2Proof.Machine

section
variable {s b t : State} {c : Submission} {w : Work} {i : Instr}

/-! ## NAMESPACE_SET (R96) -/

section
variable {ns : Nat} (hns : ns = w.desc.ns.toNat) (h0 : ns ≠ 0) (h1024 : ns < 1024) (hrem : mapGet? b.index.removing ns = none)
include hns h0 h1024 hrem

theorem State.namespaceSet_new {p : NsParams} (hs : b.space? ns = none) (hf : b.nsSetFail w none = none)
    (hp : p = nsParamsAfter w.desc { owner := w.fn }) : b.namespaceSet w = ((((b.updIndex fun i => { i with
      spaces := mapSet i.spaces ns { created := w.stamp, params := p, floor := 0 } }).nsRecord ns none (some p) w.stamp).metaWrite 0).deliver w
        { commit := w.stamp, length := 1 }) := by
  subst hns hp
  simp only [State.namespaceSet, hs, hf, hrem]
  rw [if_neg (by omega), if_neg (by simp), if_neg (by simp)]
  rfl

theorem State.namespaceSet_changed {n m : Namespace} (hs : b.space? ns = some n) (ho : n.params.owner = w.fn)
    (hf : b.nsSetFail w (some n) = none) (hp : m.params = nsParamsAfter w.desc n.params)
    (hm : m = { n with
      params := m.params, refused := n.refused && m.params.quota != 0 && decide (m.params.quota ≤ b.quotaCount ns)
      floor := if n.params.horizon = m.params.horizon then n.floor else max n.floor (boundB n.params.horizon (grainOf w.stamp)) }) :
    b.namespaceSet w = ((((b.updIndex fun i => { i with spaces := mapSet i.spaces ns m }).nsRecord ns (some n.params) (some m.params)
      w.stamp).metaWrite 0).deliver w { commit := w.stamp, length := 0 }) := by
  subst hns
  simp only [State.namespaceSet, hs, hf, hrem, Option.map_some, Option.getD_some, Option.any_some, ← hp]
  rw [if_neg (by omega), if_neg (by simp), if_neg (by simp [ho]), ← hm]
  rfl

end

/-! ## NAMESPACE_DELETE (R48) -/

theorem State.namespaceDelete_taken {ns : Nat} {n : Namespace} (hns : ns = w.desc.ns.toNat) (hf : b.nsFail 0x89 ns = none)
    (hs : b.space? ns = some n) (ho : n.params.owner = w.fn) : b.namespaceDelete w = ((b.updIndex fun i => { i with
      spaces := mapErase i.spaces ns, removing := mapSet i.removing ns (n, some w.stamp)
      holds := i.holds.map fun h => { h with ns := h.ns.filter (· != ns) } }).metaWrite 0).addWork { w with phase := .admin } := by
  subst hns
  simp only [State.namespaceDelete, hf, hs]
  rw [if_neg (not_not.2 ho)]

/-! ## HOLD_SET (R57) -/

theorem find?_hold_none {l : List Hold} {h : Nat} (hl : ∀ x ∈ l, x.stamp ≠ h) : (l.find? fun x => x.stamp = h) = none := by
  simpa using hl

/-- HOLD_SET at its own stamp. -/
theorem State.holdSet_now (ha : w.desc.stampArg = 0) (hnew : ∀ x ∈ b.index.holds, x.stamp ≠ w.stamp) (hs : b.index.spaces ≠ [])
    (hroom : b.index.holds.length < Config.holdPoints) : b.holdSet w = ((((b.addHold w.stamp (b.index.spaces.map Prod.fst)).holdRecord w.stamp
      0 0 b.index.spaces.length w.stamp).metaWrite 0).deliver w
        { commit := w.stamp, length := b.index.spaces.length, version := w.stamp }) := by
  have ha : w.desc.stampArg.toNat = 0 := by rw [ha]; rfl
  simp only [State.holdSet, ha, if_true, find?_hold_none hnew, List.length_map]
  rw [if_neg (lt_irrefl _), if_neg (by simpa using hs), if_neg (Nat.not_le.2 hroom)]
  rfl

section
variable {h : Nat} (hh : h = w.desc.stampArg.toNat) (h0 : h ≠ 0)
include hh h0

theorem State.holdSet_future (hlt : w.stamp < h) : b.holdSet w = b.deliver w { status := .futureStamp, commit := w.stamp } := by
  simp only [State.holdSet, ← hh, if_neg h0]
  rw [if_pos hlt, State.refuse_eq]

variable (hle : h ≤ w.stamp) (hnew : ∀ x ∈ b.index.holds, x.stamp ≠ h)
include hle hnew

theorem State.holdSet_beyond (hp : b.protectable h w.stamp = []) :
    b.holdSet w = b.deliver w { status := .beyondHorizon, commit := w.stamp } := by
  simp only [State.holdSet, ← hh, if_neg h0, find?_hold_none hnew, hp]
  rw [if_neg (Nat.not_lt.2 hle)]
  rfl

theorem State.holdSet_earlier (hp : b.protectable h w.stamp ≠ []) (hroom : b.index.holds.length < Config.holdPoints) :
    b.holdSet w = ((((b.addHold h (b.protectable h w.stamp)).holdRecord h 0 0 (b.protectable h w.stamp).length w.stamp).metaWrite 0).deliver w
      { commit := w.stamp, length := (b.protectable h w.stamp).length, version := h }) := by
  simp only [State.holdSet, ← hh, if_neg h0, find?_hold_none hnew]
  rw [if_neg (Nat.not_lt.2 hle), if_neg (by simpa using hp), if_neg (Nat.not_le.2 hroom)]
  rfl

end

/-! ## HOLD_RELEASE (R57) -/

theorem State.holdRelease_found {x : Hold} (hx : (b.index.holds.find? fun x => x.stamp = w.desc.stampArg.toNat) = some x) :
    b.holdRelease w = ((((b.updIndex fun i => { i with
      holds := i.holds.filter fun y => y.stamp != w.desc.stampArg.toNat }).holdRecord w.desc.stampArg.toNat 2 0 x.ns.length
        w.stamp).metaWrite 0).deliver w { commit := w.stamp }) := by
  simp only [State.holdRelease, hx]
  rfl

/-! ## The commands' rows -/

theorem executes_namespaceSet (hi : exec i s = s.command (withOpcode 0x88 c) true) (h : Alone s (withOpcode 0x88 c) b w)
    (ht : b.namespaceSet w = t) : Executes i s t :=
  executes_of_adminRun hi h rfl (by rwa [State.adminRun, op_of_alone h rfl])

theorem executes_namespaceDelete (hi : exec i s = s.command (withOpcode 0x89 c) true) (h : Alone s (withOpcode 0x89 c) b w)
    (hu : b.update.active = none) (ht : b.namespaceDelete w = t) : Executes i s t :=
  executes_of_adminRun hi h rfl (by rw [State.adminRun, op_of_alone h rfl]; simpa [hu] using ht)

theorem executes_holdSet (hi : exec i s = s.command (withOpcode 0xA3 c) true) (h : Alone s (withOpcode 0xA3 c) b w)
    (ht : b.holdSet w = t) : Executes i s t :=
  executes_of_adminRun hi h rfl (by rwa [State.adminRun, op_of_alone h rfl])

theorem executes_holdRelease (hi : exec i s = s.command (withOpcode 0xA4 c) true) (h : Alone s (withOpcode 0xA4 c) b w)
    (ht : b.holdRelease w = t) : Executes i s t :=
  executes_of_adminRun hi h rfl (by rwa [State.adminRun, op_of_alone h rfl])

end

end Sys2Proof.Machine

namespace Sys2Proof

open Machine

/-- Settles O25: each row is alone in its grain, so it leaves what its command's meaning leaves (`executes_of_adminRun`), which the lemma of
that command spells for the condition at hand. -/
theorem namespaceAndHoldCommands : Obligations.NamespaceAndHoldCommands := by
  intro s b c w ns hns
  refine ⟨fun p hal h0 h1024 hrem hs hf hp => ?created, fun n m hal h0 h1024 hrem hs ho hf hp hm => ?changed,
    fun n hal hu hf hs ho => ?deleted, fun hal ha hnew hs hroom => ?heldNow, fun h hal hh h0 => ⟨fun hlt => ?future,
    fun hle hnew hp => ?beyond, fun hle hnew hp hroom => ?heldEarlier⟩, fun x hal hx => ?released⟩
  case created => exact executes_namespaceSet rfl hal (State.namespaceSet_new hns h0 h1024 hrem hs hf hp)
  case changed => exact executes_namespaceSet rfl hal (State.namespaceSet_changed hns h0 h1024 hrem hs ho hf hp hm)
  case deleted => exact executes_namespaceDelete rfl hal hu (State.namespaceDelete_taken hns hf hs ho)
  case heldNow => exact executes_holdSet rfl hal (State.holdSet_now ha hnew hs hroom)
  case future => exact executes_holdSet rfl hal (State.holdSet_future hh h0 hlt)
  case beyond => exact executes_holdSet rfl hal (State.holdSet_beyond hh h0 hle hnew hp)
  case heldEarlier => exact executes_holdSet rfl hal (State.holdSet_earlier hh h0 hle hnew hp hroom)
  case released => exact executes_holdRelease rfl hal (State.holdRelease_found hx)

end Sys2Proof
end

section
/-! What a command finds when the gate lets it through (R43 step 13, R47, R53 to R59, R69, R209). -/

namespace Sys2Proof.Machine

section
variable {s t : State} {id ns : Nat} {w x y : Work}

/-! ## A read (R53, R55, R57, R61, R84) -/

theorem not_isWriteOp_of_isReadOp {op : Nat} (h : isReadOp op = true) : isWriteOp op = false := by
  simp only [isReadOp, isWriteOp, decide_eq_true_eq, decide_eq_false_iff_not] at h ⊢
  omega

theorem State.proceedRead_gone (hns : ns = w.desc.ns.toNat) (h : (s.spaceAt ns w.stamp).isNone = true) :
    s.proceedRead w = s.deliver w { status := .namespaceUnknown, commit := w.stamp } := by
  subst hns
  simp only [State.proceedRead]
  rw [if_pos h]

section
variable (hns : ns = w.desc.ns.toNat) (hspace : (s.spaceAt ns w.stamp).isSome = true)
include hns hspace

theorem State.proceedRead_enumerate (hop : w.op = 4) {own : State} {area : Bytes × Nat}
    (hown : own = s.updIndex fun i => { i with keys := i.keys.filter fun k => s.owns (sliceOf k.fp) })
    (harea : area = own.enumerate ns (cursorOf ((w.items.head?.map Item.value).getD [])) w.key w.desc.stampArg.toNat w.stamp
      w.desc.aux.toNat w.desc.valLen.toNat) : s.proceedRead w =
      s.listReady { w with data := area.1, result := { commit := w.stamp, length := area.2, version := w.bound } } := by
  subst hns hown harea
  simp only [State.proceedRead]
  rw [if_neg (by simpa [Option.isSome_iff_ne_none] using hspace), if_pos hop]

variable (hpoison : (s.keyEntry ns w.key).any KeyEntry.poisoned = false)

theorem State.proceedRead_poisoned (hop : w.op ≠ 4) (h : (s.keyEntry ns w.key).any KeyEntry.poisoned = true) : s.proceedRead w =
    (s.poisonUsed (s.lineAt (Config.bucketLine w.fp)) 1 w.stamp).deliver { w with diverted := true }
      { status := .poisoned, commit := w.stamp } := by
  subst hns
  simp only [State.proceedRead]
  rw [if_neg (by simpa [Option.isSome_iff_ne_none] using hspace), if_neg hop, if_pos h]

include hpoison

theorem State.proceedRead_versions (hop : w.op = 3) : s.proceedRead w = s.listReady (s.versionsResult w) := by
  subst hns
  simp only [State.proceedRead]
  rw [if_neg (by simpa [Option.isSome_iff_ne_none] using hspace), if_neg (by omega), if_neg (by simp [hpoison]), if_pos hop]

section
variable (hop : w.op = 1 ∨ w.op = 2)
  (hx : x = { w with diverted := w.diverted || decide (64 < walkLength (s.chain ns w.key) w.bound) }) {seen : Look}
  (hseen : seen = look (s.chain ns w.key) w.bound
    (if w.desc.stampArg.toNat ≠ 0 then grainOf w.desc.stampArg.toNat else grainOf w.stamp) w.stamp)
include hop hx hseen

theorem State.proceedRead_missing {r st : Nat} (h : seen = .missing r st) :
    s.proceedRead w = s.deliver x { status := .notFound, commit := w.stamp, detail := r, version := st } := by
  subst hns hx
  simp only [State.proceedRead, hseen.symm.trans h]
  rw [if_neg (by simpa [Option.isSome_iff_ne_none] using hspace), if_neg (by omega), if_neg (by simp [hpoison]), if_neg (by omega)]

section
variable {v : Version} {data : Bytes} (h : seen = .found v) (hdata : data = v.value.take w.desc.valLen.toNat)
  (hy : y = { x with data := data, loc := v.loc, page := v.page, gen := v.gen, unit := 0, units := 1 + ceilDiv data.length 65536
                     result := { commit := w.stamp, length := v.value.length, version := v.stamp
                                 detail := b2n (decide (w.desc.valLen.toNat < v.value.length)) } })
include h hdata hy

/-- A version without a location of its own is read from its key's entry. -/
theorem State.proceedRead_unplaced (hl : v.loc = none) : s.proceedRead w = s.withBuffer y (y.unitNeed.getD 1) .cipher := by
  subst hns hy hdata hx
  simp only [State.proceedRead, hseen.symm.trans h, hl]
  rw [if_neg (by simpa [Option.isSome_iff_ne_none] using hspace), if_neg (by omega), if_neg (by simp [hpoison]), if_neg (by omega)]

theorem State.proceedRead_placed {l : Loc} (hl : v.loc = some l) : s.proceedRead w =
    if ¬ s.inBasin l (recordUnits w.key.length v.value.length) = true ∧
      (s.delta.lostList.any fun e => e.1 = ns && e.2.1 = w.fp && e.2.2 = v.stamp) = true then s.unreadable y l
    else s.withBuffer y (y.unitNeed.getD 1) (if s.inBasin l (recordUnits w.key.length v.value.length) then .cipher else .media) := by
  subst hns hy hdata hx
  simp only [State.proceedRead, hseen.symm.trans h, hl]
  rw [if_neg (by simpa [Option.isSome_iff_ne_none] using hspace), if_neg (by omega), if_neg (by simp [hpoison]), if_neg (by omega)]
  simp only [Bool.not_eq_true', Bool.not_eq_true]

end
end
end

/-! ## A write that its key's state refuses (R58, R59) -/

section
variable {i : Item} (hns : ns = w.desc.ns.toNat) (hitems : w.items = [i]) (happly : w.isApply = false) (hop : w.op = i.opcode)
  (hpoison : (s.keyEntry ns i.key).any KeyEntry.poisoned = false)
include hns hitems happly hop hpoison

/-- PUT_IF whose expected stamp is not the visible one. -/
theorem State.proceedWrite_changed {seen : Nat} (hi : i.opcode = 0x11)
    (hseen : (seen = 0 ∧ ∃ r st, s.itemLook w i = .missing r st) ∨ (∃ v, s.itemLook w i = .found v ∧ seen = v.stamp)) (hne : i.arg ≠ seen) :
    s.proceedWrite w = s.endWithout w { status := .conditionFailed, commit := w.stamp, version := seen } := by
  subst hns
  have hdecide : s.itemDecide w i = .error (.conditionFailed, 0, seen) := by
    rcases hseen with ⟨rfl, r, st, hl⟩ | ⟨v, hl, rfl⟩ <;> simp [State.itemDecide, hpoison, happly, hi, hl, hne]
  have hbatch : w.op ≠ 0x14 := by omega
  simp [State.proceedWrite, hitems, State.itemsDecide, hdecide, hbatch]

/-- DELETE or TOUCH of a key that is not visible. -/
theorem State.proceedWrite_absent {r st : Nat} (hi : i.opcode = 0x12 ∨ i.opcode = 0x15) (hseen : s.itemLook w i = .missing r st) :
    s.proceedWrite w = s.endWithout w { status := .notFound, commit := w.stamp, detail := r, version := st } := by
  subst hns
  have hput : i.opcode ≠ 0x11 := by omega
  have hdecide : s.itemDecide w i = .error (.notFound, r, st) := by simp [State.itemDecide, hpoison, happly, hput, hi, hseen]
  have hbatch : w.op ≠ 0x14 := by omega
  simp [State.proceedWrite, hitems, State.itemsDecide, hdecide, hbatch]

end

/-! ## A write whose items are decided (R47, R69) -/

section
variable {items : List Item} {m n : Namespace} {charge count : Nat} {grows : Bool} (hns : ns = w.desc.ns.toNat)
  (hitems : s.itemsDecide w w.items 0 = .ok items) (hx : x = { w with items := items }) (hm : s.spaceAt ns w.stamp = some m)
  (hn : n = { m with params := (w.space.getD m).params }) (hgrows : grows = (!w.isApply && w.op != 0x12 && w.op != 0x13))
  (hcharge : charge = (items.map Item.charge).sum) (hcount : count = s.quotaCount ns)
include hns hitems hx hm hn hgrows hcharge hcount

/-- The order in which a decided write is refused, with the refusals as conditions. -/
theorem State.proceedWrite_decided : s.proceedWrite w =
    if s.applyVoid x = true then s.endWithout x.chargeless { commit := w.stamp }
    else if grows = true ∧ n.params.quota ≠ 0 ∧ n.params.quota < count + charge then
      (s.quotaRefused ns n count w.stamp).endWithout x.chargeless { status := .noSpace, commit := w.stamp, detail := 3 }
    else if grows = true ∧ s.freeEntries ≤ Config.indexReserve ∧ ∃ i ∈ items, s.indexNeed ns i.key (x.version i 0) = true then
      s.endWithout x.chargeless { status := .noSpace, commit := w.stamp, detail := 2 }
    else if s.indexFull x items = true then s.endWithout x.chargeless { status := .noSpace, commit := w.stamp, detail := 2 }
    else (s.updSpace ns fun n => { n with charged := n.charged + charge, refused := n.refused && decide (n.params.quota ≤ count) }).withBuffer
      { x with units := x.writeUnits, unit := 0 } (({ x with units := x.writeUnits, unit := 0 } : Work).unitNeed.getD 1) .cipher := by
  subst hns hx hn hgrows hcharge hcount
  simp only [State.proceedWrite, hitems, hm, Option.map_some, List.any_eq_true, Bool.and_assoc]

variable (hvoid : s.applyVoid x = false)

theorem State.proceedWrite_void (h : s.applyVoid x = true) : s.proceedWrite w = s.endWithout x.chargeless { commit := w.stamp } := by
  rw [State.proceedWrite_decided hns hitems hx hm hn hgrows hcharge hcount, if_pos h]

include hvoid

theorem State.proceedWrite_overQuota (hg : grows = true) (hq : n.params.quota ≠ 0) (hover : n.params.quota < count + charge) :
    s.proceedWrite w = (s.quotaRefused ns n count w.stamp).endWithout x.chargeless
      { status := .noSpace, commit := w.stamp, detail := 3 } := by
  rw [State.proceedWrite_decided hns hitems hx hm hn hgrows hcharge hcount, if_neg (by simp [hvoid]), if_pos ⟨hg, hq, hover⟩]

theorem State.proceedWrite_reserve (hg : grows = true) (hq : n.params.quota = 0 ∨ count + charge ≤ n.params.quota)
    (hfree : s.freeEntries ≤ Config.indexReserve) (hneed : ∃ i ∈ items, s.indexNeed ns i.key (x.version i 0) = true) :
    s.proceedWrite w = s.endWithout x.chargeless { status := .noSpace, commit := w.stamp, detail := 2 } := by
  rw [State.proceedWrite_decided hns hitems hx hm hn hgrows hcharge hcount, if_neg (by simp [hvoid]), if_neg (by omega),
    if_pos ⟨hg, hfree, hneed⟩]

section
variable (hroom : grows = false ∨ (n.params.quota = 0 ∨ count + charge ≤ n.params.quota) ∧
  (Config.indexReserve < s.freeEntries ∨ ∀ i ∈ items, s.indexNeed ns i.key (x.version i 0) = false))
include hroom

/-- Neither the quota nor the index reserve refuses the write: the index area decides (R68). -/
theorem State.proceedWrite_area : s.proceedWrite w =
    if s.indexFull x items = true then s.endWithout x.chargeless { status := .noSpace, commit := w.stamp, detail := 2 }
    else (s.updSpace ns fun n => { n with charged := n.charged + charge, refused := n.refused && decide (n.params.quota ≤ count) }).withBuffer
      { x with units := x.writeUnits, unit := 0 } (({ x with units := x.writeUnits, unit := 0 } : Work).unitNeed.getD 1) .cipher := by
  rw [State.proceedWrite_decided hns hitems hx hm hn hgrows hcharge hcount, if_neg (by simp [hvoid]), if_neg, if_neg]
  · rintro ⟨hg, hfree, i, hi, hneed⟩
    rcases hroom with h | ⟨-, h | h⟩
    · simp [hg] at h
    · omega
    · simp [h i hi] at hneed
  · rintro ⟨hg, hq, hover⟩
    rcases hroom with h | ⟨h, -⟩
    · simp [hg] at h
    · omega

end
end

/-! ## The row -/

section
variable (hc : s.clocked = true) (hw : s.work? id = some w) (hphase : w.phase = .gate)
include hc hw hphase

theorem acts_gateProceed_read (hop : isReadOp w.op = true) (hfree : s.orderHeld w = false) (hgo : s.readMayGo w = true)
    (h : s.proceedRead w = t) : Acts (.gateProceed id) s t :=
  acts_of_act hc (exec_gateProceed id s) (by simpa [State.gateProceed, hw, hphase, not_isWriteOp_of_isReadOp hop, hfree, hgo] using h)

theorem acts_gateProceed_write (hop : isWriteOp w.op = true) (hgo : s.writeMayGo w = true) (h : s.proceedWrite w = t) :
    Acts (.gateProceed id) s t :=
  acts_of_act hc (exec_gateProceed id s) (by simpa [State.gateProceed, hw, hphase, hop, hgo] using h)

end

end

end Sys2Proof.Machine

namespace Sys2Proof

open Machine

/-- Settles O34: what the gate lets through proceeds, and the lemma of its kind and condition spells what that leaves. -/
theorem gateDecides : Obligations.GateDecides := by
  intro s id ns w hc hw hphase hns
  refine ⟨fun hfree hgo hop => ?read, fun hop hgo => ?write⟩
  case read =>
    have run {t : State} (h : s.proceedRead w = t) : Acts (.gateProceed id) s t := acts_gateProceed_read hc hw hphase hop hfree hgo h
    refine ⟨fun h => run (State.proceedRead_gone hns h), fun hs h4 hp => run (State.proceedRead_poisoned hns hs h4 hp),
      fun hs hp h3 => run (State.proceedRead_versions hns hs hp h3),
      fun hs h4 own area hown harea => run (State.proceedRead_enumerate hns hs h4 hown harea),
      fun hs hp hget x seen hx hseen => ⟨fun r st hmiss => run (State.proceedRead_missing hns hs hp hget hx hseen hmiss),
        fun v data y hfound hdata hy => ⟨fun hl => ?unplaced, fun l hl hin => ?inBuffer, fun l hl hout => ⟨fun hlost => ?lost, fun hkept => ?media⟩⟩⟩⟩
    case unplaced => exact run (State.proceedRead_unplaced hns hs hp hget hx hseen hfound hdata hy hl)
    all_goals have placed := State.proceedRead_placed hns hs hp hget hx hseen hfound hdata hy hl
    case inBuffer => exact run (placed.trans (by simp [hin]))
    case lost => exact run (placed.trans (if_pos ⟨by simp [hout], hlost⟩))
    case media => exact run (placed.trans (by rw [if_neg fun h => by simp [hkept] at h, if_neg (by simp [hout])]))
  case write =>
    have run {t : State} (h : s.proceedWrite w = t) : Acts (.gateProceed id) s t := acts_gateProceed_write hc hw hphase hop hgo h
    refine ⟨?one, fun items m n charge count x grows hitems hx hm hn hg hcharge hcount => ⟨fun hvoid => ?void, fun hvoid =>
      ⟨fun hgrow hq hover => ?overQuota, fun hgrow hq hfree hneed => ?reserve, fun hroom => ?decided⟩⟩⟩
    case one =>
      rintro i _ hi happly rfl hop hp
      exact ⟨fun seen hput hseen hne => run (State.proceedWrite_changed hns hi happly hop hp hput hseen hne),
        fun r st hdel hseen => run (State.proceedWrite_absent hns hi happly hop hp hdel hseen)⟩
    case void => exact run (State.proceedWrite_void hns hitems hx hm hn hg hcharge hcount hvoid)
    case overQuota => exact run (State.proceedWrite_overQuota hns hitems hx hm hn hg hcharge hcount hvoid hgrow hq hover)
    case reserve => exact run (State.proceedWrite_reserve hns hitems hx hm hn hg hcharge hcount hvoid hgrow hq hfree hneed)
    case decided =>
      have area := State.proceedWrite_area hns hitems hx hm hn hg hcharge hcount hvoid hroom
      refine ⟨fun hfull => run (area.trans (if_pos hfull)), ?_⟩
      rintro hfits y rfl
      exact run (area.trans (if_neg (by simp [hfits])))

end Sys2Proof
end

section
/-! Gorge, Vale and Basin between stamps (R190 to R194, R281, R283, R295, R297): a cipher pair's turn, an index update, a grant, and the
random number generator. -/

namespace Sys2Proof.Machine

section
variable {s t u : State} {w x : Work}

/-! ## A cipher pair's turn (R281, R283, R295) -/

theorem State.basinRead_intact {fault : CipherFault} (hf : fault = .none ∨ fault = .tagFailed) : s.basinRead w fault = s := by
  rcases hf with rfl | rfl <;> (unfold State.basinRead; cases w.buf <;> rfl)

section
variable (hrx : s.gorge.rx = []) (hnext : s.nextUnit = some w) (hpairs : s.pairs ≠ [])
include hrx hnext hpairs

/-- A pair that takes a unit and meets poison in the command's buffer. -/
theorem State.cipherTurn_poisonMet {fault : CipherFault} (hf : fault = .none ∨ fault = .poisoned)
    (h : (s.basinRead w fault).bufferPoisoned w = true) : s.cipherTurn fault = (s.basinRead w fault).unitPoisoned w := by
  have hp : s.pairs.isEmpty = false := by simpa using hpairs
  rcases hf with rfl | rfl <;> simp only [State.cipherTurn, hrx, State.cipherUnit, hnext, hp, h, if_true, Bool.false_eq_true, if_false]

section
variable (hb : s.bufferPoisoned w = false) (hu : s.unitAccess w = (u, true))
include hb hu

/-- A pair that takes a unit and has the unit's use of the command's buffer. -/
theorem State.cipherTurn_unit {fault : CipherFault} (hf : fault = .none ∨ fault = .tagFailed) : s.cipherTurn fault =
    if isWriteOp w.op then (u.unitRun true 1 w.unitBlocks).unitDone w State.placeWork
    else if fault = .tagFailed then (u.unitRun false 1 w.unitBlocks).tagFailed w
    else (u.unitRun false 1 w.unitBlocks).unitDone w State.readReady := by
  have hp : s.pairs.isEmpty = false := by simpa using hpairs
  have hread : s.basinRead w fault = s := State.basinRead_intact hf
  rcases hf with rfl | rfl <;>
    simp only [State.cipherTurn, hrx, State.cipherUnit, hnext, hp, hread, hb, hu, Bool.false_eq_true, if_false]

theorem State.cipherTurn_write (hop : isWriteOp w.op = true) :
    s.cipherTurn .none = (u.unitRun true 1 w.unitBlocks).unitDone w State.placeWork :=
  (State.cipherTurn_unit hrx hnext hpairs hb hu (.inl rfl)).trans (if_pos hop)

theorem State.cipherTurn_read (hop : isWriteOp w.op = false) :
    s.cipherTurn .none = (u.unitRun false 1 w.unitBlocks).unitDone w State.readReady := by
  rw [State.cipherTurn_unit hrx hnext hpairs hb hu (.inl rfl), if_neg (by simp [hop]), if_neg (by simp)]

theorem State.cipherTurn_tagFailed (hop : isWriteOp w.op = false) :
    s.cipherTurn .tagFailed = (u.unitRun false 1 w.unitBlocks).tagFailed w := by
  rw [State.cipherTurn_unit hrx hnext hpairs hb hu (.inr rfl), if_neg (by simp [hop]), if_pos rfl]

end
end

theorem State.cipherTurn_frame {f : LfFrame} {rest : List LfFrame} (hrx : s.gorge.rx = f :: rest) (hpairs : s.pairs ≠ []) :
    s.cipherTurn .none = ((({ s with gorge := { s.gorge with rx := rest } }).frameUnit f.payload.length).checkSecure f) := by
  have hp : s.pairs.isEmpty = false := by simpa using hpairs
  simp only [State.cipherTurn, hrx, hp, State.takeRx, Bool.false_eq_true, if_false]
  rfl

/-! ## What follows a work unit -/

section
variable (hx : x = { w with unit := w.unit + 1 }) (last : State → Work → State)
include hx

theorem State.unitDone_last (h : w.units ≤ x.unit) : s.unitDone w last = last (s.stream x) x := by
  subst hx
  exact if_pos h

theorem State.unitDone_sameBuffer (h : x.unit < w.units) (hn : x.unitNeed = none) :
    s.unitDone w last = (s.stream x).updWork w.stamp fun _ => x := by
  subst hx
  simp only [State.unitDone, hn]
  rw [if_neg (Nat.not_le.2 h)]

theorem State.unitDone_nextBuffer {n : Nat} (h : x.unit < w.units) (hn : x.unitNeed = some n) :
    s.unitDone w last = (s.stream x).withBuffer x n .cipher := by
  subst hx
  simp only [State.unitDone, hn]
  rw [if_neg (Nat.not_le.2 h)]

end

/-! ## Poison in a buffer (R277) -/

@[simp] theorem State.sramRead_basin (memory addr : Nat) (f : SramFault) : (s.sramRead memory addr f).basin = s.basin := by
  cases f with
  | clean => rfl
  | corrected =>
    simp only [State.sramRead]
    obtain ⟨e, x, h⟩ := State.raiseLimited_frame (s.updDram fun d => { d with sramCorrected := inc64 d.sramCorrected }) 150 0 0 0 (some 0x600)
      fun n => eventData [(1, memory), (8, addr), (4, n)]
    rw [h]
    rfl
  | doubleBit =>
    simp only [State.sramRead]
    obtain ⟨e, x, h⟩ := State.raise_frame (s.updDram fun d => { d with sramBad := inc64 d.sramBad }) 151 0 0 0x604
      (eventData [(1, memory), (8, addr)])
    rw [h]
    rfl

theorem State.pool_congr (h : t.basin = s.basin) (p : Nat) : t.pool p = s.pool p := by rw [State.pool, State.pool, h]

/-- A double-bit error under a work unit poisons the command's buffer. -/
theorem State.basinRead_poisoned {h : Handle} (hbuf : w.buf = some h) : s.basinRead w .poisoned =
    (s.sramRead 1 (handleWord h) .doubleBit).updBuffer h fun b => { b with poisoned := true } := by
  simp only [State.basinRead, hbuf]

theorem State.bufferPoisoned_of_basinRead {h : Handle} {b : Buffer} (hbuf : w.buf = some h)
    (hb : mapGet? (s.pool h.pool).buffers h.index = some b) : (s.basinRead w .poisoned).bufferPoisoned w = true := by
  have hentry := mapGet?_map_at (s.pool h.pool).buffers h.index h.index fun b : Buffer => { b with poisoned := true }
  rw [if_pos rfl, hb] at hentry
  have hpoisoned : (s.basinRead w .poisoned).handlePoisoned h = true := by
    rw [State.handlePoisoned, State.basinRead_poisoned hbuf, State.pool_updBuffer_same, State.pool_congr (State.sramRead_basin ..)]
    exact congrArg (Option.any Buffer.poisoned) hentry
  exact List.any_eq_true.2 ⟨h, by simp [Work.buffers, hbuf], hpoisoned⟩

/-! ## An index update (R52, R209) -/

/-- The writes of an index update's lines touch the DRAM. -/
theorem State.indexLine_frame (s : State) (w : Work) : ∃ d, s.indexLine w = { s with dram := d } := by
  rw [State.indexLine]
  induction w.items generalizing s with
  | nil => exact ⟨_, rfl⟩
  | cons i l ih =>
    obtain ⟨d, h⟩ := ih (s.updDram fun d =>
      d.narrowWrite (Config.bucketLine i.fp) (Config.bucketMask i.fp) (Config.bucketBytes i.fp w.bound))
    exact ⟨d, h⟩

theorem State.work?_indexLine (s : State) (v : Work) (st : Stamp) : (s.indexLine v).work? st = s.work? st := by
  obtain ⟨d, h⟩ := s.indexLine_frame v
  rw [h]
  rfl

/-- What an update of the index leaves before the command goes on: the versions in, poisoned where its line was, its keys' lists freed. -/
def State.indexed (s : State) (w : Work) (poisoned : Bool) : State :=
  (if poisoned then
    (s.poisonUsed (s.lineAt (Config.bucketLine ((w.items.head?.map Item.fp).getD 0))) 3 w.stamp).updIndex fun i =>
      { i with keys := i.keys.map fun k =>
          { k with poisoned := k.poisoned || (w.items.any (fun x => x.key = k.key) && k.ns = w.desc.ns.toNat) } }
  else s).gateLeave w.stamp

section
variable {id : Nat} {poisoned : Bool} {v : State} (hw : s.work? id = some w) (hphase : w.phase = .index) (hponr : w.ponr = true)
  (hv : v = (((s.indexLine w).uncharge w).indexItems w).indexed w poisoned)
include hw hphase hponr hv

theorem State.indexDone_posted (h : w.posted = true) : s.indexDone id poisoned = v.dropWork w.stamp := by
  subst hv
  have hpost : w.chargeless.posted = true := h
  simp only [State.indexDone, hw, State.indexUpdate, hphase, hponr, and_self, if_true, State.work?_indexLine, hpost]
  rfl

theorem State.indexDone_erases (h : w.posted = false) (hop : w.op = 0x13) :
    s.indexDone id poisoned = v.updWork w.stamp fun _ => { w.chargeless with phase := .erase } := by
  subst hv
  have hpost : w.chargeless.posted = false := h
  have hop : w.chargeless.op = 0x13 := hop
  simp only [State.indexDone, hw, State.indexUpdate, hphase, hponr, and_self, if_true, State.work?_indexLine, hpost, hop,
    Bool.false_eq_true, if_false]
  rfl

theorem State.indexDone_ends (h : w.posted = false) (hop : w.op ≠ 0x13) : s.indexDone id poisoned = v.deliver w.chargeless w.result := by
  subst hv
  have hpost : w.chargeless.posted = false := h
  have hop : ¬ w.chargeless.op = 0x13 := hop
  simp only [State.indexDone, hw, State.indexUpdate, hphase, hponr, and_self, if_true, State.work?_indexLine, hpost, hop,
    Bool.false_eq_true, if_false]
  rfl

end

/-! ## A grant and a wait (R191, R192, R194) -/

theorem State.serveWaiter_none {p : Nat} (h : (s.pool p).waiters = [] ∨ ∃ w rest, (s.pool p).waiters = w :: rest ∧
    s.grantable p w.owner = false) : s.serveWaiter p = s := by
  rcases h with h | ⟨w, rest, h, hg⟩
  · simp only [State.serveWaiter, h]
  · simp [State.serveWaiter, h, hg]

/-- What the first waiter of a pool does with the buffer that it gets. -/
def State.waiterServed (t : State) (w : Waiter) (h : Handle) : State :=
  match w.wants with
  | .work id => (match t.work? id with | none => t.presentRelease h w.owner 0 | some x => t.bufferGranted x h)
  | .page seg => t.addPage seg h
  | .step id => t.updStep id fun x => { x with handle := some h }

theorem State.serveWaiter_first {p : Nat} {v : Waiter} {rest : List Waiter} {h : Handle} (hp : (s.pool p).waiters = v :: rest)
    (hg : s.grantable p v.owner = true) (ht : (s.updPool p fun pl => { pl with waiters := rest }).takeBuffer p v.owner = (t, h)) :
    s.serveWaiter p = t.waiterServed v h := by
  simp only [State.serveWaiter, hp, hg, if_true, ht]
  rfl

/-- Taking a buffer leaves the commands in flight. -/
theorem State.work?_of_takeBuffer {p : Nat} {o : OwnerTag} {h : Handle} {f : Pool → Pool} (ht : (s.updPool p f).takeBuffer p o = (t, h))
    (id : Stamp) : t.work? id = s.work? id := by
  obtain ⟨b, e, y, hf⟩ := (s.updPool p f).takeBuffer_frame p o
  rw [ht] at hf
  cases hf
  rfl

theorem State.waitTimeout_due {p : Nat} {v : Waiter} {rest : List Waiter} (hp : (s.pool p).waiters = v :: rest)
    (hr : (s.pool p).waitRaised = false) (hs : (s.pool p).waitSince + 10000 ≤ s.localUs) :
    s.waitTimeout p = (s.updPool p fun pl => { pl with waitRaised := true }).raiseLimited 177 0 0 v.stamp (some 0x400) fun n =>
      eventData [(1, p), (2, (v :: rest).length), (4, n)] := by
  simp [State.waitTimeout, hp, hr, hs]

/-! ## The random number generator (R297) -/

theorem State.entropyPass_retested (h : s.gorge.drbg = 2) :
    s.entropyPass = { s with gorge := { s.gorge with drbg := 1, consecutive := 0 } } := if_pos h

theorem State.entropyPass_stopped (h : s.gorge.drbg = 3) : s.entropyPass = s := if_neg (by omega)

end

end Sys2Proof.Machine

namespace Sys2Proof

open Machine

/-- Settles O36: each row acts at once, and what it leaves is the lemma of its case: a unit's use of its buffer and what follows the unit, an
index update and what follows it, the first waiter and what it wants. -/
theorem pipelineMovesOn : Obligations.PipelineMovesOn := by
  intro s hc
  have cored (hm : s.mode.running = true) : s.cored = true := State.cored_of_clocked hc hm
  have turned {fault : CipherFault} {t : State} (h : s.cipherTurn fault = t) : Acts (.gorgeWorkUnit fault) s t :=
    acts_of_act hc (exec_gorgeWorkUnit fault s) h
  refine ⟨fun w hrx hnext hpairs => ⟨fun u y z x hb hu hx hy hz => ⟨fun hop => ?write, fun hop => ?read⟩, fun hb => ?poison, fun h b hbuf hb => ?poisoned⟩,
    fun f rest hrx hpairs => ?frame, fun id w poisoned u v hw hphase hponr hu hv => ?index,
    fun p w rest t h hp hg ht => ?grant, fun p h => ?noGrant, fun hm p w rest hp hr hs => ?waits, fun hm test n st hn hst => ?entropy,
    fun hm h => ?retested, fun hm h => ?stopped⟩
  case write =>
    subst hy
    have turn := State.cipherTurn_write hrx hnext hpairs hb hu hop
    exact ⟨fun hl => turned (turn.trans (State.unitDone_last hx _ hl)), fun hl hn => turned (turn.trans (State.unitDone_sameBuffer hx _ hl hn)),
      fun n hl hn => turned (turn.trans (State.unitDone_nextBuffer hx _ hl hn))⟩
  case read =>
    subst hz
    have turn := State.cipherTurn_read hrx hnext hpairs hb hu hop
    exact ⟨fun hl => turned (turn.trans (State.unitDone_last hx _ hl)), fun hl hn => turned (turn.trans (State.unitDone_sameBuffer hx _ hl hn)),
      fun n hl hn => turned (turn.trans (State.unitDone_nextBuffer hx _ hl hn)),
      turned (State.cipherTurn_tagFailed hrx hnext hpairs hb hu hop)⟩
  case poison =>
    have hread : s.basinRead w .none = s := State.basinRead_intact (.inl rfl)
    have met := State.cipherTurn_poisonMet hrx hnext hpairs (.inl rfl) (by rwa [hread])
    rw [hread] at met
    exact turned met
  case poisoned =>
    have met := State.cipherTurn_poisonMet hrx hnext hpairs (.inr rfl) (State.bufferPoisoned_of_basinRead hbuf hb)
    rw [State.basinRead_poisoned hbuf] at met
    exact turned met
  case frame => exact turned (State.cipherTurn_frame hrx hpairs)
  case index =>
    subst hu
    have run {t : State} (h : s.indexDone id poisoned = t) : Acts (.indexUpdateDone id poisoned) s t :=
      acts_of_act hc (exec_indexUpdateDone id poisoned s) h
    exact ⟨fun h => run (State.indexDone_posted hw hphase hponr hv h), fun h hop => run (State.indexDone_erases hw hphase hponr hv h hop),
      fun h hop => run (State.indexDone_ends hw hphase hponr hv h hop)⟩
  case grant =>
    have first := State.serveWaiter_first hp hg ht
    have run {t : State} (h : s.serveWaiter p = t) : Acts (.bufferGrant p) s t := acts_of_act hc (exec_bufferGrant p s) h
    refine ⟨fun id x hwants hx => ?_, fun id hwants hx => ?_, fun seg hwants => ?_, fun id hwants => ?_⟩
    all_goals refine run (first.trans ?_)
    all_goals simp only [State.waiterServed, hwants]
    · rw [State.work?_of_takeBuffer ht, hx]
    · rw [State.work?_of_takeBuffer ht, hx]
  case noGrant => exact acts_of_act hc (exec_bufferGrant p s) (State.serveWaiter_none h)
  case waits => exact acts_of_act (cored hm) (exec_waitListTimeout p s) (State.waitTimeout_due hp hr hs)
  case entropy =>
    subst hst hn
    exact acts_of_act (cored hm) (exec_entropyTestFailure test s) rfl
  case retested => exact acts_of_act (cored hm) (exec_entropyStartupTestPass s) (State.entropyPass_retested h)
  case stopped => exact acts_of_act (cored hm) (exec_entropyStartupTestPass s) (State.entropyPass_stopped h)

end Sys2Proof
end

section
/-! Patrol, sweeps and removals: a namespace's removal at a key entry of another namespace that holds no version (R48), against what
follows of itself, which keeps the time. -/

namespace Sys2Proof.Machine

/-! ## What follows of itself keeps the time -/

section
variable (s : State)

theorem State.foldl_time {α : Type} {f : State → α → State} (h : ∀ s a, (f s a).time = s.time) (l : List α) : (l.foldl f s).time = s.time :=
  List.foldlRecOn (motive := fun u => u.time = s.time) l f rfl fun u hu a _ => (h u a).trans hu

@[simp] theorem State.metaWrite_time (n : Nat) : (s.metaWrite n).time = s.time := by
  obtain ⟨d, h⟩ := s.metaWrite_frame n
  rw [h]

@[simp] theorem State.updPair_time (n : Nat) (f : Pair → Pair) : (s.updPair n f).time = s.time := rfl

theorem State.enterMode_time {m : Mode} (h : m.running = true) : (s.enterMode m).time = s.time := by
  obtain ⟨p, e, x, hm⟩ := s.enterMode_frame h
  rw [hm]

@[simp] theorem State.removePair_time (n : Nat) : (s.removePair n).time = s.time := by
  unfold State.removePair
  dsimp only
  split
  · split
    · exact State.enterMode_time _ rfl
    · exact State.enterMode_time _ rfl
  · rfl

@[simp] theorem State.dropCopies_time (p : Pair) : (s.dropCopies p).time = s.time := rfl

@[simp] theorem State.pairEvent_time (p : Pair) (state cause : Nat) (st : Stamp) : (s.pairEvent p state cause st).time = s.time := by
  simp [State.pairEvent]

@[simp] theorem State.pairFail_time (p : Pair) (cause : Nat) (st : Stamp) : (s.pairFail p cause st).time = s.time := by
  unfold State.pairFail
  split
  · cases p.target <;> simp
  · cases p.target <;> simp
  · simp
  · simp
  · rfl

@[simp] theorem State.enqueue_time (p : Nat) (f : TxFrame) : (s.enqueue p f).time = s.time := by
  obtain ⟨x, e, h⟩ := s.enqueue_frame p f
  rw [h]

@[simp] theorem State.frameUnit_time (bytes : Nat) : (s.frameUnit bytes).time = s.time := by
  obtain ⟨g, f, h⟩ := s.frameUnit_frame bytes
  rw [h]

@[simp] theorem State.peerFrame_time (p : Pair) (type : Nat) (last : Bool) (seq : BitVec 32) (index count : Nat) (payload : Bytes) :
    (s.peerFrame p type last seq index count payload).time = s.time := by
  unfold State.peerFrame
  dsimp only
  split <;> simp

@[simp] theorem State.peerRequest_time (p : Pair) (m : PeerMsg) : (s.peerRequest p m).time = s.time := by
  refine s.foldl_time (fun u i => ?_) _
  split
  · rfl
  · exact u.peerFrame_time ..

@[simp] theorem State.peerSendAll_time (n fuel : Nat) : (s.peerSendAll n fuel).time = s.time := by
  induction fuel generalizing s with
  | zero => rfl
  | succ fuel ih =>
    unfold State.peerSendAll
    split
    · rfl
    · split
      · rfl
      · split
        · rfl
        · simp [ih]

@[simp] theorem State.peerLost_time (n : Nat) : (s.peerLost n).time = s.time := by
  unfold State.peerLost
  split
  · rfl
  · dsimp only
    split <;> simp

@[simp] theorem State.pairSettle_time : s.pairSettle.time = s.time := by
  refine s.foldl_time (fun u n => ?_) _
  split
  · rfl
  · split
    · simp
    · split <;> simp

@[simp] theorem State.lostSweep_time : s.lostSweep.time = s.time := by
  unfold State.lostSweep
  split <;> rfl

@[simp] theorem State.testStarts_time : s.testStarts.time = s.time := by
  unfold State.testStarts
  split
  · rfl
  · split <;> rfl

@[simp] theorem State.fetchHoldUpdate_time : s.fetchHoldUpdate.time = s.time := by
  obtain ⟨hold, raised, b, h⟩ := s.fetchHoldUpdate_frame
  rw [h]

@[simp] theorem State.holdRings_time : s.holdRings.time = s.time := rfl

theorem State.takeStep_time (id : Nat) : (s.takeStep id).time = s.time := rfl

theorem State.dieTake_time (ops : List MediaOp) (die : Nat) : (s.dieTake ops die).time = s.time := by
  unfold State.dieTake
  split
  · rfl
  · split
    · rfl
    · dsimp only
      split <;> rfl

@[simp] theorem State.diesTake_time : s.diesTake.time = s.time := by
  unfold State.diesTake
  dsimp only
  rw [State.foldl_time _ fun u (k : StepRun) => u.takeStep_time k.id,
    s.foldl_time fun u (o : MediaOp) => u.dieTake_time s.mediaOps o.die]

/-- Without a command in flight, what follows of itself leaves the time as it is. -/
theorem State.finish_time (h : s.works = []) : s.finish.time = s.time := by
  have hsettle : s.settle = s := by simp [State.settle, h]
  have hretry : s.retryPlaces = s := by simp [State.retryPlaces, h]
  unfold State.finish
  split
  · rfl
  · simp [hsettle, hretry, h]

/-- Nothing follows of itself while the time counter stands. -/
theorem State.finish_of_stopped (h : s.time.running = false) : s.finish = s := by
  simp [State.finish, State.clocked, h]

/-- Without a command in flight, nothing has followed of itself where the time counter stands afterwards. -/
theorem State.finish_of_finish_stopped (h : s.works = []) (hr : s.finish.time.running = false) : s.finish = s :=
  s.finish_of_stopped (by rwa [s.finish_time h] at hr)

end

/-! ## An entry without versions beside a removed namespace -/

/-- The NAMESPACE_DELETE of namespace 1, stamped 9 on the management path. -/
def deletion : Work :=
  { stamp := 9, carrier := .mgmt, fn := 0, area := [], phase := .admin
    desc := { opcode := 0x89, flags := 0, tag := 0, ns := 1, keyLen := 0, valLen := 0, timeout := 0, aux := 0, stampArg := 0, valAddr := 0,
              keyField := 0 } }

/-- A key entry of namespace 2 that holds no version. -/
def versionless : KeyEntry := { ns := 2, fp := 0, key := [], versions := [] }

/-- A device whose time counter stands, with namespace 1 under removal and an entry of namespace 2 without versions. -/
def removalBesideVersionless : State := { State.reset with
  mode := .service, works := [deletion], index := { removing := [(1, ({}, some 9))], keys := [versionless] } }

/-- The deletion's end on the management path touches the buffers, the commands, the counts and what leaves the device. -/
theorem State.deliver_deletion (t : State) {r : Result} (hr : r.status = .success) : ∃ b h o, t.deliver deletion r =
    { t with basin := b, works := t.works.filter (fun w => w.stamp != 9), host := h, out := o } := by
  have hmirror : t.mirror deletion r = t := by
    rw [State.mirror, if_neg fun h => absurd h.1 (by decide), if_neg fun h => absurd h.1 (by decide)]
  simp only [State.deliver, State.pairResult, State.peerPair, deletion, hr] at hmirror ⊢
  rw [hmirror]
  exact ⟨_, _, _, rfl⟩

/-- Where no rule stands, none is removed. -/
theorem State.removeRules_nil {s : State} (h : s.glen.rules = []) (p : Rule → Bool) : s.removeRules p = s := by
  simp [State.removeRules, h]

theorem State.nsRecord_frame (s : State) (ns : Nat) (old new : Option NsParams) (st : Stamp) :
    ∃ e x, s.nsRecord ns old new st = { s with events := e, terrace := x } := s.record_frame ..

/-- The removal takes the entry of namespace 2 too. -/
theorem removalDone_takesVersionless :
    (removalBesideVersionless.removalDone 1).index.keys = [] ∧ (removalBesideVersionless.removalDone 1).time.running = false := by
  obtain ⟨e, x, hrecord⟩ := State.nsRecord_frame ((removalBesideVersionless.cutKeys fun k => if k.ns = 1 then { k with versions := [] } else k).updIndex
    fun i => { i with removing := mapErase i.removing 1 }) 1 (some {}) none 9
  have hmap : mapGet? removalBesideVersionless.index.removing 1 = some (({} : Namespace), some 9) := rfl
  unfold State.removalDone
  rw [hmap]
  dsimp only
  rw [if_neg (by decide)]
  simp only [Option.getD_some]
  rw [hrecord, State.removeRules_nil rfl]
  have hwork {u : State} (hu : u.works = [deletion]) : (some 9).bind u.work? = some deletion := by
    simp [State.work?, hu, deletion]
  rw [hwork rfl]
  dsimp only
  generalize hr : ({ commit := deletion.stamp, length := _ } : Result) = r
  have hs : r.status = .success := by rw [← hr]
  obtain ⟨b, h, o, hd⟩ := State.deliver_deletion _ hs
  rw [hd]
  exact ⟨rfl, rfl⟩

/-- The removal's row leaves no entry: whatever state it is said to leave, that state holds none after what follows of itself. -/
theorem acts_removal_takesVersionless {u : State} (h : Acts (.namespaceRemovalDone 1) removalBesideVersionless u) :
    u.finish.index.keys = [] ∧ u.finish.time.running = false := by
  obtain ⟨hkeys, hstopped⟩ := removalDone_takesVersionless
  have hacts : Acts (.namespaceRemovalDone 1) removalBesideVersionless (removalBesideVersionless.removalDone 1) :=
    acts_of_act rfl (exec_namespaceRemovalDone 1 _) rfl
  rw [Acts] at h
  rw [Acts, h, State.finish_of_stopped _ hstopped] at hacts
  have hfinish : removalBesideVersionless.keepQueue u.finish =
      removalBesideVersionless.keepQueue (removalBesideVersionless.removalDone 1) := Host.Outcome.next.inj hacts
  exact ⟨(congrArg (fun v => v.index.keys) hfinish).trans hkeys, (congrArg (fun v => v.time.running) hfinish).trans hstopped⟩

end Sys2Proof.Machine

namespace Sys2Proof

open Machine

/-- Refutes O55: a removal takes every entry that holds no version, of another namespace too, where the statement keeps the other
namespaces' entries. With namespace 1 under removal beside an entry of namespace 2 without versions, the row leaves no entry. -/
theorem not_patrolAndSweeps : ¬ Obligations.PatrolAndSweeps := by
  intro ⟨_, _, h⟩
  obtain ⟨_, _, _, _, _, _, hremoval, _⟩ := h removalBesideVersionless rfl
  obtain ⟨t, hacts, hkeys, _, hworks, _⟩ := hremoval 1 9 {} deletion 0 rfl (by simp [State.work?, removalBesideVersionless, deletion])
    (by decide) (by decide)
  obtain ⟨b, ho, o, hdeliver⟩ := t.deliver_deletion (r := { commit := deletion.stamp, length := min max32 0 }) rfl
  rw [hdeliver] at hacts
  obtain ⟨hgone, hstopped⟩ := acts_removal_takesVersionless hacts
  have hnone : t.works.filter (fun w => w.stamp != 9) = [] := by rw [hworks]; rfl
  rw [State.finish_of_finish_stopped _ hnone hstopped] at hgone
  have hkept : t.index.keys = [versionless] := hkeys
  exact absurd (hkept.symm.trans hgone) (List.cons_ne_nil _ _)

end Sys2Proof
end

section
/-! The descriptor's 64 bytes (R2, R73): little-endian numbers and their bytes, and the fields as parts of one word. -/

namespace Sys2Proof.Machine

/-! ## Bytes of a number (R2) -/

theorem leBytes_add (m n x : Nat) : leBytes (m + n) x = leBytes m x ++ leBytes n (x / 256 ^ m) := by
  induction m generalizing x with
  | zero => simp [leBytes]
  | succ m ih => rw [Nat.succ_add, leBytes, leBytes, ih, Nat.div_div_eq_div_mul, ← pow_succ']; rfl

/-- The low bytes of a number are those of its remainder. -/
theorem leBytes_mod (n x : Nat) : leBytes n (x % 256 ^ n) = leBytes n x := by
  induction n generalizing x with
  | zero => rfl
  | succ n ih =>
    have hhead : BitVec.ofNat 8 (x % 256 ^ (n + 1)) = BitVec.ofNat 8 x :=
      BitVec.eq_of_toNat_eq (Nat.mod_mod_of_dvd x ⟨256 ^ n, pow_succ' 256 n⟩)
    rw [leBytes, leBytes, hhead, pow_succ', Nat.mod_mul_right_div_self, ih]

theorem leNat_leBytes (n x : Nat) : leNat (leBytes n x) = x % 256 ^ n := by
  induction n generalizing x with
  | zero => simp [leBytes, leNat, Nat.mod_one]
  | succ n ih => rw [leBytes, leNat, ih, pow_succ', Nat.mod_mul]; rfl

theorem leNat_lt (b : Bytes) : leNat b < 256 ^ b.length := by
  induction b with
  | nil => simp [leNat]
  | cons x b ih =>
    have hx : x.toNat < 256 := x.isLt
    rw [leNat, List.length_cons, pow_succ']
    omega

theorem leBytes_leNat (b : Bytes) : leBytes b.length (leNat b) = b := by
  induction b with
  | nil => rfl
  | cons x b ih =>
    have hx : x.toNat < 256 := x.isLt
    have hrest : (x.toNat + 256 * leNat b) / 256 = leNat b := by omega
    have hhead : BitVec.ofNat 8 (x.toNat + 256 * leNat b) = x :=
      BitVec.eq_of_toNat_eq (by rw [BitVec.toNat_ofNat]; omega)
    rw [List.length_cons, leNat, leBytes, hrest, ih, hhead]

/-! ## Words -/

theorem word_append_inj {p q : Nat} {u u' : BitVec p} {v v' : BitVec q} (h : u ++ v = u' ++ v') : u = u' ∧ v = v' := by
  constructor
  · simpa only [BitVec.extractLsb'_append_eq_left] using congrArg (BitVec.extractLsb' q p) h
  · simpa only [BitVec.extractLsb'_append_eq_right] using congrArg (BitVec.extractLsb' 0 q) h

theorem two_pow_bits (n : Nat) : 2 ^ (8 * n) = 256 ^ n := pow_mul 2 8 n

/-- The bytes of a word whose low part is `n` bytes wide: that part's first. -/
theorem leBytes_append {p q : Nat} (u : BitVec p) (v : BitVec q) (m n : Nat) (hq : q = 8 * n) :
    leBytes (n + m) (u ++ v).toNat = leBytes n v.toNat ++ leBytes m u.toNat := by
  have hpow : 256 ^ n = 2 ^ q := by rw [hq, two_pow_bits]
  have hword : (u ++ v).toNat = 2 ^ q * u.toNat + v.toNat := by
    rw [BitVec.toNat_append, Nat.shiftLeft_eq, mul_comm, Nat.two_pow_add_eq_or_of_lt v.isLt]
  rw [leBytes_add, ← leBytes_mod, hword, hpow, Nat.mul_add_mod, Nat.mod_eq_of_lt v.isLt, Nat.mul_add_div (by positivity),
    Nat.div_eq_of_lt v.isLt, Nat.add_zero]

theorem leNat_leBytes_word {n : Nat} (w : BitVec (8 * n)) : leNat (leBytes n w.toNat) = w.toNat := by
  rw [leNat_leBytes, Nat.mod_eq_of_lt (two_pow_bits n ▸ w.isLt)]

theorem toNat_word_leNat {b : Bytes} {n : Nat} (h : b.length = n) : (BitVec.ofNat (8 * n) (leNat b)).toNat = leNat b := by
  rw [BitVec.toNat_ofNat, Nat.mod_eq_of_lt (by rw [two_pow_bits, ← h]; exact leNat_lt b)]

end Sys2Proof.Machine

namespace Sys2Proof

open Machine

/-! ## Descriptors (R73) -/

theorem Descriptor.bytes_eq_leBytes (d : Descriptor) : d.bytes = leBytes 64 d.toWord.toNat := by
  rw [toWord, leBytes_append _ d.opcode 63 1 rfl, leBytes_append _ d.flags 62 1 rfl, leBytes_append _ d.tag 60 2 rfl,
    leBytes_append _ d.ns 58 2 rfl, leBytes_append _ d.keyLen 56 2 rfl, leBytes_append _ d.valLen 52 4 rfl,
    leBytes_append _ d.timeout 50 2 rfl, leBytes_append _ d.aux 48 2 rfl, leBytes_append _ d.stampArg 40 8 rfl,
    leBytes_append _ d.valAddr 32 8 rfl]
  simp only [bytes, keyBytes, List.append_assoc]

theorem Descriptor.length_bytes (d : Descriptor) : d.bytes.length = 64 := by rw [bytes_eq_leBytes, length_leBytes]

/-- The parts that the fields are read from lie next to each other and fill the word. -/
theorem Descriptor.toWord_ofWord (w : BitVec 512) : (ofWord w).toWord = w := by
  simp only [ofWord, toWord, BitVec.extractLsb'_append_extractLsb'_eq_extractLsb', BitVec.extractLsb'_eq_self]

theorem Descriptor.toWord_injective {d e : Descriptor} (h : d.toWord = e.toWord) : d = e := by
  obtain ⟨h, hopcode⟩ := word_append_inj h
  obtain ⟨h, hflags⟩ := word_append_inj h
  obtain ⟨h, htag⟩ := word_append_inj h
  obtain ⟨h, hns⟩ := word_append_inj h
  obtain ⟨h, hkeyLen⟩ := word_append_inj h
  obtain ⟨h, hvalLen⟩ := word_append_inj h
  obtain ⟨h, htimeout⟩ := word_append_inj h
  obtain ⟨h, haux⟩ := word_append_inj h
  obtain ⟨h, hstampArg⟩ := word_append_inj h
  obtain ⟨hkeyField, hvalAddr⟩ := word_append_inj h
  cases d
  congr

theorem Descriptor.ofWord_toWord (d : Descriptor) : ofWord d.toWord = d := toWord_injective (toWord_ofWord _)

theorem Descriptor.ofBytes_bytes (d : Descriptor) : ofBytes d.bytes = d := by
  have hword : leNat d.bytes = d.toWord.toNat := by rw [bytes_eq_leBytes]; exact leNat_leBytes_word (n := 64) d.toWord
  rw [ofBytes, List.take_of_length_le d.length_bytes.le, hword, BitVec.ofNat_toNat, BitVec.setWidth_eq, ofWord_toWord]

theorem Descriptor.bytes_ofBytes {b : Bytes} (h : b.length = 64) : (ofBytes b).bytes = b := by
  have hword : (BitVec.ofNat 512 (leNat b)).toNat = leNat b := toNat_word_leNat (n := 64) h
  rw [bytes_eq_leBytes, ofBytes, toWord_ofWord, List.take_of_length_le h.le, hword, ← h, leBytes_leNat]

/-- Settles O6: the 64 bytes are the little-endian bytes of one word, which the fields divide among themselves. -/
theorem descriptorRoundTrip : Obligations.DescriptorRoundTrip :=
  ⟨fun d => ⟨d.length_bytes, d.ofBytes_bytes⟩, fun _ h => Descriptor.bytes_ofBytes h,
    fun d w => ⟨d.ofWord_toWord, Descriptor.toWord_ofWord w⟩⟩

end Sys2Proof
end

section
/-! A completion posted on its ring (R78, R111, R121). -/

namespace Sys2Proof.Machine

section
variable {s : State}

/-- R78: a completion is 32 bytes. -/
theorem Completion.length_bytes (c : Completion) : c.bytes.length = 32 := by simp [Completion.bytes]

theorem State.ring?_updRing_other (f : Ring → Ring) {n k : Nat} (h : k ≠ n) : (s.updRing n f).ring? k = s.ring? k :=
  (mapGet?_map_at s.host.rings n k f).trans (if_neg h)

/-- A signalled vector stands among the function's. -/
theorem State.mem_signal (s : State) (f v : Nat) : v ∈ ((s.signal f v).fn f).signal := by
  rw [State.signal, State.fn_updFn, if_pos rfl]
  split
  · assumption
  · exact List.mem_append_right _ (List.mem_singleton_self v)

/-- A signal touches the function's record only. -/
theorem State.signal_frame (s : State) (f v : Nat) : ∃ fns, s.signal f v = { s with host := { s.host with fns := fns } } := ⟨_, rfl⟩

/-- A ring behind its next completion entry. -/
def Ring.afterPost (r : Ring) : Ring :=
  { r with cqTail := (r.cqTail + 1) % r.cqLen, posted := r.posted + 1, fetched := r.fetched - 1
           phase := if r.cqTail + 1 = r.cqLen then !r.phase else r.phase }

/-- The entry at a data ring's tail, before its vector is signalled. -/
def State.entered (s : State) (ctx : Nat) (r : Ring) (tag : BitVec 16) (res : Result) : State :=
  ((s.emit (.completion (.data ctx) r.cqTail { tag := tag, head := r.fetch, phase := r.phase, result := res })).updRing ctx
    Ring.afterPost).updHost fun h => { h with idleSince := s.grain }

variable {ctx : Nat} {r : Ring} (hr : s.ring? ctx = some r)

/-- R121: a function in D3hot keeps the completion. -/
theorem State.postRing_d3hot {f : Nat} (h : (s.fn f).d3hot = true) (ctx : Nat) (tag : BitVec 16) (res : Result) :
    s.postRing (.data ctx) f tag res = s.updFn f fun x => { x with heldBack := x.heldBack ++ [.post (some ctx) tag res] } := if_pos h

include hr

theorem State.ring?_entered_same (tag : BitVec 16) (res : Result) : (s.entered ctx r tag res).ring? ctx = some r.afterPost :=
  State.ring?_updRing_same (s := s.emit _) hr Ring.afterPost

/-- R111: the entry is written at the tail, and the ring's vector is signalled where the ring asks for it. -/
theorem State.postRing_data {f : Nat} (h : (s.fn f).d3hot = false) (tag : BitVec 16) (res : Result) : s.postRing (.data ctx) f tag res =
    if r.intr then (s.entered ctx r tag res).signal r.fn r.vector else s.entered ctx r tag res := by
  rw [State.postRing, if_neg (by simp [h])]
  simp only [State.postEntry, State.ringOf, hr]
  rfl

end

end Sys2Proof.Machine

namespace Sys2Proof

open Machine

/-- Settles O9: a post is the entry at the ring's tail (`State.postRing_data`), and a signal changes nothing but its function's record. -/
theorem completionsPost : Obligations.CompletionsPost := by
  intro s ctx r tag res hr
  refine ⟨Completion.length_bytes, fun hd => ⟨_, State.postRing_data hr hd tag res, ?_⟩, fun hd => State.postRing_d3hot hd ctx tag res⟩
  obtain ⟨fns, hsignal⟩ := (s.entered ctx r tag res).signal_frame r.fn r.vector
  have hself := State.ring?_entered_same hr tag res
  have hother (n : Nat) (hn : n ≠ ctx) : (s.entered ctx r tag res).ring? n = s.ring? n :=
    State.ring?_updRing_other (s := s.emit _) Ring.afterPost hn
  by_cases hintr : r.intr = true
  · have hmem := (s.entered ctx r tag res).mem_signal r.fn r.vector
    rw [if_pos hintr]
    refine ⟨?out, ?ring, fun _ => hmem, fun n hn => ?others, ?frame⟩
    all_goals rw [hsignal]
    case out => rfl
    case ring => exact hself
    case others => exact hother n hn
    case frame => rfl
  · rw [if_neg hintr]
    exact ⟨rfl, hself, fun h => absurd h hintr, hother, rfl⟩

end Sys2Proof
end

section
/-! A data command alone in its grain: its edge stamps it, it passes its checks, and it starts (R31, R43, R88). -/

namespace Sys2Proof.Machine

/-! ## A data command at its stamp -/

theorem State.workOf_desc (s : State) (c : Submission) (p : Parsed) (fn st : Nat) (peer : Bool) :
    (s.workOf c p fn st peer).2.desc = c.desc := by
  simp only [State.workOf]
  split
  · rfl
  · split <;> rfl

theorem State.dataChecks_desc {s v : State} {c : Submission} {fn : Nat} {st : Stamp} {w : Work} (h : s.dataChecks c fn st = (v, .ok w)) :
    w.desc = c.desc := by
  simp only [State.dataChecks] at h
  split at h
  · cases h
  · split at h
    · cases h
    · split at h
      · cases h
      · cases h
        exact State.workOf_desc ..

/-- A data command that passes its checks goes on with its own descriptor. -/
theorem atStamp_data {x b : State} {a : Arrival} {st : Stamp} {w : Work} (h : atStamp x a st = some (b, w))
    (hop : isAdminOp a.c.desc.opcode.toNat = false) : x.cmdApply a st = b.dataCmd w ∧ w.desc = a.c.desc := by
  unfold atStamp at h
  simp only [hop] at h
  split at h
  · next hs =>
    split at h
    · cases h
    · next z hz =>
      rw [if_neg (by decide)] at h
      split at h
      · cases h
      · next v u hv =>
        cases h
        exact ⟨by simp only [State.cmdApply, hs, hz, hop, hv]; rfl, (State.dataChecks_desc hv :)⟩
  · cases h

section
variable {s b t : State} {c : Submission} {w : Work} {i : Instr}

/-- A row of a data command that is alone in its grain leaves what the command leaves once it has passed its checks. -/
theorem executes_of_dataCmd (hi : exec i s = s.command c true) (h : Alone s c b w) (hop : isAdminOp c.desc.opcode.toNat = false)
    (ht : b.dataCmd w = t) : Executes i s t := by
  obtain ⟨a, rfl, hin, hcarry, hgrain, hpow, hat⟩ := h.stamped
  have happ : ((s.submit a.c).updCol fun k => { k with intake := [], carry := [], last := stampOf s.grain 0 }).applyEvent (.cmd a)
      (stampOf s.grain 0) = t := (atStamp_data hat hop).1.trans ht
  rw [Executes, hi, State.command, h.running, Bool.and_true, State.stamped_edge h.powered h.room,
    State.grainEdge_of_single hin hcarry hpow, hgrain, happ]

theorem op_of_alone_data {op : Nat} (h : Alone s (withOpcode op c) b w) (hop : isAdminOp (BitVec.ofNat 8 op).toNat = false) :
    w.op = (BitVec.ofNat 8 op).toNat := by
  obtain ⟨a, ha, _, _, _, _, hat⟩ := h.stamped
  have hdesc := (atStamp_data hat (by rw [ha]; exact hop)).2
  rw [Work.op, hdesc, ha, withOpcode_opcode]

/-! ## The start of a data command -/

/-- A command that enters is not one that was outstanding before it. -/
theorem State.openBefore_addWork (s : State) (w : Work) (ctx : Nat) : (s.addWork w).openBefore ctx w.stamp = s.openBefore ctx w.stamp := by
  have hany (l : List Work) (p : Work → Bool) (hp : p w = false) :
      (insertBy (fun a b => decide (a.stamp ≤ b.stamp)) w l).any p = l.any p := by
    induction l with
    | nil => simp [insertBy, hp]
    | cons x l ih =>
      rw [insertBy]
      split
      · simp [ih]
      · simp [hp]
  simp only [State.openBefore, State.addWork, State.updWorks]
  rw [hany _ _ (by simp)]
  rfl

theorem State.orderHeld_addWork (s : State) (w : Work) : (s.addWork w).orderHeld w = s.orderHeld w := by
  simp only [State.orderHeld, State.openBefore_addWork]

theorem State.dataCmd_start (hc : b.cutHolds w = false) (hd : w.op = 0x13 → b.update.active = none)
    (hp : b.peerPair w.carrier = none ∨ w.op ≠ 0x22) : b.dataCmd w = (b.addWork w).startData w := by
  have hactive : ¬(w.op = 0x13 ∧ b.update.active.isSome = true) := fun ⟨h, ha⟩ => by simp [hd h] at ha
  have hpair : (b.addWork w).peerPair w.carrier = b.peerPair w.carrier := rfl
  rw [State.dataCmd, if_neg hactive, if_neg (by simp [hc]), State.beginData, hpair]
  rcases hp with hp | hp
  · rw [hp]
  · split
    · rw [if_neg (by simp [hp])]
    · rfl

theorem State.startData_write (hop : isWriteOp w.op = true) : s.startData w = s.admitWrite w := by
  simp only [State.startData]
  rw [if_pos hop]

theorem State.startData_read (hop : isReadOp w.op = true) : s.startData w = s.admitRead w := by
  simp only [State.startData]
  rw [if_neg (by simp [not_isWriteOp_of_isReadOp hop]), if_pos hop]

section
variable (hfree : s.orderHeld w = false)
include hfree

/-- FLUSH, ABORT and NOP have no gate. -/
theorem State.startData_flush (hop : w.op = 0x20) : s.startData w =
    ((s.updWork w.stamp fun w => { w with phase := .flush }).forceFlush w.desc.ns.toNat w.stamp).settleOne { w with phase := .flush } := by
  simp [State.startData, hop, hfree, isWriteOp, isReadOp]

theorem State.startData_abort (hop : w.op = 0x21) {n : Nat} (hn : w.carrier.context = some n) : s.startData w =
    (s.abortApply n (w.desc.stampArg.toNat % 65536) w.stamp).1.deliver w
      { commit := w.stamp, detail := (s.abortApply n (w.desc.stampArg.toNat % 65536) w.stamp).2 } := by
  simp [State.startData, hop, hfree, isWriteOp, isReadOp, hn]

theorem State.startData_nop (hop : w.op = 0x22) : s.startData w = s.deliver w { commit := w.stamp } := by
  simp [State.startData, hop, hfree, isWriteOp, isReadOp]

end

theorem executes_of_startData {op : Nat} (hi : exec i s = s.command (withOpcode op c) true) (h : Alone s (withOpcode op c) b w)
    (hop : isAdminOp (BitVec.ofNat 8 op).toNat = false) (hc : b.cutHolds w = false) (hd : w.op = 0x13 → b.update.active = none)
    (hp : b.peerPair w.carrier = none ∨ w.op ≠ 0x22) (ht : (b.addWork w).startData w = t) : Executes i s t :=
  executes_of_dataCmd hi h hop ((State.dataCmd_start hc hd hp).trans ht)

/-! ## Admission to the gate (R201, R209, R211, R291, R293) -/

theorem State.admitWrite_stalled (h : s.gateStalled w.stamp = true) :
    s.admitWrite w = s.updWork w.stamp fun w => { w with phase := .ordered } := by
  simp only [State.admitWrite]
  rw [if_pos h]

/-- A write behind its draw of counter values: each item has its own, of the generation in force. -/
def State.counted (s : State) (w : Work) (first : Nat) : Work :=
  { w with phase := .gate, gen := ((s.keyPage? w.page).map fun p => (p.generation w.gen).1.number).getD w.gen
           items := (w.items.foldl (fun (acc : List Item × Nat) i => (acc.1 ++ [{ i with counter := acc.2 }], acc.2 + i.workUnits))
             ([], first)).1 }

/-- Counter values change no key. -/
theorem State.fps_counted (s : State) (w : Work) (first : Nat) : (s.counted w first).fps = w.fps := by
  have hfold (l acc : List Item) (n : Nat) :
      ((l.foldl (fun (acc : List Item × Nat) i => (acc.1 ++ [{ i with counter := acc.2 }], acc.2 + i.workUnits)) (acc, n)).1).map Item.fp =
        acc.map Item.fp ++ l.map Item.fp := by
    induction l generalizing acc n with
    | nil => simp
    | cons i l ih => simp [ih]
  exact hfold w.items [] first

section
variable (h : s.gateStalled w.stamp = false) {v z : State}
include h

theorem State.admitWrite_exhausted (hu : s.takeUses w.page w.gen w.writeUnits (w.op = 0x12 || w.op = 0x13) w.stamp = (v, none)) :
    s.admitWrite w = v.failWork w (.keyExhausted, 0) := by
  simp only [State.admitWrite, hu]
  rw [if_neg (by simp [h])]

variable {first : Nat} (hu : s.takeUses w.page w.gen w.writeUnits (w.op = 0x12 || w.op = 0x13) w.stamp = (v, some first))
include hu

theorem State.admitWrite_joined (hj : v.gateJoin w.desc.ns.toNat w.fps w.stamp = (z, true)) : s.admitWrite w =
    if (z.updWork w.stamp fun _ => s.counted w first).writeMayGo (s.counted w first) then
      (z.updWork w.stamp fun _ => s.counted w first).proceedWrite (s.counted w first)
    else z.updWork w.stamp fun _ => s.counted w first := by
  rw [← s.fps_counted w first, State.counted] at hj
  simp only [State.admitWrite, hu, hj]
  rw [if_neg (by simp [h])]
  rfl

theorem State.admitWrite_refused (hj : v.gateJoin w.desc.ns.toNat w.fps w.stamp = (z, false)) : s.admitWrite w =
    (s.gateJoin w.desc.ns.toNat w.fps w.stamp).1.updWork w.stamp fun x => { x with phase := .ordered } := by
  rw [← s.fps_counted w first, State.counted] at hj
  simp only [State.admitWrite, hu, hj]
  rw [if_neg (by simp [h])]
  exact congrArg (fun fps => (s.gateJoin w.desc.ns.toNat fps w.stamp).1.updWork w.stamp _) (s.fps_counted w first)

end

theorem State.admitRead_stalled (h : s.gateStalled w.stamp = true) :
    s.admitRead w = s.updWork w.stamp fun w => { w with phase := .ordered } := by
  simp only [State.admitRead]
  rw [if_pos h]

theorem State.admitRead_free (h : s.gateStalled w.stamp = false) (ho : s.orderHeld w = false) (hg : s.readMayGo w = true) :
    s.admitRead w = s.proceedRead { w with phase := .gate } := by
  simp [State.admitRead, h, hg, ho]

theorem State.admitRead_waits (h : s.gateStalled w.stamp = false) (hg : s.readMayGo w = false) : s.admitRead w =
    ({ s with glen := { s.glen with waits := inc64 s.glen.waits } }).updWork w.stamp fun w => { w with phase := .gate } := by
  simp only [State.admitRead, hg, Bool.and_false]
  rw [if_neg (by simp [h])]
  rfl

end

end Sys2Proof.Machine

namespace Sys2Proof

open Machine

/-- Settles O33: each row is alone in its grain and starts (`executes_of_startData`), and the lemma of its way into the gate spells what that
leaves. -/
theorem dataCommandsEnterTheGate : Obligations.DataCommandsEnterTheGate := by
  refine ⟨?write, fun s b u c w hp hc hu => ⟨?read, fun h => ?flush⟩⟩
  case write =>
    intro s b u c w op row hrow h hp hc hd hu
    obtain ⟨hi, hadmin, hopw, hkind⟩ : exec (row c true) s = s.command (withOpcode op c) true ∧ isAdminOp (BitVec.ofNat 8 op).toNat = false ∧
        (BitVec.ofNat 8 op).toNat = op ∧ isWriteOp op = true := by
      fin_cases hrow <;> exact ⟨rfl, rfl, rfl, rfl⟩
    have hop : w.op = op := (op_of_alone_data h hadmin).trans hopw
    have run {t : State} (ht : u.admitWrite w = t) : Executes (row c true) s t :=
      executes_of_startData hi h hadmin hc (hop ▸ hd) (.inl hp) (by rw [← hu, State.startData_write (hop ▸ hkind), ht])
    rw [← hop]
    refine ⟨fun hstall => run (State.admitWrite_stalled hstall), fun hstall =>
      ⟨fun v huses => run (State.admitWrite_exhausted hstall huses), ?joins, fun v z first huses hjoin =>
        run (State.admitWrite_refused hstall huses hjoin)⟩⟩
    rintro v z _ first _ huses hjoin rfl rfl
    have joined := State.admitWrite_joined hstall huses hjoin
    exact ⟨fun hgo => run (joined.trans (if_pos hgo)), fun hwait => run (joined.trans (if_neg (ne_true_of_eq_false hwait)))⟩
  case read =>
    intro op row hrow h
    obtain ⟨hi, hadmin, hopw, hkind, hne⟩ : exec (row c true) s = s.command (withOpcode op c) true ∧
        isAdminOp (BitVec.ofNat 8 op).toNat = false ∧ (BitVec.ofNat 8 op).toNat = op ∧ isReadOp op = true ∧ op ≠ 0x13 := by
      fin_cases hrow <;> exact ⟨rfl, rfl, rfl, rfl, by decide⟩
    have hop : w.op = op := (op_of_alone_data h hadmin).trans hopw
    have hfree : u.orderHeld w = false := by rw [hu, State.orderHeld_addWork, h.free]
    have run {t : State} (ht : u.admitRead w = t) : Executes (row c true) s t :=
      executes_of_startData hi h hadmin hc (fun hd => absurd (hop.symm.trans hd) hne) (.inl hp)
        (by rw [← hu, State.startData_read (hop ▸ hkind), ht])
    exact ⟨fun hstall => run (State.admitRead_stalled hstall), fun hstall hgo => run (State.admitRead_free hstall hfree hgo),
      fun hstall hwait => run (State.admitRead_waits hstall hwait)⟩
  case flush =>
    have hop : w.op = 0x20 := op_of_alone_data h rfl
    have hfree : u.orderHeld w = false := by rw [hu, State.orderHeld_addWork, h.free]
    exact executes_of_startData rfl h rfl hc (fun hd => absurd (hop.symm.trans hd) (by decide)) (.inl hp)
      (by rw [← hu, State.startData_flush hfree hop])

end Sys2Proof
end

section
/-! The commands that only answer (R87, R90, R94, R98, R101, R261, R353, R373). -/

namespace Sys2Proof.Machine

section
variable {s b t : State} {c : Submission} {w : Work} {i : Instr}

/-! ## Data that an admin command returns (R94, R113) -/

variable {data : Bytes} {r : Result}

theorem State.returns_short (h : w.desc.valLen.toNat < data.length) :
    s.returns w data r = s.deliver w { status := .invalidField, detail := 8, commit := w.stamp } := by
  rw [State.returns, if_pos h]
  rfl

theorem State.returns_mgmt (h : data.length ≤ w.desc.valLen.toNat) (hc : w.carrier = .mgmt) :
    s.returns w data r = s.deliver { w with data := data } { r with commit := w.stamp } := by
  rw [State.returns, if_neg (Nat.not_lt.2 h), hc]

theorem State.returns_ring {f : Nat} {p : List (Nat × Nat)} (h : data.length ≤ w.desc.valLen.toNat) (hc : w.carrier = .admin f)
    (hp : valuePieces w.sub w.desc.valLen.toNat = .ok p) :
    s.returns w data r = s.addWork { w with phase := .dma, data := data, ponr := true, result := { r with commit := w.stamp } } := by
  rw [State.returns, if_neg (Nat.not_lt.2 h), hc]
  simp only [hp]

/-! ## HEALTH_GET (R157, R261) -/

theorem State.healthGet_page (h : (w.desc.param 0x20 1, data) ∈ ([(0, b.healthSummary), (1, b.delta.health.errors),
    (2, b.delta.health.history), (3, b.healthDies), (4, b.delta.rebuildPage), (5, b.index.holdsPage)] : List (Nat × Bytes))) :
    b.healthGet w = b.returns w data { length := data.length } := by
  simp only [List.mem_cons, Prod.mk.injEq, List.not_mem_nil, or_false] at h
  rcases h with ⟨h, hd⟩ | ⟨h, hd⟩ | ⟨h, hd⟩ | ⟨h, hd⟩ | ⟨h, hd⟩ | ⟨h, hd⟩ <;> simp only [State.healthGet, h, hd]

theorem State.healthGet_session {x : Session} (h6 : w.desc.param 0x20 1 = 6) (hroom : 160 ≤ w.desc.valLen.toNat)
    (hx : b.session? (w.desc.param 0x22 2) = some x) (hs : x.state ≠ .resolving) (hf : x.fn = w.fn) :
    b.healthGet w = b.returns w (x.page (w.desc.param 0x22 2)) { length := (x.page (w.desc.param 0x22 2)).length } := by
  simp only [State.healthGet, h6, hx]
  rw [if_neg (Nat.not_lt.2 hroom), if_neg hs, if_neg (by simp [hf])]

/-! ## IDENTIFY (R101) -/

theorem State.identify_device (h0 : w.desc.param 0x20 1 = 0) : b.identify w = b.returns w b.devicePage { length := 4096 } := by
  simp only [State.identify, h0]

theorem State.identify_namespace {n : Namespace} (h1 : w.desc.param 0x20 1 = 1) (hn : b.spaceAt w.desc.ns.toNat w.stamp = some n) :
    b.identify w = b.returns w (b.nsPage w.desc.ns.toNat n) { length := 4096 } := by
  simp only [State.identify, h1, hn]

/-! ## RECORD_READ (R353) -/

section
variable {bytes : Bytes} {n : Nat} (hf : w.fn = 0) (ha : w.desc.stampArg = 0)
include hf ha

/-- From the oldest record on. -/
theorem State.recordRead_records (h0 : w.desc.param 0x20 1 = 0)
    (ht : takeWhole w.desc.valLen.toNat (b.terrace.held.map Record.bytes) = (bytes, n)) :
    b.recordRead w = b.returns w bytes { length := bytes.length, detail := n } := by
  simp [State.recordRead, hf, h0, State.recordRecords, ha, ht]

/-- From the oldest flushed page on. -/
theorem State.recordRead_pages (h1 : w.desc.param 0x20 1 = 1) (hroom : 16384 ≤ w.desc.valLen.toNat) (hp : b.terrace.pages ≠ [])
    (ht : takeWhole w.desc.valLen.toNat (b.terrace.pages.map RecPage.bytes) = (bytes, n)) :
    b.recordRead w = b.returns w bytes { length := bytes.length, detail := n } := by
  obtain ⟨p, l, hpages⟩ := List.exists_cons_of_ne_nil hp
  rw [hpages, List.map_cons] at ht
  simp [State.recordRead, hf, h1, State.recordPages, Nat.not_lt.2 hroom, ha, hpages, ht]

end

/-! ## The commands' rows -/

theorem executes_timeGet (hi : exec i s = s.command (withOpcode 0xA1 c) true) (h : Alone s (withOpcode 0xA1 c) b w)
    (ht : b.timeGet w = t) : Executes i s t :=
  executes_of_adminRun hi h rfl (by rwa [State.adminRun, op_of_alone h rfl])

theorem executes_healthGet (hi : exec i s = s.command (withOpcode 0xA0 c) true) (h : Alone s (withOpcode 0xA0 c) b w)
    (ht : b.healthGet w = t) : Executes i s t :=
  executes_of_adminRun hi h rfl (by rwa [State.adminRun, op_of_alone h rfl])

theorem executes_fwStatus (hi : exec i s = s.command (withOpcode 0xB2 c) true) (h : Alone s (withOpcode 0xB2 c) b w)
    (ht : b.fwStatus w = t) : Executes i s t :=
  executes_of_adminRun hi h rfl (by rwa [State.adminRun, op_of_alone h rfl])

theorem executes_identify (hi : exec i s = s.command (withOpcode 0xC1 c) true) (h : Alone s (withOpcode 0xC1 c) b w)
    (ht : b.identify w = t) : Executes i s t :=
  executes_of_adminRun hi h rfl (by rwa [State.adminRun, op_of_alone h rfl])

theorem executes_recordRead (hi : exec i s = s.command (withOpcode 0xA8 c) true) (h : Alone s (withOpcode 0xA8 c) b w)
    (ht : b.recordRead w = t) : Executes i s t :=
  executes_of_adminRun hi h rfl (by rwa [State.adminRun, op_of_alone h rfl])

/-- The selector, page or mode that a row names in its first parameter byte. -/
theorem selector_of_alone {op v : Nat} (h : Alone s (withOpcode op (withParam 0x20 v c)) b w)
    (hop : isAdminOp (BitVec.ofNat 8 op).toNat = true) : w.desc.param 0x20 1 = v % 256 := by
  rw [desc_of_alone h hop, withOpcode_param, withParam_param v c (by norm_num) (by norm_num)]

end

end Sys2Proof.Machine

namespace Sys2Proof

open Machine

/-- Settles O23: NOP and ABORT start at once (`executes_of_startData`), an admin read leaves what its command's meaning leaves
(`executes_of_adminRun`), and the lemma of the page, selector or mode spells the data. -/
theorem readingCommandsAnswer : Obligations.ReadingCommandsAnswer := by
  refine ⟨fun s b c w => ⟨fun h hp hc => ?nop, fun n d t h hc hn ht => ?abort, fun h => executes_timeGet rfl h rfl, fun data h hmem =>
      executes_healthGet rfl h (State.healthGet_page hmem), fun x h h6 hroom hx hs hf =>
      executes_healthGet rfl h (State.healthGet_session h6 hroom hx hs hf), fun h => executes_fwStatus rfl h rfl, fun h =>
      executes_identify rfl h (State.identify_device (selector_of_alone h rfl)), fun n h _ _ hn =>
      executes_identify rfl h (State.identify_namespace (selector_of_alone h rfl) hn), fun bytes n h hf ha ht =>
      executes_recordRead rfl h (State.recordRead_records hf ha (selector_of_alone h rfl) ht), fun bytes n h hf ha hroom hp ht =>
      executes_recordRead rfl h (State.recordRead_pages hf ha (selector_of_alone h rfl) hroom hp ht)⟩, fun s w data r =>
    ⟨State.returns_short, State.returns_mgmt, fun f p => State.returns_ring⟩⟩
  case nop =>
    have hop : w.op = 0x22 := op_of_alone_data h rfl
    have hfree := (b.orderHeld_addWork w).trans h.free
    exact executes_of_startData rfl h rfl hc (fun hd => absurd (hop.symm.trans hd) (by decide)) (.inl hp) (State.startData_nop hfree hop)
  case abort =>
    have hop : w.op = 0x21 := op_of_alone_data h rfl
    have hfree := (b.orderHeld_addWork w).trans h.free
    exact executes_of_startData rfl h rfl hc (fun hd => absurd (hop.symm.trans hd) (by decide)) (.inr (by omega))
      ((State.startData_abort hfree hop hn).trans (by rw [ht]))

end Sys2Proof
end

section
/-! Queue contexts and sessions (R95, R118, R132 to R134). -/

namespace Sys2Proof.Machine

section
variable {s b t : State} {c : Submission} {w : Work} {i : Instr}

/-! ## QUEUE_CREATE (R95) -/

/-- The ring that a QUEUE_CREATE describes. -/
def createdRing (d : Descriptor) (fn : Nat) : Ring :=
  { fn := fn, sqBase := d.stampArg.toNat, cqBase := d.valAddr.toNat, sqSize := d.param 0x22 1, cqSize := d.param 0x23 1
    vector := d.param 0x24 2, intr := d.param 0x26 2 = 1 }

/-- The context that a QUEUE_CREATE names, or the lowest free one. -/
theorem State.queueCreate_bound {n : Nat} (hsq : w.desc.stampArg.toNat % 4096 = 0) (hcq : w.desc.valAddr.toNat % 4096 = 0)
    (hsize : 4 ≤ w.desc.param 0x22 1 ∧ w.desc.param 0x22 1 ≤ 16) (hsize' : 4 ≤ w.desc.param 0x23 1 ∧ w.desc.param 0x23 1 ≤ 16)
    (hvector : w.desc.param 0x24 2 ≤ maxVector w.fn) (hintr : w.desc.param 0x26 2 < 2) (hzero : w.desc.param 0x28 24 = 0)
    (hn : w.desc.param 0x20 2 = n ∧ n < 4096 ∨ w.desc.param 0x20 2 = 0xFFFF ∧ b.freeContext = some n) (hused : b.contextUsed n = false) :
    b.queueCreate w = ((b.clearCounts n).updHost fun h => { h with rings := mapSet h.rings n (createdRing w.desc w.fn) }).deliver w
      { commit := w.stamp, length := n } := by
  have hctx : w.desc.param 0x20 2 < 4096 ∨ w.desc.param 0x20 2 = 0xFFFF := by omega
  have hfail : firstFail [(decide (w.desc.stampArg.toNat % 4096 = 0), badField 0x10), (decide (w.desc.valAddr.toNat % 4096 = 0), badField 0x18),
      (decide (w.desc.param 0x20 2 < 4096) || decide (w.desc.param 0x20 2 = 0xFFFF), badField 0x20),
      (decide (4 ≤ w.desc.param 0x22 1 ∧ w.desc.param 0x22 1 ≤ 16), badField 0x22),
      (decide (4 ≤ w.desc.param 0x23 1 ∧ w.desc.param 0x23 1 ≤ 16), badField 0x23),
      (decide (w.desc.param 0x24 2 ≤ maxVector w.fn), badField 0x24), (decide (w.desc.param 0x26 2 < 2), badField 0x26),
      (decide (w.desc.param 0x28 24 = 0), badField 0x28)] = none :=
    firstFail_none (by simp [hsq, hcq, hctx, hsize, hsize', hvector, hintr, hzero])
  simp only [State.queueCreate, hfail]
  rcases hn with ⟨rfl, hlt⟩ | ⟨hany, hfree⟩
  · rw [if_neg (by simp [hused]), if_neg (by omega)]
    rfl
  · rw [if_neg (by simp [hany]), if_pos hany, hfree]
    rfl

/-! ## QUEUE_RESET and QUEUE_DELETE (R118) -/

theorem State.queueReset_bound {r : Ring} (hr : b.ring? (w.desc.param 0x20 2) = some r) (hf : r.fn = w.fn) :
    b.queueReset w = ((b.resetContext (w.desc.param 0x20 2) w.stamp).resetRing (w.desc.param 0x20 2)).addWork { w with phase := .admin } := by
  simp only [State.queueReset, hr]
  rw [if_neg (by simp [hf])]

/-! ## SESSION_OPEN (R132, R133) -/

section
variable {block : Bytes} {n : Nat} {x : Session} (hb : w.block 128 = .ok block) (hf : b.sessionBlockFail block = none)
  (hplain : bitOf (field block 1 1) 0 = false) (hn : b.freeContext = some n)
  {p : SessionParams} (hp : p = sessionParams block (((b.fn w.fn).kek.bind fun k => Config.unwrapKey k (slice block 0x38 40)).getD 0))
  (hx : x = { state := .resolving, fn := w.fn, params := p, seg := p.segment (b.port p.port).config.maxFrame, closer := some w.stamp })
  (ht : t = ((b.clearCounts n).updWire fun k => { k with sessions := mapSet k.sessions n x }).addWork { w with phase := .admin })
include hb hf hplain hn hp hx ht

/-- A session without SECURE is bound; whether its client's address is held decides how it goes on. -/
theorem State.sessionOpen_bound : b.sessionOpen w = if (b.macOf p.port p.dstIp p.srcIp).isSome then t.openSession n
    else t.neighbourRequest p.port p.dstIp (b.nextHop p.port p.dstIp p.srcIp) := by
  subst hp hx ht
  simp only [State.sessionOpen, hb, hf, hplain, hn]
  rw [if_neg (by simp), if_neg (by simp)]
  rfl

theorem State.sessionOpen_unresolved (hm : b.macOf p.port p.dstIp p.srcIp = none) :
    b.sessionOpen w = t.neighbourRequest p.port p.dstIp (b.nextHop p.port p.dstIp p.srcIp) := by
  rw [State.sessionOpen_bound hb hf hplain hn hp hx ht, hm]
  rfl

theorem State.sessionOpen_resolved {m : BitVec 48} (hm : b.macOf p.port p.dstIp p.srcIp = some m) : b.sessionOpen w = t.openSession n := by
  rw [State.sessionOpen_bound hb hf hplain hn hp hx ht, hm]
  rfl

end

/-! ## SESSION_CLOSE (R134) -/

theorem State.sessionClose_open {x : Session} (hx : b.session? (w.desc.param 0x20 2) = some x) (hf : x.fn = w.fn) (ho : x.state = .open_) :
    b.sessionClose w = (b.addWork { w with phase := .admin }).closeSession (w.desc.param 0x20 2) 4 w.stamp (some w.stamp) := by
  simp only [State.sessionClose, hx]
  rw [if_neg (by simp [hf]), if_neg (by simp [ho])]

/-! ## The commands' rows -/

theorem executes_queueCreate (hi : exec i s = s.command (withOpcode 0x80 c) true) (h : Alone s (withOpcode 0x80 c) b w)
    (ht : b.queueCreate w = t) : Executes i s t :=
  executes_of_adminRun hi h rfl (by rwa [State.adminRun, op_of_alone h rfl])

theorem executes_queueDelete (hi : exec i s = s.command (withOpcode 0x81 c) true) (h : Alone s (withOpcode 0x81 c) b w)
    (ht : b.queueReset w = t) : Executes i s t :=
  executes_of_adminRun hi h rfl (by rwa [State.adminRun, op_of_alone h rfl])

theorem executes_queueReset (hi : exec i s = s.command (withOpcode 0x82 c) true) (h : Alone s (withOpcode 0x82 c) b w)
    (ht : b.queueReset w = t) : Executes i s t :=
  executes_of_adminRun hi h rfl (by rwa [State.adminRun, op_of_alone h rfl])

theorem executes_sessionOpen (hi : exec i s = s.command (withOpcode 0x98 c) true) (h : Alone s (withOpcode 0x98 c) b w)
    (ht : b.sessionOpen w = t) : Executes i s t :=
  executes_of_adminRun hi h rfl (by rwa [State.adminRun, op_of_alone h rfl])

theorem executes_sessionClose (hi : exec i s = s.command (withOpcode 0x99 c) true) (h : Alone s (withOpcode 0x99 c) b w)
    (ht : b.sessionClose w = t) : Executes i s t :=
  executes_of_adminRun hi h rfl (by rwa [State.adminRun, op_of_alone h rfl])

end

end Sys2Proof.Machine

namespace Sys2Proof

open Machine

/-- Settles O24: each row is alone in its grain, so it leaves what its command's meaning leaves (`executes_of_adminRun`), which the lemma of
that command spells for the condition at hand. -/
theorem contextAndSessionCommands : Obligations.ContextAndSessionCommands := by
  rintro s b c w _ rfl
  refine ⟨?create, ?reset, fun block n p x t h hb hf hplain hn hp hx ht => ⟨fun hm => ?unresolved, fun m hm => ?resolved⟩,
    fun x h hx hf ho => executes_sessionClose rfl h (State.sessionClose_open hx hf ho)⟩
  case create =>
    rintro n _ h hsq hcq hlow hhigh hlow' hhigh' hvector hintr hzero hn hused rfl
    exact executes_queueCreate rfl h
      (State.queueCreate_bound hsq hcq ⟨hlow, hhigh⟩ ⟨hlow', hhigh'⟩ hvector hintr hzero hn hused)
  case reset =>
    rintro r _ hr hf rfl
    exact ⟨fun h => executes_queueReset rfl h (State.queueReset_bound hr hf),
      fun h => executes_queueDelete rfl h (State.queueReset_bound hr hf)⟩
  case unresolved => exact executes_sessionOpen rfl h (State.sessionOpen_unresolved hb hf hplain hn hp hx ht hm)
  case resolved => exact executes_sessionOpen rfl h (State.sessionOpen_resolved hb hf hplain hn hp hx ht hm)

end Sys2Proof
end

section
/-! FW_DOWNLOAD, FW_ACTIVATE and FW_CONFIRM (R100, R361, R362, R369). -/

namespace Sys2Proof.Machine

section
variable {s b t : State} {c : Submission} {w : Work} {i : Instr}

/-! ## FW_DOWNLOAD (R100) -/

theorem State.fwDownload_staged {data : Bytes} (ha : b.update.active = none) (hq : b.update.quiesce = 0) (hlow : 1 ≤ w.desc.valLen.toNat)
    (hhigh : w.desc.valLen.toNat ≤ 1048576) (hsector : w.desc.stampArg.toNat % 4096 = 0)
    (hroom : w.desc.stampArg.toNat + w.desc.valLen.toNat ≤ Config.stagingSize) (hdata : w.block w.desc.valLen.toNat = .ok data) :
    b.fwDownload w = (b.stage w.desc.stampArg.toNat data).deliver w { commit := w.stamp, length := data.length } := by
  have hfail : downloadFail w.desc = none := firstFail_none (by simp [hlow, hhigh, hsector, hroom])
  simp only [State.fwDownload, hfail, hdata]
  rw [if_neg (by simp [ha, hq])]
  rfl

/-! ## FW_ACTIVATE (R361, R362) -/

/-- R361: the lock's reason stands first. -/
theorem State.activateRefusal_locked (hl : b.spi.lock = true) : b.activateRefusal = some 2 := if_pos hl

section
variable (hl : b.spi.lock = false)
include hl

theorem State.activateRefusal_testing (hr : b.test.run ≠ none) : b.activateRefusal = some 4 := by
  rw [State.activateRefusal, if_neg (by simp [hl]), if_pos (Option.isSome_iff_ne_none.2 hr)]

variable (hr : b.test.run = none)
include hr

theorem State.activateRefusal_paired (hp : b.cluster.pairs ≠ []) : b.activateRefusal = some 3 := by
  rw [State.activateRefusal, if_neg (by simp [hl]), if_neg (by simp [hr]), if_pos (by simp [hp])]

theorem State.activateRefusal_unpaired (hp : b.cluster.pairs = []) :
    b.activateRefusal = if b.pins.holdupStable then none else some 1 := by
  rw [State.activateRefusal, if_neg (by simp [hl]), if_neg (by simp [hr]), if_neg (by simp [hp])]
  cases b.pins.holdupStable <;> rfl

end

theorem State.fwActivate_busy (h : b.update.active ≠ none ∨ b.update.quiesce ≠ 0 ∨ b.inTrial = true) :
    b.fwActivate w = b.deliver w { status := .conditionFailed, commit := w.stamp } := by
  rw [State.fwActivate, if_pos (by rwa [Option.isSome_iff_ne_none]), State.refuse_eq]

section
variable (ha : b.update.active = none) (hq : b.update.quiesce = 0) (ht : b.inTrial = false)
include ha hq ht

theorem State.fwActivate_begun (h : b.activateRefusal = none) : b.fwActivate w =
    ({ b with update := { b.update with active := some w.stamp, preparing := true, progress := 0 } }).addWork { w with phase := .admin } := by
  rw [State.fwActivate, if_neg (by simp [ha, hq, ht]), h]
  rfl

theorem State.fwActivate_refused {reason : Nat} (h : b.activateRefusal = some reason) : b.fwActivate w =
    (b.raise 209 0 w.stamp 0xC00 (eventData [(1, reason), (1, b.update.running)])).deliver w
      { status := .updateRefused, detail := reason, commit := w.stamp } := by
  rw [State.fwActivate, if_neg (by simp [ha, hq, ht]), h]
  rfl

end

/-! ## FW_CONFIRM (R369) -/

/-- A fuse advance leaves the running slot. -/
theorem State.fuseAdvance_running (s : State) (ok : Bool) : (s.fuseAdvance ok).update.running = s.update.running := by
  simp only [State.fuseAdvance]
  split <;> rfl

theorem State.fwConfirm_confirmed {target : Nat} {u : State} (ht : b.inTrial = true) (he : b.update.expired = false)
    (htarget : target = field (b.manifestAt (slotBase b.update.running)) 8 4)
    (hu : u = ((b.writeUp fun u => { u with state := .confirmed, outcome := 2, target := target, deadline := 0 }).updUpdate
      fun u => { u with outcome := 2 }).fuseAdvance true) : b.fwConfirm w =
    (u.raise 214 0 w.stamp 0xC02 (eventData [(1, b.update.running), (4, target)])).deliver w { commit := w.stamp } := by
  have hrunning : u.update.running = b.update.running := by rw [hu, State.fuseAdvance_running]; rfl
  simp only [State.fwConfirm, ← htarget, ← hu, hrunning]
  rw [if_neg (by simp [ht, he]), State.ok_eq]

theorem State.fwConfirm_refused (ht : b.inTrial = false) :
    b.fwConfirm w = b.deliver w { status := .conditionFailed, commit := w.stamp } := by
  rw [State.fwConfirm, if_pos (by simp [ht]), State.refuse_eq]

/-! ## The commands' rows -/

theorem executes_fwDownload (hi : exec i s = s.command (withOpcode 0xB0 c) true) (h : Alone s (withOpcode 0xB0 c) b w)
    (ht : b.fwDownload w = t) : Executes i s t :=
  executes_of_adminRun hi h rfl (by rwa [State.adminRun, op_of_alone h rfl])

theorem executes_fwActivate (hi : exec i s = s.command (withOpcode 0xB1 c) true) (h : Alone s (withOpcode 0xB1 c) b w)
    (ht : b.fwActivate w = t) : Executes i s t :=
  executes_of_adminRun hi h rfl (by rwa [State.adminRun, op_of_alone h rfl])

theorem executes_fwConfirm (hi : exec i s = s.command (withOpcode 0xB3 c) true) (h : Alone s (withOpcode 0xB3 c) b w)
    (ht : b.fwConfirm w = t) : Executes i s t :=
  executes_of_adminRun hi h rfl (by rwa [State.adminRun, op_of_alone h rfl])

end

end Sys2Proof.Machine

namespace Sys2Proof

open Machine

/-- Settles O27: each row is alone in its grain, so it leaves what its command's meaning leaves (`executes_of_adminRun`), which the lemma of
that command spells; the reasons of a refusal are the branches of `State.activateRefusal` in their order. -/
theorem firmwareCommands : Obligations.FirmwareCommands := by
  intro s b c w
  refine ⟨?download, fun h ha hq ht => ⟨fun hr => ?begun, fun reason hr => ?refused⟩,
    ⟨State.activateRefusal_locked, State.activateRefusal_testing, State.activateRefusal_paired, fun hl hr hp hh => ?unstable,
      fun hl hr hp hh => ?ready⟩, fun hbusy h => executes_fwActivate rfl h (State.fwActivate_busy hbusy), ?confirmed,
    fun h ht => executes_fwConfirm rfl h (State.fwConfirm_refused ht)⟩
  case download =>
    rintro data h ha hq hlow hhigh hsector hroom hdata _ rfl
    exact executes_fwDownload rfl h (State.fwDownload_staged ha hq hlow hhigh hsector hroom hdata)
  case begun => exact executes_fwActivate rfl h (State.fwActivate_begun ha hq ht hr)
  case refused => exact executes_fwActivate rfl h (State.fwActivate_refused ha hq ht hr)
  case unstable => rw [State.activateRefusal_unpaired hl hr hp, hh]; rfl
  case ready => rw [State.activateRefusal_unpaired hl hr hp, hh]; rfl
  case confirmed =>
    exact fun target u h ht he htarget hu => executes_fwConfirm rfl h (State.fwConfirm_confirmed ht he htarget hu)

end Sys2Proof
end

section
/-! Registers written as commands (R5, R105, R106): a register row acts on the state in which its function is seen; what a function's page
holds after changes of it, and what a discarded access or doorbell leaves (R5, R109, R112, R122). -/

namespace Sys2Proof

theorem mapSet_mapSet {α : Type} (m : NatMap α) (n : Nat) (v w : α) : mapSet (mapSet m n v) n w = mapSet m n w := by
  induction m with
  | nil => simp [mapSet]
  | cons e m ih =>
    obtain ⟨k, x⟩ := e
    rcases lt_trichotomy n k with h | rfl | h
    · simp [mapSet, h]
    · simp [mapSet]
    · simp [mapSet, ih, Nat.not_lt.2 h.le, h.ne']

namespace Machine

section
variable {s t : State}

/-! ## A register row -/

/-- Where the blocks respond, a register row has its effect on the state in which the accessing function is seen (log entry 15). -/
theorem acts_atRegister {i : Instr} {fn bar a : Nat} {g : State → State} (hp : s.powered = true) (hm : s.mode.running = true)
    (hi : exec i s = s.act s.powered fun s => s.atRegister fn bar a g) (h : g (s.fnSeen fn) = t) : Acts i s t :=
  acts_of_act hp hi (by rw [State.atRegister, if_pos (State.responds_of_running hm), h])

@[simp] theorem State.fnSeen_fn (s : State) (f k : Nat) : (s.fnSeen f).fn k = s.fn k := rfl
@[simp] theorem State.fnSeen_ring? (s : State) (f n : Nat) : (s.fnSeen f).ring? n = s.ring? n := rfl

/-! ## A function's page -/

/-- Two changes of a function's page are one. -/
theorem State.updFn_updFn (s : State) (f : Nat) (g g' : Fn → Fn) : (s.updFn f g).updFn f g' = s.updFn f fun x => g' (g x) := by
  have hread : mapGet {} (mapUpd {} s.host.fns f g) f = g (s.fn f) := (mapGet_mapUpd ..).trans (if_pos rfl)
  have hfns : mapUpd {} (mapUpd {} s.host.fns f g) f g' = mapUpd {} s.host.fns f fun x => g' (g x) := by
    rw [mapUpd, hread]
    exact mapSet_mapSet ..
  exact congrArg (fun m => ({ s with host := { s.host with fns := m } } : State)) hfns

/-- A change of a function's page is what it makes of the page that stands. -/
theorem State.updFn_congr {f : Nat} {g g' : Fn → Fn} (h : g (s.fn f) = g' (s.fn f)) : s.updFn f g = s.updFn f g' :=
  congrArg (fun x => s.updHost fun k => { k with fns := mapSet k.fns f x }) h

@[simp] theorem State.fn_raise (s : State) (source fn : Nat) (st : Stamp) (type : Nat) (data : BitVec 128) (k : Nat) :
    (s.raise source fn st type data).fn k = s.fn k := by
  rw [State.fn, State.raise_host]
  rfl

/-! ## Discarded accesses and doorbells -/

/-- A count on a function's page with source 97: the count, the raise, and what they leave. -/
theorem State.hostError_counted (s : State) (f ctx kind value : Nat) (g : Fn → Fn) : ∃ t, (s.updFn f g).hostError f ctx kind value 0 = t ∧
    t.fn f = g (s.fn f) ∧ (∀ k, k ≠ f → t.fn k = s.fn k) ∧ t.host.rings = s.host.rings ∧
    { fn := f, source := 97, stamp := 0, data := eventData [(1, f), (2, ctx), (1, kind), (4, value)] } ∈ t.events.raises ∧
    t = { s with host := t.host, events := t.events, terrace := t.terrace } := by
  refine ⟨_, rfl, ?counted, fun k hk => ?others, ?rings, State.raise_mem .., ?frame⟩
  case counted => rw [State.hostError, State.fn_raise, State.fn_updFn, if_pos rfl]
  case others => rw [State.hostError, State.fn_raise, State.fn_updFn, if_neg hk]
  case rings => rw [State.hostError, State.raise_host]; rfl
  case frame =>
    obtain ⟨e, x, h⟩ := (s.updFn f g).raise_frame 97 f 0 0x301 (eventData [(1, f), (2, ctx), (1, kind), (4, value)])
    rw [State.hostError, h]
    rfl

end

end Machine

end Sys2Proof
end

section
/-! Doorbells (R108, R109, R112, R116, R117, R124): a tail within its ring and one beyond it, a head that stands, moves on, or passes what
Ranegal has posted. -/

namespace Sys2Proof.Machine

section
variable {s : State} {f ctx v : Nat}

/-! ## Tails -/

/-- A doorbell brings HELD of a data ring up to date where data rings are fetched; HELD is no matter of an admin ring (R110). -/
def State.heldMatters (s : State) : RingId → Bool
  | .data _ => s.fetchesData
  | .admin _ => false

/-- R109: a tail below the length of a live ring publishes the entries and begins the exit from a power state. -/
theorem State.tailDoorbell_taken (id : RingId) {k : Nat} (hv : v < 2 ^ k) : s.tailDoorbell id f ctx v true k =
    (s.updRingOf id fun r => { r with tail := v }.holdUpdate s.grain (s.heldMatters id)).beginExit := by
  cases id <;> exact if_pos ⟨rfl, hv⟩

theorem State.tailDoorbell_discarded (id : RingId) {live : Bool} {k : Nat} (h : live = false ∨ 2 ^ k ≤ v) :
    s.tailDoorbell id f ctx v live k = s.badDoorbell f ctx 2 v := by
  refine if_neg ?_
  rintro ⟨hlive, hv⟩
  exact h.elim (fun h => by simp [h] at hlive) (Nat.not_le.2 hv)

/-! ## Heads -/

/-- The slots that a head further on in its ring returns. -/
theorem returned_slots {head n len : Nat} (hh : head < len) (hn : n < len) : ((head + n) % len + len - head) % len = n := by
  rcases Nat.lt_or_ge (head + n) len with h | h
  · rw [Nat.mod_eq_of_lt h, show head + n + len - head = n + len by omega, Nat.add_mod_right, Nat.mod_eq_of_lt hn]
  · rw [Nat.mod_eq_sub_mod h, Nat.mod_eq_of_lt (a := head + n - len) (by omega), show head + n - len + len - head = n by omega,
      Nat.mod_eq_of_lt hn]

theorem returned_slots_none {head len : Nat} : (head + len - head) % len = 0 := by rw [Nat.add_sub_cancel_left, Nat.mod_self]

/-- R112: the head that stands has no effect. -/
theorem State.headDoorbell_same (id : RingId) {r : Ring} (hr : r.cqHead < r.cqLen) (hv : v = r.cqHead) :
    s.headDoorbell id f ctx v true r = s := by
  subst hv
  simp only [State.headDoorbell, returned_slots_none]
  rw [if_pos ⟨trivial, hr, Nat.zero_le _⟩, if_pos trivial]

/-- R112, R124: a head further on returns that many posted slots and begins the exit from a power state. -/
theorem State.headDoorbell_further (id : RingId) {r : Ring} {n : Nat} (hr : r.cqHead < r.cqLen) (h0 : 0 < n) (hn : n ≤ r.posted)
    (hlen : n < r.cqLen) (hv : v = (r.cqHead + n) % r.cqLen) : s.headDoorbell id f ctx v true r =
      (s.updRingOf id fun r => { r with cqHead := v, posted := r.posted - n }.holdUpdate s.grain
        (s.heldMatters id)).beginExit := by
  have hback : (v + r.cqLen - r.cqHead) % r.cqLen = n := hv ▸ returned_slots hr hlen
  have hlt : v < r.cqLen := hv ▸ Nat.mod_lt _ (Nat.zero_lt_of_lt hr)
  simp only [State.headDoorbell, hback]
  rw [if_pos ⟨trivial, hlt, hn⟩, if_neg h0.ne']
  cases id <;> rfl

theorem State.headDoorbell_discarded (id : RingId) {live : Bool} {r : Ring}
    (h : live = false ∨ r.cqLen ≤ v ∨ r.posted < (v + r.cqLen - r.cqHead) % r.cqLen) :
    s.headDoorbell id f ctx v live r = s.badDoorbell f ctx 3 v := by
  refine if_neg ?_
  rintro ⟨hlive, hv, hn⟩
  rcases h with h | h | h
  · simp [h] at hlive
  · omega
  · omega

/-! ## Event heads -/

section
variable {e : EventRing} (he : e = (s.fn f).events)
include he

theorem State.eventHead_same (hlive : e.live = true) (hh : e.head < 2 ^ e.size) (hv : v = e.head) : s.eventHead f v = s := by
  subst he hv
  simp only [State.eventHead, returned_slots_none]
  rw [if_pos ⟨hlive, hh, Nat.zero_le _⟩, if_pos trivial]

/-- R112, R117, R124: an event head further on makes room for pending OVERFLOW entries and begins the exit from a power state. -/
theorem State.eventHead_further {n : Nat} (hlive : e.live = true) (hh : e.head < 2 ^ e.size) (h0 : 0 < n)
    (hn : n ≤ (e.tail + 2 ^ e.size - e.head) % 2 ^ e.size) (hv : v = (e.head + n) % 2 ^ e.size) : s.eventHead f v =
      ((s.updFn f fun x => { x with events := { x.events with head := v } }).postOverflow f 256).beginExit := by
  have hback : (v + 2 ^ e.size - e.head) % 2 ^ e.size = n :=
    hv ▸ returned_slots hh (Nat.lt_of_le_of_lt hn (Nat.mod_lt _ (Nat.two_pow_pos _)))
  have hlt : v < 2 ^ e.size := hv ▸ Nat.mod_lt _ (Nat.two_pow_pos _)
  subst he
  simp only [State.eventHead, hback]
  rw [if_pos ⟨hlive, hlt, hn⟩, if_neg h0.ne']

theorem State.eventHead_discarded (h : e.live = false ∨ 2 ^ e.size ≤ v ∨
    (e.tail + 2 ^ e.size - e.head) % 2 ^ e.size < (v + 2 ^ e.size - e.head) % 2 ^ e.size) :
    s.eventHead f v = s.badDoorbell f 0xFFFF 3 v := by
  subst he
  refine if_neg ?_
  rintro ⟨hlive, hv, hn⟩
  rcases h with h | h | h
  · simp [h] at hlive
  · omega
  · omega

end

/-! ## Pages of data rings -/

theorem State.sqTail_bound {r : Ring} (hr : s.ring? ctx = some r) (hf : r.fn = f) :
    s.sqTail f ctx v = s.tailDoorbell (.data ctx) f ctx v true r.sqSize := by simp [State.sqTail, hr, hf]

theorem State.cqHead_bound {r : Ring} (hr : s.ring? ctx = some r) (hf : r.fn = f) :
    s.cqHead f ctx v = s.headDoorbell (.data ctx) f ctx v true r := by simp [State.cqHead, hr, hf]

/-- R105: the page of a context that is not bound to the accessing function is no register. -/
theorem State.doorbell_unbound (h : ∀ r, s.ring? ctx = some r → r.fn ≠ f) :
    s.sqTail f ctx v = s.badAccess f ctx v ∧ s.cqHead f ctx v = s.badAccess f ctx v := by
  cases hr : s.ring? ctx with
  | none => simp [State.sqTail, State.cqHead, hr]
  | some r => simp [State.sqTail, State.cqHead, hr, h r hr]

end

end Sys2Proof.Machine

namespace Sys2Proof

open Machine

/-- Settles O12: each doorbell row has its effect on the state in which its function is seen (`acts_atRegister`), a doorbell's value is
taken, without effect or discarded as its lemma says, and a discarded one leaves what `State.hostError_counted` says. -/
theorem doorbells : Obligations.Doorbells := by
  refine ⟨?tails, ?heads, ?discarded⟩
  case tails =>
    rintro s _ fn value hp hm rfl
    refine ⟨fun ctx r hr hf hv => ?taken, fun ctx r hr hf hv => ?beyond, fun ctx h => ⟨?unboundTail, ?unboundHead⟩, fun hl hv => ?admin,
      fun h => ?adminBad⟩
    case taken =>
      exact acts_atRegister hp hm (exec_sqTail fn ctx value s)
        ((State.sqTail_bound (s := s.fnSeen fn) hr hf).trans (State.tailDoorbell_taken _ hv))
    case beyond =>
      exact acts_atRegister hp hm (exec_sqTail fn ctx value s)
        ((State.sqTail_bound (s := s.fnSeen fn) hr hf).trans (State.tailDoorbell_discarded _ (.inr hv)))
    case unboundTail => exact acts_atRegister hp hm (exec_sqTail fn ctx value s) (State.doorbell_unbound (s := s.fnSeen fn) h).1
    case unboundHead => exact acts_atRegister hp hm (exec_cqHead fn ctx value s) (State.doorbell_unbound (s := s.fnSeen fn) h).2
    case admin =>
      refine acts_atRegister hp hm (exec_adminSqTail fn value s) ?_
      rw [State.adminTail, show ((s.fnSeen fn).fn fn).ctrl.getLsbD 0 = true from hl]
      exact State.tailDoorbell_taken _ hv
    case adminBad => exact acts_atRegister hp hm (exec_adminSqTail fn value s) (State.tailDoorbell_discarded _ h)
  case heads =>
    rintro s _ fn value hp hm rfl
    refine ⟨fun ctx r hr hf hh => ?data, ?admin, fun hl => ?adminDown, ?event, fun hl => ?eventDown⟩
    case data =>
      have head {t : State} (h : (s.fnSeen fn).headDoorbell (.data ctx) fn ctx value.toNat true r = t) : Acts (.cqHead fn ctx value) s t :=
        acts_atRegister hp hm (exec_cqHead fn ctx value s) ((State.cqHead_bound (s := s.fnSeen fn) hr hf).trans h)
      exact ⟨fun hv => head (State.headDoorbell_same _ hh hv),
        fun n h0 hn hlen hv => head (State.headDoorbell_further _ hh h0 hn hlen hv),
        fun h => head (State.headDoorbell_discarded _ (.inr h))⟩
    case admin =>
      rintro _ rfl hl hh
      have head {t : State} (h : (s.fnSeen fn).headDoorbell (.admin fn) fn 0xFFFF value.toNat true (s.fn fn).admin = t) :
          Acts (.adminCqHead fn value) s t := by
        refine acts_atRegister hp hm (exec_adminCqHead fn value s) ?_
        rw [State.adminHead, show ((s.fnSeen fn).fn fn).ctrl.getLsbD 0 = true from hl]
        exact h
      exact ⟨fun hv => head (State.headDoorbell_same _ hh hv),
        fun n h0 hn hlen hv => head (State.headDoorbell_further _ hh h0 hn hlen hv),
        fun h => head (State.headDoorbell_discarded _ (.inr h))⟩
    case adminDown => exact acts_atRegister hp hm (exec_adminCqHead fn value s) (State.headDoorbell_discarded _ (.inl hl))
    case event =>
      rintro e he hl hh
      have head {t : State} (h : (s.fnSeen fn).eventHead fn value.toNat = t) : Acts (.eventHead fn value) s t :=
        acts_atRegister hp hm (exec_eventHead fn value s) h
      exact ⟨fun hv => head (State.eventHead_same (s := s.fnSeen fn) he hl hh hv), fun n h0 hn hv => head (State.eventHead_further (s := s.fnSeen fn) he hl hh h0 hn hv),
        fun h => head (State.eventHead_discarded (s := s.fnSeen fn) he (.inr h))⟩
    case eventDown => exact acts_atRegister hp hm (exec_eventHead fn value s) (State.eventHead_discarded rfl (.inl hl))
  case discarded =>
    intro s f ctx kind value
    obtain ⟨t, ht, hcount, hothers, hrings, hraise, hframe⟩ :=
      s.hostError_counted f ctx kind value fun x => { x with doorErr := satAdd max32 x.doorErr 1 }
    obtain ⟨u, hu, hcount', hothers', hrings', hraise', hframe'⟩ :=
      s.hostError_counted f ctx 1 value fun x => { x with hostErr := satAdd max32 x.hostErr 1 }
    exact ⟨t, u, ht, hu, by rw [hcount]; rfl, by rw [hcount']; rfl, hraise, hraise', fun g hg => ⟨hothers g hg, hothers' g hg⟩, hrings, hrings',
      hframe, hframe'⟩

end Sys2Proof
end

section
/-! Ring enables (R106, R107, R116): an enable bit written with the other value brings its ring up, is refused, or takes it down; written
with the value that it has it changes nothing. -/

namespace Sys2Proof.Machine

section
variable {s : State} {f : Nat} {x : Fn}

/-! ## A ring goes up -/

/-- The code with which ADM_EN is refused for the sizes and the vector of ADM_CFG (R107); 0 where they are good. -/
def Fn.admRefusal (x : Fn) (f : Nat) : Nat :=
  if x.admCfg.toNat % 16 < 4 ∨ 12 < x.admCfg.toNat % 16 then 1
  else if x.admCfg.toNat / 256 % 16 < 4 ∨ 12 < x.admCfg.toNat / 256 % 16 then 2
  else if maxVector f < x.admCfg.toNat / 65536 % 2048 then 4 else 0

/-- The code with which EVT_EN is refused for the size and the vector of EVT_CFG (R107); 0 where they are good. -/
def Fn.evtRefusal (x : Fn) (f : Nat) : Nat :=
  if x.evtCfg.toNat % 16 < 4 ∨ 12 < x.evtCfg.toNat % 16 then 3 else if maxVector f < x.evtCfg.toNat / 65536 % 2048 then 4 else 0

theorem State.clearCounts_updFn (ctx : Nat) (g : Fn → Fn) : (s.updFn f g).clearCounts ctx = (s.clearCounts ctx).updFn f g := rfl
theorem State.dropRaises_updFn (g : Fn → Fn) : (s.updFn f g).dropRaises f = (s.dropRaises f).updFn f g := rfl

section
variable (hx : x = s.fn f)
include hx

theorem State.admEnable_refused {code : Nat} (h : x.admRefusal f = code) (h0 : code ≠ 0) :
    s.admEnable f = (s.updFn f fun x => { x with ctrl := x.ctrl ||| 1#32, admFault := false }).refuseEnable f code 0xFFFFFFFE#32 := by
  subst hx h
  exact if_pos h0

/-- R107, R397: the admin ring comes up empty, and its counts start at 0. -/
theorem State.admEnable_taken (h : x.admRefusal f = 0) : s.admEnable f = (s.clearCounts (4096 + f)).updFn f fun x => { x with
    ctrl := x.ctrl ||| 1#32, admFault := false, admReady := true, admClosing := false, cfgError := false, cfgCode := 0
    admin := { fn := f, sqBase := x.sqBase.toNat, cqBase := x.cqBase.toNat, sqSize := x.admCfg.toNat % 16
               cqSize := x.admCfg.toNat / 256 % 16, vector := x.admCfg.toNat / 65536 % 2048, intr := true } } := by
  subst hx
  refine (if_neg (not_not.2 h)).trans ?_
  rw [State.clearCounts_updFn, State.updFn_updFn]
  exact State.updFn_congr rfl

theorem State.evtEnable_refused {code : Nat} (h : x.evtRefusal f = code) (h0 : code ≠ 0) :
    s.evtEnable f = (s.updFn f fun x => { x with ctrl := x.ctrl ||| 2#32 }).refuseEnable f code 0xFFFFFFFD#32 := by
  subst hx h
  exact if_pos h0

/-- R107, R116: the event ring comes up empty, and what was raised before is not kept for it. -/
theorem State.evtEnable_taken (h : x.evtRefusal f = 0) : s.evtEnable f = (s.dropRaises f).updFn f fun x => { x with
    ctrl := x.ctrl ||| 2#32, evtReady := true, cfgError := false, cfgCode := 0
    events := { live := true, base := x.evtBase.toNat, size := x.evtCfg.toNat % 16, lost := x.events.lost } } := by
  subst hx
  refine (if_neg (not_not.2 h)).trans ?_
  rw [State.dropRaises_updFn, State.updFn_updFn]
  exact State.updFn_congr rfl

end

/-! ## What the admin ring's enable leaves of EVT_EN -/

theorem State.admEnable_evtBit (s : State) (f : Nat) : ((s.admEnable f).fn f).ctrl.getLsbD 1 = (s.fn f).ctrl.getLsbD 1 := by
  by_cases h : (s.fn f).admRefusal f = 0
  · rw [State.admEnable_taken rfl h, State.fn_updFn, if_pos rfl]
    show ((s.fn f).ctrl ||| 1#32).getLsbD 1 = _
    simp
  · rw [State.admEnable_refused rfl rfl h, State.refuseEnable, State.fn_raise, State.updFn_updFn, State.fn_updFn, if_pos rfl]
    simp

theorem State.admDisable_evtBit (s : State) (f : Nat) : ((s.admDisable f).fn f).ctrl.getLsbD 1 = (s.fn f).ctrl.getLsbD 1 := by
  rw [State.admDisable, State.fn_updFn, if_pos rfl]
  show ((s.fn f).ctrl &&& 0xFFFFFFFE#32).getLsbD 1 = _
  simp

/-! ## The enable bits of FN_CTRL -/

/-- What one enable bit does: nothing where it is written with the value that it has, else its ring goes up or down. -/
def State.enableTo (s : State) (old on : Bool) (up down : State) : State := if on = old then s else if on then up else down

theorem bitOf_pair (a e : Bool) : bitOf (b2n a + 2 * b2n e) 0 = a ∧ bitOf (b2n a + 2 * b2n e) 1 = e := by
  cases a <;> cases e <;> decide

/-- FN_CTRL takes ADM_EN first, then EVT_EN. -/
theorem State.fnCtrl_pair (a e : Bool) {t : State}
    (ht : s.enableTo ((s.fn f).ctrl.getLsbD 0) a (s.admEnable f) (s.admDisable f) = t) : s.fnCtrl f (b2n a + 2 * b2n e) =
      t.enableTo ((t.fn f).ctrl.getLsbD 1) e (t.evtEnable f) (t.evtDisable f) := by
  have one (t : State) (old on : Bool) (up down : State) :
      (if on && !old then up else if !on && old then down else t) = t.enableTo old on up down := by
    cases old <;> cases on <;> rfl
  simp only [State.fnCtrl, bitOf_pair, one, ht]

/-- ADM_EN written alone: EVT_EN keeps its value. -/
theorem State.enableBit_adm (on : Bool) :
    s.enableBit f 0 on = s.enableTo ((s.fn f).ctrl.getLsbD 0) on (s.admEnable f) (s.admDisable f) := by
  have hv : s.enableBit f 0 on = s.fnCtrl f (b2n on + 2 * b2n ((s.fn f).ctrl.getLsbD 1)) := by
    cases h : (s.fn f).ctrl.getLsbD 1 <;> simp only [State.enableBit, h] <;> rfl
  have hevt : ((s.enableTo ((s.fn f).ctrl.getLsbD 0) on (s.admEnable f) (s.admDisable f)).fn f).ctrl.getLsbD 1 =
      (s.fn f).ctrl.getLsbD 1 := by
    unfold State.enableTo
    split
    · rfl
    · split
      · exact s.admEnable_evtBit f
      · exact s.admDisable_evtBit f
  rw [hv, State.fnCtrl_pair _ _ rfl, hevt]
  exact if_pos rfl

/-- EVT_EN written alone: ADM_EN keeps its value. -/
theorem State.enableBit_evt (on : Bool) :
    s.enableBit f 1 on = s.enableTo ((s.fn f).ctrl.getLsbD 1) on (s.evtEnable f) (s.evtDisable f) := by
  have hv : s.enableBit f 1 on = s.fnCtrl f (b2n ((s.fn f).ctrl.getLsbD 0) + 2 * b2n on) := by
    cases h : (s.fn f).ctrl.getLsbD 0 <;> simp only [State.enableBit, h] <;> rfl
  rw [hv]
  exact State.fnCtrl_pair _ _ (if_pos rfl)

/-! ## The rows -/

section
variable {t : State} (hp : s.powered = true) (hm : s.mode.running = true)
include hp hm

theorem acts_admEnSet (hb : (s.fn f).ctrl.getLsbD 0 = false) (h : (s.fnSeen f).admEnable f = t) : Acts (.admEnSet f) s t :=
  acts_atRegister hp hm (exec_admEnSet f s) (by rw [State.enableBit_adm, State.fnSeen_fn, hb]; exact h)

theorem acts_admEnClear (hb : (s.fn f).ctrl.getLsbD 0 = true) (h : (s.fnSeen f).admDisable f = t) : Acts (.admEnClear f) s t :=
  acts_atRegister hp hm (exec_admEnClear f s) (by rw [State.enableBit_adm, State.fnSeen_fn, hb]; exact h)

theorem acts_evtEnSet (hb : (s.fn f).ctrl.getLsbD 1 = false) (h : (s.fnSeen f).evtEnable f = t) : Acts (.evtEnSet f) s t :=
  acts_atRegister hp hm (exec_evtEnSet f s) (by rw [State.enableBit_evt, State.fnSeen_fn, hb]; exact h)

theorem acts_evtEnClear (hb : (s.fn f).ctrl.getLsbD 1 = true) (h : (s.fnSeen f).evtDisable f = t) : Acts (.evtEnClear f) s t :=
  acts_atRegister hp hm (exec_evtEnClear f s) (by rw [State.enableBit_evt, State.fnSeen_fn, hb]; exact h)

/-- A bit written with the value that it has changes nothing. -/
theorem acts_admEn_same : ((s.fn f).ctrl.getLsbD 0 = true → Acts (.admEnSet f) s (s.fnSeen f)) ∧
    ((s.fn f).ctrl.getLsbD 0 = false → Acts (.admEnClear f) s (s.fnSeen f)) :=
  ⟨fun hb => acts_atRegister hp hm (exec_admEnSet f s) (by rw [State.enableBit_adm, State.fnSeen_fn, hb]; rfl),
    fun hb => acts_atRegister hp hm (exec_admEnClear f s) (by rw [State.enableBit_adm, State.fnSeen_fn, hb]; rfl)⟩

theorem acts_evtEn_same : ((s.fn f).ctrl.getLsbD 1 = true → Acts (.evtEnSet f) s (s.fnSeen f)) ∧
    ((s.fn f).ctrl.getLsbD 1 = false → Acts (.evtEnClear f) s (s.fnSeen f)) :=
  ⟨fun hb => acts_atRegister hp hm (exec_evtEnSet f s) (by rw [State.enableBit_evt, State.fnSeen_fn, hb]; rfl),
    fun hb => acts_atRegister hp hm (exec_evtEnClear f s) (by rw [State.enableBit_evt, State.fnSeen_fn, hb]; rfl)⟩

end

end

end Sys2Proof.Machine

namespace Sys2Proof

open Machine

/-- Settles O13: each row writes one enable bit and leaves the other (`State.enableBit_adm`, `State.enableBit_evt`); a ring goes up, or is
refused, as the code of its configuration says (`Fn.admRefusal`, `Fn.evtRefusal`). That CFG_CODE is 0 after an enable that succeeds is the
model's reading (log entry 86). -/
theorem ringEnables : Obligations.RingEnables := by
  rintro s _ f _ hp hm rfl rfl
  refine ⟨fun hb hslow hshigh hclow hchigh hv => ?admUp, fun hb h => ?admSubmission, fun code hb hlow hhigh h => ?admOther,
    fun hb hlow hhigh hv => ?evtVector, fun hb hlow hhigh hv => ?evtUp, fun hb h => ?evtSize, fun hb => acts_evtEnClear hp hm hb rfl, ?admDown,
    (acts_admEn_same hp hm).1, (acts_admEn_same hp hm).2, (acts_evtEn_same hp hm).1, (acts_evtEn_same hp hm).2⟩
  case admUp =>
    have hgood : (s.fn f).admRefusal f = 0 := by
      rw [Fn.admRefusal, if_neg (by omega), if_neg (by omega), if_neg (by omega)]
    exact acts_admEnSet hp hm hb (State.admEnable_taken (s := s.fnSeen f) rfl hgood)
  case admSubmission =>
    have hcode : (s.fn f).admRefusal f = 1 := if_pos h
    exact acts_admEnSet hp hm hb (State.admEnable_refused (s := s.fnSeen f) rfl hcode one_ne_zero)
  case admOther =>
    have hsub : ¬((s.fn f).admCfg.toNat % 16 < 4 ∨ 12 < (s.fn f).admCfg.toNat % 16) := by omega
    have hcode : (s.fn f).admRefusal f = code ∧ code ≠ 0 := by
      rcases h with ⟨h, rfl⟩ | ⟨hclow, hchigh, hv, rfl⟩
      · exact ⟨by rw [Fn.admRefusal, if_neg hsub, if_pos h], by decide⟩
      · exact ⟨by rw [Fn.admRefusal, if_neg hsub, if_neg (by omega), if_pos hv], by decide⟩
    exact acts_admEnSet hp hm hb (State.admEnable_refused (s := s.fnSeen f) rfl hcode.1 hcode.2)
  case evtVector =>
    have hcode : (s.fn f).evtRefusal f = 4 := by rw [Fn.evtRefusal, if_neg (by omega), if_pos hv]
    exact acts_evtEnSet hp hm hb (State.evtEnable_refused (s := s.fnSeen f) rfl hcode (by decide))
  case evtUp =>
    have hgood : (s.fn f).evtRefusal f = 0 := by rw [Fn.evtRefusal, if_neg (by omega), if_neg (by omega)]
    exact acts_evtEnSet hp hm hb (State.evtEnable_taken (s := s.fnSeen f) rfl hgood)
  case evtSize =>
    have hcode : (s.fn f).evtRefusal f = 3 := if_pos h
    exact acts_evtEnSet hp hm hb (State.evtEnable_refused (s := s.fnSeen f) rfl hcode (by decide))
  case admDown =>
    rintro _ hb rfl
    exact acts_admEnClear hp hm hb rfl

end Sys2Proof
end

section
/-! The PCIe link, D3hot, MSI-X and the exit from a power state (R115, R121 to R125, R348, R381). -/

namespace Sys2Proof.Machine

section
variable {s : State}

/-! ## The link -/

/-- The link at a speed and width, with the Loopback states that waited for it told (R381). -/
def State.linkAt (s : State) (speed width : Nat) : State :=
  s.updHost fun h => { h with linkSpeed := speed, linkWidth := width, loopPending := [] }

/-- R122: training below Gen5 x16, or a change between two states that are up, is an event. -/
def HostSide.degraded (h : HostSide) (speed width : Nat) : Prop :=
  speed < 5 ∨ width < 16 ∨ h.linkSpeed ≠ 0 ∧ (h.linkSpeed ≠ speed ∨ h.linkWidth ≠ width)

section
variable {speed width : Nat}

theorem State.linkChange_full (h : ¬ s.host.degraded speed width) : s.linkChange speed width =
    s.host.loopPending.foldl (fun s x => s.raiseOnly 226 0 0 (eventData [(1, x)])) (s.linkAt speed width) := by
  obtain ⟨hspeed, hwidth, hsame⟩ := by simpa only [HostSide.degraded, not_or] using h
  simp only [State.linkChange]
  rw [if_neg (by simp only [Bool.or_eq_true, decide_eq_true_eq]; tauto)]
  rfl

theorem State.linkChange_degraded (h : s.host.degraded speed width) (hl : s.host.loopPending = []) : s.linkChange speed width =
    (s.linkAt speed width).raiseDevice 102 0x304 0 (eventData [(1, speed), (1, width)]) := by
  simp only [State.linkChange, hl, List.foldl_nil]
  rw [if_pos (by simpa only [Bool.or_eq_true, decide_eq_true_eq, or_assoc, HostSide.degraded] using h)]
  rfl

theorem acts_pcieLinkChange {t : State} (hp : s.powered = true) (hr : s.host.perst = false) (h : s.linkChange speed width = t) :
    Acts (.pcieLinkChange speed width) s t :=
  acts_of_act hp (exec_pcieLinkChange speed width s) (by rw [if_neg (by simp [hr]), h])

end

/-! ## D3hot and return to D0 -/

section
variable {f : Nat}

theorem State.fnPresent_iff : s.fnPresent f = true ↔ f ≤ s.host.vfs := decide_eq_true_iff

/-- What a function in D3hot has held back is posted: a completion on its ring, an event in the event ring. -/
def State.postHeld (s : State) (f : Nat) : Held → State
  | .post (some c) tag r => s.postEntry (.data c) tag r
  | .post none tag r => s.postEntry (.admin f) tag r
  | .event r => s.enterEvent r

/-- R121: a return to D0 posts what was held, in its order. -/
theorem State.d0_eq : s.d0 f = (s.fn f).heldBack.foldl (State.postHeld · f) (s.updFn f fun x => { x with d3hot := false, heldBack := [] }) := by
  have h : (fun (s : State) p => match p with
      | .post c tag r => s.postEntry (match c with | some c => .data c | none => .admin f) tag r
      | .event r => s.enterEvent r) = (State.postHeld · f) := by
    funext s p
    rcases p with ⟨_ | _, _, _⟩ | _ <;> rfl
  rw [← h]
  rfl

theorem acts_d3hotEntry (hp : s.powered = true) (hf : f ≤ s.host.vfs) : Acts (.d3hotEntry f) s (s.d3hot f) :=
  acts_of_act hp (exec_d3hotEntry f s) (if_pos (State.fnPresent_iff.2 hf))

theorem acts_d0Return {t : State} (hp : s.powered = true) (hf : f ≤ s.host.vfs) (h : s.d0 f = t) : Acts (.d0Return f) s t :=
  acts_of_act hp (exec_d0Return f s) ((if_pos (State.fnPresent_iff.2 hf)).trans h)

theorem acts_absent (hp : s.powered = true) (hf : s.host.vfs < f) : Acts (.d3hotEntry f) s s ∧ Acts (.d0Return f) s s := by
  have habsent : ¬ s.fnPresent f = true := fun h => Nat.not_le.2 hf (State.fnPresent_iff.1 h)
  exact ⟨acts_of_act hp (exec_d3hotEntry f s) (if_neg habsent), acts_of_act hp (exec_d0Return f s) (if_neg habsent)⟩

end

/-! ## MSI-X -/

section
variable {f v : Nat}

/-- A function's page with a vector unmasked. -/
def Fn.unmasked (x : Fn) (v : Nat) : Fn := { x with
  pci := { x.pci with msixEnable := true }
  msix := mapSet x.msix v ((mapGet (0, 0, 1#32) x.msix v).1, (mapGet (0, 0, 1#32) x.msix v).2.1,
    (mapGet (0, 0, 1#32) x.msix v).2.2 &&& 0xFFFFFFFE#32) }

/-- R115: an unmasked vector sends its pending message. -/
theorem State.unmask_pending (h : v ∈ (s.fn f).pendingMsi) (hd : (s.fn f).d3hot = false) (hm : (s.fn f).pci.msixMask = false) :
    s.unmask f v = (s.updFn f fun x => { x.unmasked v with pendingMsi := x.pendingMsi.filter fun k => k != v }).emit (.msix f v) := by
  refine (if_pos ⟨h, by simp [hd], by simp [hm]⟩).trans ?_
  rw [State.updFn_updFn]
  rfl

theorem State.unmask_quiet (h : v ∉ (s.fn f).pendingMsi ∨ (s.fn f).d3hot = true ∨ (s.fn f).pci.msixMask = true) :
    s.unmask f v = s.updFn f fun x => x.unmasked v := by
  refine if_neg ?_
  rintro ⟨hpend, hd, hm⟩
  rcases h with h | h | h
  · exact h hpend
  · simp [h] at hd
  · simp [h] at hm

end

/-! ## The exit from a power state -/

/-- PS0, with the commands that waited for the exit let go. -/
def State.awake (s : State) : State := { s with
  host := { s.host with power := 0, exiting := none }, works := s.works.map fun w => { w with exit := false } }

/-- R124, R125, R348: the exit ends in PS0; from PS3 the sealed slots are flushed, from PS2 and PS3 the sessions get CREDIT. -/
theorem State.exitDone_exiting {p : Nat} (h : s.host.exiting = some p) :
    (p < 2 → s.exitDone = s.awake) ∧ (p = 2 → s.exitDone = s.awake.creditAll) ∧
      (p = 3 → s.exitDone = ((s.awake.raise 103 0 0 0x305 (eventData [(1, 3), (1, 0)])).flushSealed).creditAll) := by
  simp only [State.exitDone, h]
  refine ⟨fun hp => ?_, ?_, ?_⟩
  · rw [if_neg (by omega), if_neg (by omega)]
    rfl
  · rintro rfl
    rfl
  · rintro rfl
    rfl

/-- R348: with no exit under way PS3 is left for PS2 where all 16 slots are sealed (log entry 100). -/
theorem State.exitDone_resting (h : s.host.exiting = none) : s.exitDone =
    if s.host.power = 3 ∧ Config.recorderSlots ≤ s.terrace.sealed.length then
      (((s.updHost fun h => { h with power := 2 }).raise 103 0 0 0x305 (eventData [(1, 3), (1, 2)])).flushSealed).creditAll
    else s := by
  simp only [State.exitDone, h]

theorem State.exitDone_full (h : s.host.exiting = none) (hp : s.host.power = 3) (hl : 16 ≤ s.terrace.sealed.length) : s.exitDone =
    ((({ s with host := { s.host with power := 2 } }).raise 103 0 0 0x305 (eventData [(1, 3), (1, 2)])).flushSealed).creditAll :=
  (State.exitDone_resting h).trans (if_pos ⟨hp, hl⟩)

theorem State.exitDone_idle (h : s.host.exiting = none) (hp : s.host.power ≠ 3 ∨ s.terrace.sealed.length < 16) : s.exitDone = s :=
  (State.exitDone_resting h).trans (if_neg fun ⟨hp', hl⟩ => hp.elim (· hp') (Nat.not_lt.2 hl))

end

end Sys2Proof.Machine

namespace Sys2Proof

open Machine

/-- Settles O49: each row acts where the device is supplied, and the lemma of its operation says what it leaves. That source 102 waits for
REBUILD, and is not raised at Gen5 x16 from down, is the model's reading (log entries 73 and 74). -/
theorem linkAndFunctionStates : Obligations.LinkAndFunctionStates := by
  intro s hp
  refine ⟨?link, fun speed width hr => ?held, ?stopped, fun f hf => ⟨acts_d3hotEntry hp hf, fun h => ?nothing, fun c a p e h => ?eventFirst,
    fun a p e h => ?postFirst⟩, fun f hf => acts_absent hp hf, ?unmask, ?exit, fun hm he => ⟨fun h3 hl => ?slotsFull, fun h => ?idle⟩⟩
  case link =>
    rintro speed width _ hr hm rfl
    refine ⟨fun hs hw hsame hl => ?full, fun h hl => ?degraded, fun hs hw hdown a b hl => ?loopback⟩
    case full =>
      refine acts_pcieLinkChange hp hr ((State.linkChange_full ?_).trans (by rw [hl]; rfl))
      simp only [HostSide.degraded]; omega
    case degraded =>
      exact acts_pcieLinkChange hp hr ((State.linkChange_degraded h hl).trans (State.raiseDevice_running (s := s.linkAt speed width) hm ..))
    case loopback =>
      refine acts_pcieLinkChange hp hr ((State.linkChange_full ?_).trans (by rw [hl]; rfl))
      simp only [HostSide.degraded]; omega
  case held => exact acts_of_act hp (exec_pcieLinkChange speed width s) (if_pos hr)
  case stopped =>
    rintro speed width hr hm hl h
    exact acts_pcieLinkChange hp hr ((State.linkChange_degraded (h.imp_right .inl) hl).trans
      (State.raiseDevice_stopped (s := s.linkAt speed width) hm ..))
  case nothing => exact acts_d0Return hp hf (State.d0_eq.trans (by rw [h]; rfl))
  case eventFirst => exact acts_d0Return hp hf (State.d0_eq.trans (by rw [h]; rfl))
  case postFirst => exact acts_d0Return hp hf (State.d0_eq.trans (by rw [h]; rfl))
  case unmask =>
    rintro hm fn v _ rfl
    exact ⟨fun h hd hk => acts_atRegister hp hm (exec_msixVectorUnmask fn v s) (State.unmask_pending (s := s.fnSeen fn) h hd hk),
      fun h => acts_atRegister hp hm (exec_msixVectorUnmask fn v s) (State.unmask_quiet (s := s.fnSeen fn) h)⟩
  case exit =>
    rintro hm p _ he rfl
    obtain ⟨hshallow, htwo, hthree⟩ := State.exitDone_exiting he
    have row {t : State} (h : s.exitDone = t) : Acts .powerStateExitDone s t :=
      acts_of_act (State.cored_iff.2 ⟨hp, hm⟩) (exec_powerStateExitDone s) h
    exact ⟨fun h => row (hshallow h), fun h => row (htwo h), fun h => row (hthree h)⟩
  case slotsFull => exact acts_of_act (State.cored_iff.2 ⟨hp, hm⟩) (exec_powerStateExitDone s) (State.exitDone_full he h3 hl)
  case idle => exact acts_of_act (State.cored_iff.2 ⟨hp, hm⟩) (exec_powerStateExitDone s) (State.exitDone_idle he h)

end Sys2Proof
end

section
/-! Resets of every function (R120, R387): PERST#, hot reset, link down and the end of Loopback; with no command in flight each function
loses its rings and its page, and the last one's reset ends the reset of all. -/

namespace Sys2Proof

theorem mapGet_map {α : Type} (d : α) (m : NatMap α) (n : Nat) (f : α → α) (hd : f d = d) :
    mapGet d (m.map fun e => (e.1, f e.2)) n = f (mapGet d m n) := by
  have hmap : mapGet? (m.map fun e => (e.1, f e.2)) n = (mapGet? m n).map f := by
    induction m with
    | nil => rfl
    | cons e m ih =>
      obtain ⟨k, v⟩ := e
      simp only [List.map_cons, mapGet?, ih]
      split
      · rfl
      · split <;> rfl
  rw [mapGet, mapGet, hmap]
  cases mapGet? m n with
  | none => exact hd.symm
  | some v => rfl

namespace Machine

section
variable {s t d u : State} {f n : Nat}

/-! ## What an event of the physical function leaves -/

section
variable (s : State) (source type : Nat) (st : Stamp) (data : BitVec 128)

@[simp] theorem State.raiseDevice_host : (s.raiseDevice source type st data).host = s.host := by
  obtain ⟨_, _, _, h⟩ := s.raiseDevice_frame source type st data
  rw [h]

@[simp] theorem State.raiseDevice_fn (k : Nat) : (s.raiseDevice source type st data).fn k = s.fn k := by
  rw [State.fn, State.raiseDevice_host]
  rfl

@[simp] theorem State.raiseDevice_latches : (s.raiseDevice source type st data).latches = s.latches := by
  obtain ⟨_, _, _, h⟩ := s.raiseDevice_frame source type st data
  rw [h]

@[simp] theorem State.raiseDevice_wire : (s.raiseDevice source type st data).wire = s.wire := by
  obtain ⟨_, _, _, h⟩ := s.raiseDevice_frame source type st data
  rw [h]

@[simp] theorem State.raiseDevice_mode : (s.raiseDevice source type st data).mode = s.mode := by
  obtain ⟨_, _, _, h⟩ := s.raiseDevice_frame source type st data
  rw [h]

@[simp] theorem State.raiseDevice_pending : (s.raiseDevice source type st data).pending = s.pending := by
  obtain ⟨_, _, _, h⟩ := s.raiseDevice_frame source type st data
  rw [h]

/-- R343: while the cores run it stands among the raises, before that among the events kept for REBUILD. -/
theorem State.raiseDevice_raised (hm : s.mode.running = true) :
    ({ fn := 0, source := source, stamp := st, data := data } : Raise) ∈ (s.raiseDevice source type st data).events.raises := by
  rw [State.raiseDevice_running hm]
  exact State.raise_mem ..

theorem State.raiseDevice_kept (hm : s.mode.running = false) :
    (source, type, data) ∈ (s.raiseDevice source type st data).update.later := by
  rw [State.raiseDevice_stopped hm]
  exact List.mem_append_right _ (List.mem_singleton_self _)

end

/-! ## One function's reset -/

/-- A function's page after its reset: configuration space, KEK and nonce stay (R119, R284). -/
def Fn.flrPage (x : Fn) : Fn := { pci := x.pci, kek := x.kek, kekVersion := x.kekVersion, nonce := x.nonce }

/-- A function's reset with no command in flight: its arrivals lose their completions, its rings and its page go. -/
def State.fnReset (s : State) (f : Nat) : State := (s.muteArrivals f true).flrRegisters f

theorem State.fnReset_fn (s : State) (f k : Nat) : (s.fnReset f).fn k = if k = f then (s.fn f).flrPage else s.fn k := State.fn_updFn ..

theorem State.fnReset_rings (s : State) (f : Nat) : (s.fnReset f).host.rings = s.host.rings.filter fun r => r.2.fn != f := rfl

/-- A function's reset touches Col, the rings and the pages. -/
theorem State.fnReset_frame (s : State) (f : Nat) :
    ∃ c r x, s.fnReset f = { s with col := c, host := { s.host with rings := r, fns := x } } := ⟨_, _, _, rfl⟩

theorem State.flrOne_of_no_work (h : s.works = []) (f : Nat) : s.flrOne f = (s.fnReset f, 0, 0) := by
  simp only [State.flrOne, State.flrCommands_of_no_work h]
  rfl

/-- Within a reset of every function, one that is not the last. -/
theorem State.flrOfAll_next (h : s.works = []) (f : Nat) (cause : FlrCause) (st : Stamp) : s.flrOfAll f cause false st = s.fnReset f := by
  simp only [State.flrOfAll, State.flrOne_of_no_work h]
  rfl

/-- A function's page with configuration space at its reset values (R120). -/
def Fn.unconfigured (x : Fn) : Fn := { x with pci := {} }

/-- Configuration space at its reset values, the totals and the latched halves gone (R120, R391). -/
def State.resetOver (s : State) : State :=
  (s.configReset.updHost fun h => { h with flrCaught := 0, flrKept := 0 }).updLatches fun _ => []

theorem State.resetOver_fn (s : State) (k : Nat) : s.resetOver.fn k = (s.fn k).unconfigured :=
  mapGet_map ({} : Fn) s.host.fns k Fn.unconfigured rfl

/-- The last one ends the reset, with source 101 over the totals. -/
theorem State.flrOfAll_last (h : s.works = []) (f : Nat) (cause : FlrCause) (st : Stamp) : s.flrOfAll f cause true st =
    (s.fnReset f).resetOver.raiseDevice 101 0x303 st (eventData [(1, cause.code), (4, s.host.flrCaught), (4, s.host.flrKept)]) := by
  simp only [State.flrOfAll, State.flrOne_of_no_work h]
  rfl

/-! ## The functions in their order -/

/-- In `u` the functions below `n` of the state `d` are reset, and nothing but Col, the rings and the pages has changed. -/
structure ResetBelow (d u : State) (n : Nat) : Prop where
  works : u.works = []
  rings : ∀ r ∈ u.host.rings, n ≤ r.2.fn
  fn : ∀ k, u.fn k = if k < n then (d.fn k).flrPage else d.fn k
  frame : ∃ c r x, u = { d with col := c, host := { d.host with rings := r, fns := x } }

theorem ResetBelow.zero (h : d.works = []) : ResetBelow d d 0 := ⟨h, fun _ _ => Nat.zero_le _, fun _ => rfl, ⟨_, _, _, rfl⟩⟩

theorem ResetBelow.succ (h : ResetBelow d u n) : ResetBelow d (u.fnReset n) (n + 1) := by
  refine ⟨h.works, fun r hr => ?rings, fun k => ?fn, ?frame⟩
  case rings =>
    rw [State.fnReset_rings, List.mem_filter] at hr
    have hne : r.2.fn ≠ n := by simpa using hr.2
    have hle := h.rings r hr.1
    omega
  case fn =>
    rw [State.fnReset_fn]
    split
    · next hk => subst hk; rw [h.fn, if_neg (Nat.lt_irrefl _), if_pos (Nat.lt_succ_self _)]
    · next hk =>
      rw [h.fn]
      by_cases hlt : k < n
      · rw [if_pos hlt, if_pos (by omega)]
      · rw [if_neg hlt, if_neg (by omega)]
  case frame =>
    obtain ⟨_, _, _, rfl⟩ := h.frame
    exact ⟨_, _, _, rfl⟩

/-- The functions below the last one, reset at once. -/
theorem resetBelow_foldl (h : d.works = []) (cause : FlrCause) (n : Nat) :
    ResetBelow d ((List.range n).foldl (fun s f => s.flrOfAll f cause false 0) d) n := by
  induction n with
  | zero => exact .zero h
  | succ n ih =>
    rw [List.range_succ, List.foldl_append]
    simp only [List.foldl_cons, List.foldl_nil]
    rw [State.flrOfAll_next ih.works]
    exact ih.succ

/-- `t` holds the link, Loopback and PERST# as `d` does, and its queue. -/
def SameLink (d t : State) : Prop := t.host.perst = d.host.perst ∧ t.host.loopback = d.host.loopback ∧
  t.host.loopPending = d.host.loopPending ∧ t.pending = d.pending

/-- R120: the last function's reset ends the reset of every function. -/
theorem ResetBelow.last (h : ResetBelow d u d.host.vfs) (hspeed : d.host.linkSpeed = 0) (hwidth : d.host.linkWidth = 0) (cause : FlrCause)
    (st : Stamp) : HostSideReset d (u.flrOfAll d.host.vfs cause true st) cause.code st ∧ SameLink d (u.flrOfAll d.host.vfs cause true st) := by
  have hall := h.succ
  have htotals : u.host.flrCaught = d.host.flrCaught ∧ u.host.flrKept = d.host.flrKept := by
    obtain ⟨_, _, _, hu⟩ := h.frame
    rw [hu]
    exact ⟨rfl, rfl⟩
  rw [State.flrOfAll_last h.works, htotals.1, htotals.2]
  generalize u.fnReset d.host.vfs = v at hall
  obtain ⟨_, hrings, hfn, c, r, x, rfl⟩ := hall
  simp only [HostSideReset, SameLink, State.raiseDevice_host, State.raiseDevice_latches, State.raiseDevice_wire, State.raiseDevice_mode,
    State.raiseDevice_pending, State.raiseDevice_fn, State.resetOver_fn, hfn]
  refine ⟨⟨hrings, fun k => ?page, rfl, rfl, hspeed, hwidth, rfl, rfl, rfl, fun hm => ?raised, fun hm => ?later⟩, rfl, rfl, rfl, rfl⟩
  case page =>
    by_cases hk : k ≤ d.host.vfs
    · rw [if_pos hk, if_pos (Nat.lt_succ_of_le hk)]
      rfl
    · rw [if_neg hk, if_neg (by omega)]
      rfl
  case raised => exact State.raiseDevice_raised _ _ _ _ _ hm
  case later => exact State.raiseDevice_kept _ _ _ _ _ hm

/-- Before the counter runs the resets follow at once. -/
theorem State.allFlrNow_resets (h : d.works = []) (hspeed : d.host.linkSpeed = 0) (hwidth : d.host.linkWidth = 0) (cause : FlrCause) :
    HostSideReset d (d.allFlrNow cause) cause.code 0 ∧ SameLink d (d.allFlrNow cause) := by
  have hnow : d.allFlrNow cause =
      ((List.range d.host.vfs).foldl (fun s f => s.flrOfAll f cause false 0) d).flrOfAll d.host.vfs cause true 0 := by
    have hbefore (l : List Nat) (hl : ∀ f ∈ l, f < d.host.vfs) (s : State) :
        l.foldl (fun s f => s.flrOfAll f cause (decide (f = d.host.vfs)) 0) s = l.foldl (fun s f => s.flrOfAll f cause false 0) s := by
      refine List.foldl_ext _ _ _ fun s f hf => ?_
      rw [decide_eq_false (hl f hf).ne]
    rw [State.allFlrNow, State.allFlr, List.foldl_map, List.range_succ, List.foldl_append]
    simp only [List.foldl_cons, List.foldl_nil, decide_true]
    rw [hbefore _ (fun f => List.mem_range.1)]
  rw [hnow]
  exact (resetBelow_foldl h cause _).last hspeed hwidth cause 0

/-! ## The functions at the intake -/

theorem State.arrive_foldl {α : Type} (g : α → Event) (l : List α) (s : State) :
    l.foldl (fun s a => s.arrive (g a)) s = { s with col := { s.col with intake := s.col.intake ++ l.map g } } := by
  induction l generalizing s with
  | nil => simp
  | cons a l ih =>
    rw [List.foldl_cons, ih]
    simp [State.arrive, State.updCol]

theorem State.allFlrArrive_eq (s : State) (cause : FlrCause) : s.allFlrArrive cause = { s with col := { s.col with
    intake := s.col.intake ++ (List.range (s.host.vfs + 1)).map fun f => .flr f cause (f = s.host.vfs) } } := by
  rw [State.allFlrArrive, State.arrive_foldl, State.allFlr, List.map_map]
  rfl

theorem State.vfsCleared_eq (s : State) : s.vfsCleared = ((s.updCol fun c => { c with
    intake := c.intake ++ (List.range s.host.vfs).map fun k => .flr (k + 1) .vfClear false }).updHost fun h => { h with vfs := 0 }) := by
  rw [State.vfsCleared, State.arrive_foldl]
  rfl

/-! ## The rows -/

/-- The link down, the latched halves gone, and PERST# held where it is the cause. -/
def State.linkLost (s : State) (cause : FlrCause) : State := { s with
  latches := [], host := { s.host with perst := s.host.perst || cause = .perst, linkSpeed := 0, linkWidth := 0 } }

theorem State.hostReset_running (h : s.time.running = true) (cause : FlrCause) (edge : Bool) :
    s.hostReset cause edge = s.stamped s.powered edge fun s => (s.linkLost cause).allFlrArrive cause := if_pos h

theorem State.hostReset_stopped (h : s.time.running = false) (hp : s.powered = true) (cause : FlrCause) (edge : Bool) :
    s.hostReset cause edge = .next (s.keepQueue ((s.linkLost cause).allFlrNow cause)) :=
  (if_neg (by simp [h])).trans (by rw [if_pos hp]; rfl)

theorem State.hostReset_unpowered (hp : s.powered = false) (cause : FlrCause) (edge : Bool) : s.hostReset cause edge = .next s := by
  cases h : s.time.running
  · exact (if_neg (by simp [h])).trans (by rw [if_neg (by simp [hp])])
  · rw [State.hostReset_running h, State.stamped_neg hp]

/-- A row that resets every function, with its cause. -/
structure ResetsAll (row : Bool → Instr) (cause : FlrCause) : Prop where
  all : cause.all = true
  runs : ∀ (edge : Bool) (s : State), exec (row edge) s = s.hostReset cause edge

section
variable {row : Bool → Instr} {cause : FlrCause} (hrow : ResetsAll row cause)
include hrow

/-- The resets reach the intake, each for a stamp of its own. -/
theorem ResetsAll.arrives (hp : s.powered = true) (hr : s.time.running = true) : Arrives row s { s with
    latches := [], host := { s.host with perst := s.host.perst || cause = .perst, linkSpeed := 0, linkWidth := 0 }
    col := { s.col with intake := s.col.intake ++ (List.range (s.host.vfs + 1)).map fun f => .flr f cause (f = s.host.vfs) } } := by
  have h := arrives_of_stamped (f := fun s => (s.linkLost cause).allFlrArrive cause) hp fun edge =>
    (hrow.runs edge s).trans (State.hostReset_running hr cause edge)
  rw [State.allFlrArrive_eq] at h
  exact h

/-- The physical function alone: its reset at the grain's first stamp is the whole reset. -/
theorem ResetsAll.executes (hp : s.powered = true) (hw : s.works = []) (hr : s.time.running = true) (hq : s.quiet = true)
    (hg : s.nextGrain < Config.maxGrain) (hv : s.host.vfs = 0) : ∃ t, Executes (row true) s t ∧
      HostSideReset s t cause.code (stampOf s.grain 0) ∧ t.host.perst = (s.host.perst || cause = .perst) := by
  have harrive : (s.linkLost cause).allFlrArrive cause = (s.linkLost cause).arrive (.flr 0 cause true) := by
    rw [State.allFlrArrive_eq, show (s.linkLost cause).host.vfs = 0 from hv]
    rfl
  have hreset : (atSlotZero (s.linkLost cause)).applyEvent (.flr 0 cause true) (stampOf s.grain 0) =
      (atSlotZero (s.linkLost cause)).flrOfAll (atSlotZero (s.linkLost cause)).host.vfs cause true (stampOf s.grain 0) := by
    rw [show (atSlotZero (s.linkLost cause)).host.vfs = 0 from hv]
    exact if_pos hrow.all
  have hnone : ResetBelow (atSlotZero (s.linkLost cause)) (atSlotZero (s.linkLost cause)) (atSlotZero (s.linkLost cause)).host.vfs := by
    rw [show (atSlotZero (s.linkLost cause)).host.vfs = 0 from hv]
    exact .zero hw
  obtain ⟨hside, hlink, _⟩ := hnone.last rfl rfl cause (stampOf s.grain 0)
  exact ⟨_, executes_of_stamped (State.clocked_iff.2 ⟨hp, hr⟩) hq hg hp ((hrow.runs true s).trans (State.hostReset_running hr cause true)) harrive
    rfl rfl rfl hreset, hside, hlink⟩

theorem ResetsAll.atOnce (hp : s.powered = true) (hw : s.works = []) (hr : s.time.running = false) (edge : Bool) : ∃ t,
    exec (row edge) s = .next t ∧ HostSideReset s t cause.code 0 ∧ t.host.perst = (s.host.perst || cause = .perst) ∧ t.pending = s.pending := by
  obtain ⟨hside, hlink, _, _, hqueue⟩ := State.allFlrNow_resets (d := s.linkLost cause) hw rfl rfl cause
  refine ⟨_, (hrow.runs edge s).trans ((State.hostReset_stopped hr hp cause edge).trans ?_), hside, hlink, hqueue⟩
  rw [State.keepQueue_of_eq (s := s) hqueue]

/-- A function that is not the last, at its stamp. -/
theorem ResetsAll.applies (hw : s.works = []) (f : Nat) (st : Stamp) : ∃ t, s.applyEvent (.flr f cause false) st = t ∧
    (∀ r, r ∈ t.host.rings ↔ r ∈ s.host.rings ∧ r.2.fn ≠ f) ∧
    (∀ k, t.fn k = if k = f then { pci := (s.fn f).pci, kek := (s.fn f).kek, kekVersion := (s.fn f).kekVersion, nonce := (s.fn f).nonce }
      else s.fn k) ∧ t.events = s.events ∧ t.terrace = s.terrace ∧ t.host.vfs = s.host.vfs ∧ t.wire = s.wire :=
  ⟨s.fnReset f, (if_pos hrow.all).trans (State.flrOfAll_next hw f cause st), fun r => by simp [State.fnReset_rings], s.fnReset_fn f, rfl, rfl,
    rfl, rfl⟩

end

/-! ## Loopback -/

theorem State.loopback_idle {enter : Bool} (h : s.powered = false ∨ s.host.perst = true ∨ s.host.loopback = enter) :
    s.loopback enter = .next s := if_pos (by simpa [or_assoc] using h)

theorem State.loopback_enters (hp : s.powered = true) (hr : s.host.perst = false) (hl : s.host.loopback = false) : s.loopback true =
    .next { s with host := { s.host with loopback := true, loopPending := s.host.loopPending ++ [1] } } :=
  if_neg (by simp [hp, hr, hl])

/-- Loopback left with the link down. -/
def State.loopLeft (s : State) : State := { s with
  host := { s.host with loopback := false, loopPending := s.host.loopPending ++ [0], linkSpeed := 0, linkWidth := 0 } }

/-- R387: leaving Loopback is a link down. -/
theorem State.loopback_leaves (hp : s.powered = true) (hr : s.host.perst = false) (hl : s.host.loopback = true) : s.loopback false =
    if s.time.running then .next (s.keepQueue (s.loopLeft.allFlrArrive .linkDown)) else .next (s.keepQueue (s.loopLeft.allFlrNow .linkDown)) :=
  if_neg (by simp [hp, hr, hl])

end

end Machine

open Machine

/-- Settles O48: the three rows are one operation under three causes (`ResetsAll`); a reset of every function goes function by function
(`ResetBelow`), and the last one ends it (`ResetBelow.last`). That only enabled functions are reset, and that configuration space is kept by a
function's own reset and cleared by the reset of all, is the model's reading (log entries 124 and 126). -/
theorem pcieResets : Obligations.PcieResets := by
  refine ⟨fun s hp hw => ⟨fun row cause code hrow => ?resets, ?deassertion, fun hr hl => ?enters, fun hr hl => ⟨fun ht => ?leaves, fun ht => ?leavesAtOnce⟩,
    fun enter h => ?noLoopback, fun ht => ?cleared, fun ht edge => ?notCleared⟩, fun s hp => ?unpowered⟩
  case resets =>
    have hcause : ResetsAll row cause ∧ cause.code = code ∧ decide (cause = .perst) = decide (code = 1) := by
      simp only [List.mem_cons, Prod.mk.injEq, List.not_mem_nil, or_false] at hrow
      rcases hrow with ⟨rfl, rfl, rfl⟩ | ⟨rfl, rfl, rfl⟩ | ⟨rfl, rfl, rfl⟩
      · exact ⟨⟨rfl, exec_perst⟩, rfl, rfl⟩
      · exact ⟨⟨rfl, exec_hotReset⟩, rfl, rfl⟩
      · exact ⟨⟨rfl, exec_pcieLinkDown⟩, rfl, rfl⟩
    obtain ⟨hall, rfl, hperst⟩ := hcause
    rw [← hperst]
    exact ⟨hall.arrives hp, hall.executes hp hw, hall.atOnce hp hw, hall.applies hw⟩
  case deassertion => exact acts_of_act hp (exec_perstDeassertion s) rfl
  case enters => exact State.loopback_enters hp hr hl
  case leaves =>
    refine (State.loopback_leaves hp hr hl).trans ((if_pos ht).trans ?_)
    rw [State.allFlrArrive_eq]
    rfl
  case leavesAtOnce =>
    obtain ⟨hside, _, hloop, hpending, hqueue⟩ := State.allFlrNow_resets (d := s.loopLeft) hw rfl rfl .linkDown
    refine ⟨_, (State.loopback_leaves hp hr hl).trans ((if_neg (by simp [ht])).trans ?_), hside, hloop, hpending, hqueue⟩
    rw [State.keepQueue_of_eq (s := s) hqueue]
  case noLoopback => exact State.loopback_idle (.inr h)
  case cleared =>
    have h := arrives_of_stamped (c := .vfEnableClear) (State.clocked_iff.2 ⟨hp, ht⟩) fun edge => exec_vfEnableClear edge s
    rw [State.vfsCleared_eq] at h
    exact h
  case notCleared => exact (exec_vfEnableClear edge s).trans (State.stamped_neg (by simp [State.clocked, ht]))
  case unpowered =>
    have hclock : s.clocked = false := by simp [State.clocked, hp]
    simp only [List.forall_mem_cons, List.not_mem_nil, false_implies, implies_true, and_true]
    exact ⟨State.hostReset_unpowered hp .perst _, State.hostReset_unpowered hp .perst _, State.hostReset_unpowered hp .hotReset _,
      State.hostReset_unpowered hp .hotReset _, State.hostReset_unpowered hp .linkDown _, State.hostReset_unpowered hp .linkDown _,
      (exec_perstDeassertion s).trans (State.act_neg hp), State.loopback_idle (.inl hp), State.loopback_idle (.inl hp),
      (exec_vfEnableClear _ s).trans (State.stamped_neg hclock), (exec_vfEnableClear _ s).trans (State.stamped_neg hclock)⟩

end Sys2Proof
end

section
/-! A turn of ring fetch (R110, R185, R191, R194): each entry takes its pool 0 buffer, moves its ring on and stands last at the intake, and
the turn goes on while the ring may be fetched; a fetch that fails, and holds that last (R114, R194). -/

namespace Sys2Proof.Machine

section
variable {s t u : State}

/-! ## Counts of a pool -/

/-- Counts of the free buffers and of all buffers of a pool. -/
def Pool.room (p : Pool) : Nat × Nat := (p.free, p.count)

theorem State.pool_updBasin {f : Basin → Basin} (h : (f s.basin).pools = s.basin.pools) (p : Nat) : (s.updBasin f).pool p = s.pool p :=
  congrArg (fun m : NatMap Pool => mapGet ({} : Pool) m p) h

theorem State.raiseLimited_pool (s : State) (source sub fn : Nat) (st : Stamp) (type : Option Nat) (data : Nat → BitVec 128) (p : Nat) :
    (s.raiseLimited source sub fn st type data).pool p = s.pool p := by
  obtain ⟨_, _, h⟩ := s.raiseLimited_frame source sub fn st type data
  rw [h]
  rfl

/-- A handle that fails its checks is counted, and leaves every pool. -/
theorem State.handleFault_pool (s : State) (h : Handle) (o : OwnerTag) (op check p : Nat) :
    (s.handleFault h o op check).pool p = s.pool p := by
  simp only [State.handleFault]
  generalize hcount : s.updBasin _ = t
  have ht : t.pool p = s.pool p := by
    rw [← hcount]
    refine State.pool_updBasin ?_ p
    split
    case h_4 => split <;> rfl
    all_goals rfl
  split
  · exact (State.raiseLimited_pool ..).trans ht
  · split
    · exact (State.raiseLimited_pool ..).trans ht
    · exact (State.raiseLimited_pool ..).trans ht

theorem State.writeBuffer_room (s : State) (h : Handle) (o : OwnerTag) (off : Nat) (b : Bytes) (p : Nat) :
    ((s.writeBuffer h o off b).1.pool p).room = (s.pool p).room := by
  simp only [State.writeBuffer, State.access]
  cases s.checkHandle h o (some (off, b.length)) with
  | zero =>
    by_cases hp : p = h.pool
    · subst hp
      exact (congrArg Pool.room (s.pool_updBuffer_same h _)).trans rfl
    · exact congrArg Pool.room (State.pool_updBuffer_other _ hp)
  | succ k => exact congrArg Pool.room (s.handleFault_pool ..)

theorem State.takeBuffer_room (p : Nat) (o : OwnerTag) :
    ((s.takeBuffer p o).1.pool p).room = ((s.pool p).free - 1, (s.pool p).count) := by
  simp only [State.takeBuffer, State.lowEvents_pool, State.pool_updPool_same]
  rfl

theorem State.fetchHoldUpdate_pool (s : State) (p : Nat) : s.fetchHoldUpdate.pool p = s.pool p := by
  unfold State.fetchHoldUpdate
  split
  · split <;> rfl
  · rfl

theorem State.fetchHoldUpdate_fetchReserve (s : State) : s.fetchHoldUpdate.fetchReserve = s.fetchReserve := by
  obtain ⟨_, _, _, h⟩ := s.fetchHoldUpdate_frame
  rw [State.fetchReserve, State.fetchHoldUpdate_pool, h]
  rfl

/-- R194: above the fetch reserve no hold of fetching stays. -/
theorem State.fetchHoldUpdate_above (h : s.fetchHoldUpdate.fetchReserve < (s.fetchHoldUpdate.pool 0).free) :
    s.fetchHoldUpdate.host.fetchHold = none := by
  rw [State.fetchHoldUpdate_fetchReserve, State.fetchHoldUpdate_pool] at h
  rw [State.fetchHoldUpdate, if_neg (Nat.not_le.2 h)]
  rfl

/-! ## Rings by their identifier -/

theorem State.ringOf_updRingOf {id : RingId} {r : Ring} (hr : s.ringOf id = some r) (g : Ring → Ring) :
    (s.updRingOf id g).ringOf id = some (g r) := by
  cases id with
  | data n => exact State.ring?_updRing_same hr g
  | admin f =>
    simp only [State.ringOf, State.updRingOf, State.fn_updFn, if_true] at hr ⊢
    split at hr
    case isTrue h =>
      rw [if_pos h]
      cases hr
      rfl
    case isFalse => cases hr

theorem State.updRingOf_updRingOf (s : State) (id : RingId) (g g' : Ring → Ring) :
    (s.updRingOf id g).updRingOf id g' = s.updRingOf id fun r => g' (g r) := by
  cases id with
  | data n => exact congrArg (fun m => ({ s with host := { s.host with rings := m } } : State)) (map_at_map_at s.host.rings n g g')
  | admin f => exact s.updFn_updFn f _ _

theorem State.fn_updRingOf_admin (s : State) (f : Nat) (g : Ring → Ring) :
    (s.updRingOf (.admin f) g).fn f = { s.fn f with admin := g (s.fn f).admin } := (s.fn_updFn f f _).trans (if_pos rfl)

theorem State.admin_of_ringOf {f : Nat} {r : Ring} (hr : s.ringOf (.admin f) = some r) : (s.fn f).admin = r := by
  simp only [State.ringOf] at hr
  split at hr
  · exact Option.some.inj hr
  · cases hr

theorem State.updRingOf_inForce (s : State) (id : RingId) (g : Ring → Ring) : (s.updRingOf id g).inForce = s.inForce := by
  cases id <;> rfl

theorem State.updRingOf_pool (s : State) (id : RingId) (g : Ring → Ring) (p : Nat) : (s.updRingOf id g).pool p = s.pool p := by
  cases id <;> rfl

/-- Free buffers of pool 0 that a fetch from a ring must leave: the fetch reserve, for a data ring (R191). -/
def State.drawFloor (s : State) : RingId → Nat
  | .data _ => s.fetchReserve
  | .admin _ => 0

theorem State.fetchDraw_admin (h : 0 < (s.pool 0).free) (o : OwnerTag) :
    s.fetchDraw true o = ((s.takeBuffer 0 o).1, some (s.takeBuffer 0 o).2) := if_pos h

theorem State.drawFloor_congr (id : RingId) (hi : t.inForce = s.inForce) (hc : (t.pool 0).count = (s.pool 0).count) :
    t.drawFloor id = s.drawFloor id := by
  cases id with
  | data n => rw [State.drawFloor, State.drawFloor, State.fetchReserve, State.fetchReserve, hi, hc]
  | admin f => rfl

/-! ## What fetches leave beside their ring -/

/-- `t` is `s` with `evs` last at the intake, but that the buffers, the events, the recorder, the power exit and the fetch hold may differ. -/
def Queued (evs : List Event) (s t : State) : Prop :=
  ∃ exiting hold raised b e x, t = { s with
    host := { s.host with exiting := exiting, fetchHold := hold, fetchRaised := raised }
    basin := b, events := e, terrace := x, col := { s.col with intake := s.col.intake ++ evs } }

theorem Queued.trans {es fs : List Event} (h : Queued es s t) (h' : Queued fs t u) : Queued (es ++ fs) s u := by
  obtain ⟨_, _, _, _, _, _, rfl⟩ := h
  obtain ⟨exiting, hold, raised, b, e, x, rfl⟩ := h'
  exact ⟨exiting, hold, raised, b, e, x, by simp only [List.append_assoc]⟩

theorem Queued.updRingOf {es : List Event} (h : Queued es s t) (id : RingId) (g : Ring → Ring) :
    Queued es (s.updRingOf id g) (t.updRingOf id g) := by
  obtain ⟨_, _, _, _, _, _, rfl⟩ := h
  cases id <;> exact ⟨_, _, _, _, _, _, rfl⟩

theorem Queued.ringOf {es : List Event} (h : Queued es s t) (id : RingId) : t.ringOf id = s.ringOf id := by
  obtain ⟨_, _, _, _, _, _, rfl⟩ := h
  cases id <;> rfl

theorem Queued.fn {es : List Event} (h : Queued es s t) (f : Nat) : t.fn f = s.fn f := by
  obtain ⟨_, _, _, _, _, _, rfl⟩ := h
  rfl

theorem Queued.inForce {es : List Event} (h : Queued es s t) : t.inForce = s.inForce := by
  obtain ⟨_, _, _, _, _, _, rfl⟩ := h
  rfl

/-! ## One fetch -/

/-- A ring of which the next `k` entries have been fetched. -/
def Ring.fetchedOn (r : Ring) (k : Nat) : Ring :=
  { r with fetch := (r.fetch + k) % r.sqLen, position := r.position + k, fetched := r.fetched + k }

theorem Ring.advanced_eq_fetchedOn {r : Ring} (h : r.tail ≠ r.fetch) : r.advanced = r.fetchedOn 1 := by
  rw [Ring.advanced, if_neg h]
  rfl

theorem Ring.fetchedOn_fetchedOn (r : Ring) (j k : Nat) : (r.fetchedOn j).fetchedOn k = r.fetchedOn (j + k) := by
  simp only [Ring.fetchedOn, Ring.sqLen, Nat.mod_add_mod, Nat.add_assoc]

/-- Commands of a carrier at Col's intake, from a ring position on, each with its pool 0 buffer. -/
def fetchedEvents (carrier : Carrier) (pos : Nat) (hs : List Handle) (entries : List (BitVec 512 × Area)) : List Event :=
  (hs.zip entries).zipIdx.map fun e =>
    .cmd { c := { carrier := carrier, desc := Descriptor.ofWord e.1.2.1, area := e.1.2.2 }, pos := pos + e.2, hs := [e.1.1] }

theorem fetchedEvents_cons (carrier : Carrier) (pos : Nat) (h : Handle) (hs : List Handle) (e : BitVec 512 × Area)
    (entries : List (BitVec 512 × Area)) : fetchedEvents carrier pos (h :: hs) (e :: entries) =
      [.cmd { c := { carrier := carrier, desc := Descriptor.ofWord e.1, area := e.2 }, pos := pos, hs := [h] }] ++
        fetchedEvents carrier (pos + 1) hs entries := by
  simp only [fetchedEvents, List.zip_cons_cons, List.zipIdx_cons', List.map_cons, List.map_map, List.singleton_append, Nat.add_zero]
  congr 1
  refine List.map_congr_left fun x _ => ?_
  simp only [Function.comp, Prod.map, id, Nat.add_assoc, Nat.add_comm 1]

/-- The owner of a command's descriptor buffer (R185). -/
def fetchOwner (c : Submission) : OwnerTag := { cls := 1, number := c.carrier.number.getD 0 }

/-- What the fetch of the next entry of `r` makes of a ring. -/
def Ring.nextOf (r q : Ring) : Ring :=
  { q with fetch := (r.fetch + 1) % r.sqLen, tail := if q.tail = q.fetch then (r.fetch + 1) % r.sqLen else q.tail
           position := q.position + 1, fetched := q.fetched + 1 }

/-- A fetch's buffer is drawn, its ring moved on and the descriptor written there. -/
def State.fetchedInto (s : State) (id : RingId) (r : Ring) (c : Submission) : State :=
  (((s.takeBuffer 0 (fetchOwner c)).1.updRingOf id r.nextOf).writeBuffer (s.takeBuffer 0 (fetchOwner c)).2 (fetchOwner c) 0
    c.desc.bytes).1

/-- R110, R185, R191: a fetch from a ring that may be fetched, above its floor of free buffers. -/
theorem State.fetchOne_taken {id : RingId} {r : Ring} (hr : s.ringOf id = some r) (hm : s.mayFetch id = true)
    (hf : s.drawFloor id < (s.pool 0).free) (c : Submission) : s.fetchOne id c =
      ((s.fetchedInto id r c).arrive
        (.cmd { c := c, pos := r.position, hs := [(s.takeBuffer 0 (fetchOwner c)).2] })).beginExit.fetchHoldUpdate := by
  cases id with
  | data n =>
    simp only [State.fetchOne, hr, hm, State.fetchDraw_free hf]
    exact if_neg Bool.false_ne_true
  | admin f =>
    simp only [State.fetchOne, hr, hm, State.fetchDraw_admin hf]
    exact if_neg Bool.false_ne_true

theorem State.fetchedInto_buffered (s : State) (id : RingId) (r : Ring) (c : Submission) :
    Buffered (s.updRingOf id r.nextOf) (s.fetchedInto id r c) := by
  obtain ⟨b, e, x, h⟩ := s.takeBuffer_buffered 0 (fetchOwner c)
  refine Buffered.trans ?_ (State.writeBuffer_buffered ..)
  rw [h]
  cases id <;> exact ⟨b, e, x, rfl⟩

theorem State.fetchedInto_room (s : State) (id : RingId) (r : Ring) (c : Submission) :
    ((s.fetchedInto id r c).pool 0).room = ((s.pool 0).free - 1, (s.pool 0).count) := by
  rw [State.fetchedInto, State.writeBuffer_room, State.updRingOf_pool, State.takeBuffer_room]

theorem State.fetchOne_queued {id : RingId} {r : Ring} (hr : s.ringOf id = some r) (hm : s.mayFetch id = true)
    (hf : s.drawFloor id < (s.pool 0).free) (c : Submission) :
    Queued [.cmd { c := c, pos := r.position, hs := [(s.takeBuffer 0 (fetchOwner c)).2] }] (s.updRingOf id r.nextOf) (s.fetchOne id c) := by
  rw [State.fetchOne_taken hr hm hf]
  obtain ⟨_, _, _, h⟩ := s.fetchedInto_buffered id r c
  obtain ⟨_, hexit⟩ := State.beginExit_frame ((s.fetchedInto id r c).arrive _)
  obtain ⟨_, _, _, hhold⟩ := State.fetchHoldUpdate_frame ((s.fetchedInto id r c).arrive _).beginExit
  rw [hhold, hexit, h]
  cases id <;> exact ⟨_, _, _, _, _, _, rfl⟩

theorem State.fetchOne_room {id : RingId} {r : Ring} (hr : s.ringOf id = some r) (hm : s.mayFetch id = true)
    (hf : s.drawFloor id < (s.pool 0).free) (c : Submission) :
    ((s.fetchOne id c).pool 0).room = ((s.pool 0).free - 1, (s.pool 0).count) := by
  rw [State.fetchOne_taken hr hm hf, State.fetchHoldUpdate_pool]
  obtain ⟨_, hexit⟩ := State.beginExit_frame ((s.fetchedInto id r c).arrive _)
  rw [hexit]
  exact s.fetchedInto_room id r c

theorem State.fetchOne_fetchHold {id : RingId} {r : Ring} (hr : s.ringOf id = some r) (hm : s.mayFetch id = true)
    (hf : s.drawFloor id < (s.pool 0).free) (c : Submission) (h : (s.fetchOne id c).fetchReserve < ((s.fetchOne id c).pool 0).free) :
    (s.fetchOne id c).host.fetchHold = none := by
  rw [State.fetchOne_taken hr hm hf] at h ⊢
  exact State.fetchHoldUpdate_above h

/-! ## Fetches in a row -/

/-- The next `k` entries of ring `r` can be fetched in a row. -/
structure CanFetch (s : State) (id : RingId) (r : Ring) (k : Nat) : Prop where
  ring : s.ringOf id = some r
  may : 0 < k → s.mayFetch id = true
  room : r.fetched + r.posted + k < r.cqLen
  free : s.drawFloor id + k ≤ (s.pool 0).free
  inRing : r.fetch < r.sqLen
  ahead : ∀ j < k, (r.fetch + j) % r.sqLen ≠ r.tail

/-- A ring stays one that may be fetched, where its completion ring has room for one more and the draw's floor is not reached. -/
theorem Queued.mayFetch {es : List Event} {id : RingId} {r : Ring} (h : Queued es (s.updRingOf id r.nextOf) t)
    (hr : s.ringOf id = some r) (hm : s.mayFetch id = true) (hroom : (r.nextOf r).room = true)
    (hhold : t.fetchReserve < (t.pool 0).free → t.host.fetchHold = none) (hf : t.drawFloor id < (t.pool 0).free) :
    t.mayFetch id = true := by
  have ht : t.ringOf id = some (r.nextOf r) := (h.ringOf id).trans (State.ringOf_updRingOf hr _)
  cases id with
  | data n =>
    have hnone := hhold hf
    obtain ⟨_, _, _, _, _, _, rfl⟩ := h
    simp only [State.mayFetch, show s.ring? n = some r from hr] at hm
    simp only [State.mayFetch, show State.ring? _ n = _ from ht, hroom]
    simp only [Bool.and_eq_true] at hm ⊢
    obtain ⟨⟨⟨⟨hfetches, hfault⟩, hd3⟩, -⟩, -⟩ := hm
    exact ⟨⟨⟨⟨hfetches, hfault⟩, hd3⟩, trivial⟩, Option.isNone_iff_eq_none.2 hnone⟩
  | admin f =>
    have hfn := (h.fn f).trans (s.fn_updRingOf_admin f _)
    have hadm := State.admin_of_ringOf hr
    obtain ⟨_, _, _, _, _, _, rfl⟩ := h
    simp only [State.mayFetch, Bool.and_eq_true] at hm ⊢
    obtain ⟨⟨⟨⟨-, hfetches⟩, hfault⟩, hd3⟩, -⟩ := hm
    simp only [ht, hfn, hadm]
    exact ⟨⟨⟨⟨rfl, hfetches⟩, hfault⟩, hd3⟩, hroom⟩

theorem CanFetch.nextOf {id : RingId} {r : Ring} {k : Nat} (h : CanFetch s id r (k + 1)) : r.nextOf r = r.fetchedOn 1 := by
  refine Ring.advanced_eq_fetchedOn fun heq => h.ahead 0 (Nat.succ_pos k) ?_
  rw [Nat.add_zero, Nat.mod_eq_of_lt h.inRing, heq]

theorem CanFetch.above {id : RingId} {r : Ring} {k : Nat} (h : CanFetch s id r (k + 1)) : s.drawFloor id < (s.pool 0).free := by
  have := h.free
  omega

theorem CanFetch.queued {id : RingId} {r : Ring} {k : Nat} (h : CanFetch s id r (k + 1)) (c : Submission) :
    ∃ b : Handle, b.pool = 0 ∧
      Queued [.cmd { c := c, pos := r.position, hs := [b] }] (s.updRingOf id r.nextOf) (s.fetchOne id c) :=
  ⟨_, rfl, State.fetchOne_queued h.ring (h.may (Nat.succ_pos k)) h.above c⟩

/-- After a fetch, one entry fewer can be fetched. -/
theorem CanFetch.next {id : RingId} {r : Ring} {k : Nat} (h : CanFetch s id r (k + 1)) (c : Submission) :
    CanFetch (s.fetchOne id c) id (r.fetchedOn 1) k := by
  have hroom := h.room
  have hfree := h.free
  have hm := h.may (Nat.succ_pos k)
  obtain ⟨_, -, hqueued⟩ := h.queued c
  have hcounts := State.fetchOne_room h.ring hm h.above c
  have hdrawn : ((s.fetchOne id c).pool 0).free = (s.pool 0).free - 1 := congrArg Prod.fst hcounts
  have hfloor : (s.fetchOne id c).drawFloor id = s.drawFloor id :=
    State.drawFloor_congr id (hqueued.inForce.trans (s.updRingOf_inForce ..)) (congrArg Prod.snd hcounts)
  have hlen : (r.fetchedOn 1).cqLen = r.cqLen := rfl
  have hcount : (r.fetchedOn 1).fetched + (r.fetchedOn 1).posted = r.fetched + 1 + r.posted := rfl
  exact
    { ring := by rw [hqueued.ringOf, State.ringOf_updRingOf h.ring, h.nextOf]
      may := fun hk => hqueued.mayFetch h.ring hm
        (by
          rw [h.nextOf]
          exact decide_eq_true (by omega))
        (State.fetchOne_fetchHold h.ring hm h.above c) (by omega)
      room := by omega
      free := by omega
      inRing := Nat.mod_lt _ (Nat.two_pow_pos _)
      ahead := fun j hj => by
        have hnext := h.ahead (1 + j) (by omega)
        rwa [← Nat.add_assoc, ← Nat.mod_add_mod] at hnext }

/-! ## A turn -/

/-- The entry of a submission ring as its carrier's command. -/
def entryCommand (carrier : Carrier) (e : BitVec 512 × Area) : Submission :=
  { carrier := carrier, desc := Descriptor.ofWord e.1, area := e.2 }

/-- Entries of a ring fetched one after another. -/
def State.fetchEntries (s : State) (id : RingId) (carrier : Carrier) (entries : List (BitVec 512 × Area)) : State :=
  entries.foldl (fun s e => s.fetchOne id (entryCommand carrier e)) s

/-- Entries of ring `r` have been fetched in a row: they stand last at the intake, in order, each with the ring's next position and a
pool 0 buffer. -/
def FetchedRow (s t : State) (id : RingId) (carrier : Carrier) (r : Ring) (entries : List (BitVec 512 × Area)) : Prop :=
  ∃ (hs : List Handle) (g : Ring → Ring), hs.length = entries.length ∧ (∀ b ∈ hs, b.pool = 0) ∧ g r = r.fetchedOn entries.length ∧
    Queued (fetchedEvents carrier r.position hs entries) (s.updRingOf id g) t

/-- R110: entries that can be fetched in a row are. -/
theorem CanFetch.fetchEntries {id : RingId} {r : Ring} (carrier : Carrier) (e : BitVec 512 × Area) (entries : List (BitVec 512 × Area))
    (h : CanFetch s id r (entries.length + 1)) : FetchedRow s (s.fetchEntries id carrier (e :: entries)) id carrier r (e :: entries) := by
  induction entries generalizing s r e with
  | nil =>
    obtain ⟨b, hb, hfirst⟩ := h.queued (entryCommand carrier e)
    exact ⟨[b], r.nextOf, rfl, fun x hx => List.mem_singleton.1 hx ▸ hb, h.nextOf, hfirst⟩
  | cons e' entries ih =>
    obtain ⟨b, hb, hfirst⟩ := h.queued (entryCommand carrier e)
    obtain ⟨hs, g, hlen, hpool, hg, hrest⟩ := ih e' (h.next (entryCommand carrier e))
    refine ⟨b :: hs, fun q => g (r.nextOf q), congrArg (· + 1) hlen, List.forall_mem_cons.2 ⟨hb, hpool⟩, ?ring, ?queued⟩
    case ring =>
      show g (r.nextOf r) = _
      rw [h.nextOf, hg, Ring.fetchedOn_fetchedOn]
      exact congrArg r.fetchedOn (Nat.add_comm ..)
    case queued =>
      rw [fetchedEvents_cons, ← State.updRingOf_updRingOf]
      exact (hfirst.updRingOf id g).trans hrest

/-- Where its entries lie before the tail, a ring that may be fetched can be fetched `k` times in a row. -/
theorem canFetch_of_waiting {id : RingId} {r : Ring} {k : Nat} (hr : s.ringOf id = some r) (hm : s.mayFetch id = true)
    (hk : k ≤ r.waiting) (hin : r.fetch < r.sqLen) (hroom : r.fetched + r.posted + k < r.cqLen)
    (hfree : s.drawFloor id + k ≤ (s.pool 0).free) : CanFetch s id r k where
  ring := hr
  may _ := hm
  room := hroom
  free := hfree
  inRing := hin
  ahead j hj heq := by
    have hlt : r.waiting < r.sqLen := Nat.mod_lt _ (Nat.two_pow_pos _)
    have : r.waiting = j := by
      rw [Ring.waiting, ← heq]
      exact returned_slots hin (by omega)
    omega

section
variable {id : RingId} {r : Ring} {carrier : Carrier} {entries : List (BitVec 512 × Area)} {k : Nat}

/-- R110: a ring takes its turn where it has entries to fetch. -/
theorem State.fetchRing_turn (hr : s.ringOf id = some r) (hk : k = min (min (min 8 r.waiting) (r.sqLen - r.fetch)) entries.length)
    (ht : s.takesTurn id = true) (hm : s.mayFetch id = true) (hpos : 0 < k) :
    s.fetchRing id carrier entries = (s.fetchEntries id carrier (entries.take k)).turnTaken id := by
  simp only [State.fetchRing, hr]
  rw [hk, ← List.take_eq_take_min]
  refine if_neg ?_
  simp only [hm, ht, Bool.not_true, Bool.false_or, List.isEmpty_iff, ← List.length_eq_zero_iff, List.length_take]
  omega

theorem State.fetchRing_idle (hr : s.ringOf id = some r) (hk : k = min (min (min 8 r.waiting) (r.sqLen - r.fetch)) entries.length)
    (h : s.takesTurn id = false ∨ s.mayFetch id = false ∨ k = 0) : s.fetchRing id carrier entries = s := by
  simp only [State.fetchRing, hr]
  refine if_pos ?_
  simp only [Bool.or_eq_true, Bool.not_eq_true', List.isEmpty_iff, ← List.length_eq_zero_iff, List.length_take]
  rcases h with h | h | h
  · exact .inl (.inr h)
  · exact .inl (.inl h)
  · exact .inr (by omega)

/-- A turn fetches its `k` entries in a row. -/
theorem fetchEntries_turn (hr : s.ringOf id = some r) (hk : k = min (min (min 8 r.waiting) (r.sqLen - r.fetch)) entries.length)
    (hm : s.mayFetch id = true) (hpos : 0 < k) (hin : r.fetch < r.sqLen) (hroom : r.fetched + r.posted + k < r.cqLen)
    (hfree : s.drawFloor id + k ≤ (s.pool 0).free) :
    FetchedRow s (s.fetchEntries id carrier (entries.take k)) id carrier r (entries.take k) := by
  have hcan := canFetch_of_waiting hr hm (by omega) hin hroom hfree
  have hlen : (entries.take k).length = k := by
    rw [List.length_take]
    omega
  obtain ⟨e, es, hcons⟩ := List.exists_cons_of_length_pos (hlen ▸ hpos)
  rw [hcons] at hlen ⊢
  exact (hlen ▸ hcan).fetchEntries carrier e es

theorem FetchedRow.ring (h : FetchedRow s t id carrier r entries) (hr : s.ringOf id = some r) :
    t.ringOf id = some (r.fetchedOn entries.length) := by
  obtain ⟨_, g, -, -, hg, hq⟩ := h
  rw [hq.ringOf, State.ringOf_updRingOf hr, hg]

theorem FetchedRow.admin {f : Nat} (h : FetchedRow s t (.admin f) carrier r entries) (hr : s.ringOf (.admin f) = some r) :
    t.fn f = { s.fn f with admin := r.fetchedOn entries.length } := by
  obtain ⟨_, g, -, -, hg, hq⟩ := h
  rw [hq.fn, State.fn_updRingOf_admin, State.admin_of_ringOf hr, hg]

theorem FetchedRow.fetched (h : FetchedRow s t id carrier r (entries.take k)) (hk : k ≤ entries.length) :
    Fetched s (t.turnTaken id) id carrier r k entries := by
  obtain ⟨hs, g, hlen, hpool, -, _, _, _, _, _, _, rfl⟩ := h
  refine ⟨hs, hlen.trans (List.length_take_of_le hk), hpool, ?_⟩
  cases id <;> exact ⟨rfl, rfl, rfl⟩

end

end

end Sys2Proof.Machine

namespace Sys2Proof
open Machine

/-- Settles O20: a turn of a ring is a row of fetches, each of which leaves a ring with one entry fewer to fetch; a pool 0 buffer for each
descriptor (log entry 77) and the order of the turns (log entry 125) are the model's reading. -/
theorem ringFetch : Obligations.RingFetch := by
  unfold Obligations.RingFetch
  refine ⟨?data, ?admin, ?stops⟩
  case data =>
    intro s ctx k r entries hs hr hk
    refine ⟨fun ht hm hpos hin _ hroom hfree => ?_, fun h =>
      acts_of_act hs (exec_dataRingFetch ..) (State.fetchRing_idle (id := .data ctx) hr hk h)⟩
    have hrow := fetchEntries_turn (id := .data ctx) (carrier := .ring ctx) hr hk hm hpos hin hroom hfree
    have hlen : k ≤ entries.length := by omega
    have hring := hrow.ring hr
    rw [List.length_take_of_le hlen] at hring
    exact ⟨_, acts_of_act hs (exec_dataRingFetch ..) (State.fetchRing_turn hr hk ht hm hpos), hrow.fetched hlen, hring⟩
  case admin =>
    intro s fn k r entries hs hr hk
    refine ⟨fun ht hm hpos hin _ hroom hfree => ?_, fun h =>
      acts_of_act hs (exec_adminRingFetch ..) (State.fetchRing_idle hr hk h)⟩
    have hrow := fetchEntries_turn (carrier := .admin fn) hr hk hm hpos hin hroom ((Nat.zero_add k).trans_le hfree)
    have hlen : k ≤ entries.length := by omega
    have hadmin := hrow.admin hr
    rw [List.length_take_of_le hlen] at hadmin
    exact ⟨_, acts_of_act hs (exec_adminRingFetch ..) (State.fetchRing_turn hr hk ht hm hpos), hrow.fetched hlen, hadmin⟩
  case stops =>
    intro s hs
    refine ⟨fun ctx status r hr hm hw => ?_, fun fn status r hr hm hw => ?_, fun ctx r hr hheld hraised hsince => ?_,
      fun g hg hraised hsince => ?_⟩
    · refine acts_of_act hs (exec_fetchFailure ..) ?_
      simp only [State.fetchFailure, show s.ringOf (.data ctx) = some r from hr]
      exact if_neg (by simp [hm, hw])
    · refine acts_of_act hs (exec_fetchFailure ..) ?_
      simp only [State.fetchFailure, hr]
      exact if_neg (by simp [hm, hw])
    · refine acts_of_act hs (exec_heldTimeout ..) ?_
      simp only [State.heldTimeout, hr]
      exact if_pos (by simp [hheld, hraised, hsince])
    · refine acts_of_act hs (exec_fetchHoldTimeout ..) ?_
      simp only [State.fetchHoldTimeout, hg]
      exact if_pos (by simp [hraised, hsince])

end Sys2Proof
end

section
/-! Frames of a session (R129, R130, R136, R137, R139, R140): what one holds and where it is queued, and what it leaves of its session. -/

namespace Sys2Proof.Machine

section
variable {s : State} {n : Nat} {x : Session} (hx : s.session? n = some x)

/-! ## What a frame holds -/

/-- The header of a session's frame, before its CRC. -/
def Session.header (x : Session) (n type flags : Nat) (seq : BitVec 32) (index count length : Nat) : LfHeader :=
  { magic := 0x4C46, version := 1, type := BitVec.ofNat 8 type, session := BitVec.ofNat 16 n
    flags := BitVec.ofNat 16 (flags + b2n x.params.secure), seq := seq, ack := x.ack, segIndex := BitVec.ofNat 16 index
    segCount := BitVec.ofNat 16 count, payLen := BitVec.ofNat 32 length, credit := x.grant, crc := 0 }

/-- What carries a payload of a length to a session's client: link, IP and UDP headers. -/
def State.frameTo (s : State) (p : SessionParams) (length : Nat) : TxFrame :=
  { kind := .lerfold, len := max 64 (p.overhead + length), tci := p.vlan.map fun _ => p.tci, etherType := ipType p.v6
    dst := (s.macOf p.port p.dstIp p.srcIp).getD 0, ip := some (p.ipOut s.ports.udp) }

/-- A session behind a frame of a type: it has carried the grant, and an acknowledgement that was owed up to it. -/
def Session.sentFrame (x : Session) (type : Nat) : Session :=
  { x with sent := x.grant, tx := inc64 x.tx, ackOwed := x.ackOwed && type != 3 && !seqLe x.ackFor x.ack }

include hx

section
variable (type flags : Nat) (seq : BitVec 32) (index count : Nat) (payload : Bytes)

/-- R129: a plain session's frame has the CRC of its header. -/
theorem State.sendFrame_plain (hs : x.params.secure = false) : s.sendFrame n type flags seq index count payload =
    (s.updSession n fun x => x.sentFrame type).enqueue x.params.port { s.frameTo x.params payload.length with
      header := some (x.header n type flags seq index count payload.length).sealed, payload := payload } := by
  simp only [State.sendFrame, hx, hs]
  rw [if_neg (by simp)]
  simp only [Session.header, hs, Bool.false_eq_true, if_false]
  rfl

/-- R136: a SECURE session's frame is sealed under the next frame counter. -/
theorem State.sendFrame_secure (hs : x.params.secure = true) (hc : x.txCounter < 2 ^ 64 - 1) {h : LfHeader}
    (hh : h = x.header n type flags seq index count payload.length) {c : Bytes} {tag : BitVec 128}
    (hseal : Config.gcmSeal x.params.key (frameNonce x.params.salt x.txCounter) h.bytes payload = (c, tag)) :
    s.sendFrame n type flags seq index count payload =
      ((s.frameUnit payload.length).updSession n fun x => { x.sentFrame type with txCounter := x.txCounter + 1 }).enqueue x.params.port
        { s.frameTo x.params payload.length with header := some h, counter := x.txCounter, payload := c, tag := tag } := by
  subst hh
  simp only [Session.header, hs] at hseal
  simp only [State.sendFrame, hx, hs]
  rw [if_neg (by simpa using hc)]
  simp only [Session.header, hs, if_true, hseal]
  rfl

/-- R137: a frame counter at its end closes the session instead. -/
theorem State.sendFrame_exhausted (hs : x.params.secure = true) (hc : 2 ^ 64 - 1 ≤ x.txCounter) :
    s.sendFrame n type flags seq index count payload = s.arrive (.sessionReset n 3) := by
  simp only [State.sendFrame, hx]
  exact if_pos ⟨hs, hc⟩

/-! ## What a frame leaves of its session -/

theorem State.sendFrame_session? : ∃ sent tx owed counter, (s.sendFrame n type flags seq index count payload).session? n =
    some { x with sent := sent, tx := tx, ackOwed := owed, txCounter := counter } := by
  have queued {t : State} (ht : t.session? n = some x) (f : Session → Session) (p : Nat) (g : TxFrame) :
      ((t.updSession n f).enqueue p g).session? n = some (f x) := by
    obtain ⟨_, _, h⟩ := (t.updSession n f).enqueue_frame p g
    rw [h]
    exact State.session?_updSession_same ht f
  by_cases hs : x.params.secure = true
  · by_cases hc : x.txCounter < 2 ^ 64 - 1
    · rw [State.sendFrame_secure hx _ _ _ _ _ _ hs hc rfl rfl]
      obtain ⟨_, _, hunit⟩ := s.frameUnit_frame payload.length
      exact ⟨_, _, _, _, queued (by rw [hunit]; exact hx) _ _ _⟩
    · rw [State.sendFrame_exhausted hx _ _ _ _ _ _ hs (by omega)]
      exact ⟨_, _, _, _, hx⟩
  · rw [State.sendFrame_plain hx _ _ _ _ _ _ (by simpa using hs)]
    exact ⟨_, _, _, _, queued hx _ _ _⟩

end

end

end Sys2Proof.Machine
end

section
/-! The receive checks on a Lerfold frame (R131, R137, R154): a lemma per check, in their order, and what an accepted PING or PONG leaves. -/

namespace Sys2Proof

open Machine

/-- The row on which a frame arrives applies the receive checks to it. -/
theorem acts_lerfoldRow {s t : State} {f : LfFrame} (hc : s.clocked = true) (h : s.receiveLerfold f = t) : Acts (lerfoldRow f) s t := by
  unfold lerfoldRow
  split
  case isTrue h6 =>
    exact acts_of_act hc (exec_pingReceive f s) ((if_pos (by rw [h6]; rfl)).trans h)
  case isFalse h6 =>
    split
    case isTrue h7 => exact acts_of_act hc (exec_pongReceive f s) ((if_pos (by rw [h7]; rfl)).trans h)
    case isFalse h7 => exact acts_of_act hc (exec_requestSegmentReceive f s) ((if_neg (not_or.2 ⟨h6, h7⟩)).trans h)

namespace Machine

section
variable {s : State} {f : LfFrame}

theorem State.receiveLerfold_notOurs (h : (s.port f.port).link ≠ .up ∨ f.udpPort.toNat ≠ s.ports.udp) : s.receiveLerfold f = s := if_pos h

/-- A frame that has passed check 1: it arrives on a port that is UP, for the device's UDP port, with a good header. -/
structure Headed (s : State) (f : LfFrame) : Prop where
  up : (s.port f.port).link = .up
  udp : f.udpPort.toNat = s.ports.udp
  header : headerGood f = true

theorem State.receiveLerfold_badHeader (hup : (s.port f.port).link = .up) (hudp : f.udpPort.toNat = s.ports.udp) (h : headerGood f = false) :
    s.receiveLerfold f = s.discardFrame f 1 := by
  simp only [State.receiveLerfold]
  rw [if_neg (by simp [hup, hudp]), if_pos (by simp [h])]

theorem State.receiveLerfold_noSession (hh : Headed s f) (h : s.session? f.header.session.toNat = none) :
    s.receiveLerfold f = s.discardFrame f 2 := by
  simp only [State.receiveLerfold, h]
  rw [if_neg (by simp [hh.up, hh.udp]), if_neg (by simp [hh.header])]

section
variable {n : Nat} {x : Session} (hh : Headed s f) (hn : n = f.header.session.toNat) (hx : s.session? n = some x)
include hh hn hx

/-- The checks of a frame whose session is not FREE: binding, SECURE flag, then CRC or frame counter. -/
theorem State.receiveLerfold_session : s.receiveLerfold f =
    if !x.bound f then s.discardFrame f 2
    else if f.header.flags.getLsbD 0 != x.params.secure then s.discardFrame f 3
    else if !x.params.secure then
      if f.header.crc = crc32c (f.header.bytes.take 28) then s.acceptFrame n f f.payload else s.discardFrame f 4
    else if !x.counterGood f.counter.toNat then s.discardFrame f 5
    else s.updGorge fun g => { g with rx := g.rx ++ [f] } := by
  subst hn
  simp only [State.receiveLerfold, hx]
  rw [if_neg (by simp [hh.up, hh.udp]), if_neg (by simp [hh.header])]

theorem State.receiveLerfold_unbound (hb : x.bound f = false) : s.receiveLerfold f = s.discardFrame f 2 := by
  rw [State.receiveLerfold_session hh hn hx, if_pos (by simp [hb])]

variable (hb : x.bound f = true)
include hb

theorem State.receiveLerfold_otherFlag (h : f.header.flags.getLsbD 0 ≠ x.params.secure) : s.receiveLerfold f = s.discardFrame f 3 := by
  rw [State.receiveLerfold_session hh hn hx, if_neg (by simp [hb]), if_pos (by simpa using h)]

theorem State.receiveLerfold_secure (hs : x.params.secure = true) (hf : f.header.flags.getLsbD 0 = true) : s.receiveLerfold f =
    if !x.counterGood f.counter.toNat then s.discardFrame f 5 else s.updGorge fun g => { g with rx := g.rx ++ [f] } := by
  rw [State.receiveLerfold_session hh hn hx, if_neg (by simp [hb]), if_neg (by rw [hs, hf]; simp), if_neg (by simp [hs])]

theorem State.receiveLerfold_plain (hs : x.params.secure = false) (hf : f.header.flags.getLsbD 0 = false) : s.receiveLerfold f =
    if f.header.crc = crc32c (f.header.bytes.take 28) then s.acceptFrame n f f.payload else s.discardFrame f 4 := by
  rw [State.receiveLerfold_session hh hn hx, if_neg (by simp [hb]), if_neg (by rw [hs, hf]; simp), if_pos (by simp [hs])]

end

/-! ## A frame that has passed checks 1 to 6 -/

theorem State.acceptFrame_otherType (n : Nat) (payload : Bytes) (h1 : f.header.type ≠ 1) (h6 : f.header.type ≠ 6)
    (h7 : f.header.type ≠ 7) : s.acceptFrame n f payload = s.discardFrame f 7 :=
  if_pos ⟨fun h => h1 (BitVec.eq_of_toNat_eq h), fun h => h6 (BitVec.eq_of_toNat_eq h), fun h => h7 (BitVec.eq_of_toNat_eq h)⟩

/-- A frame of another type than a REQUEST holds no segment. -/
theorem Session.holdsSegment_otherType (x : Session) {h : LfHeader} (h1 : h.type ≠ 1) : x.holdsSegment h = false := by
  rw [Session.holdsSegment, decide_eq_false h1]
  rfl

section
variable {n : Nat} {x : Session} (hx : s.session? n = some x) (payload : Bytes)
include hx

theorem State.acceptFrame_held (h1 : f.header.type = 1) (hheld : x.holdsSegment f.header = true) :
    s.acceptFrame n f payload = s.discardFrame f 8 := by
  simp only [State.acceptFrame, hx]
  rw [if_neg (by simp [h1]), if_pos (by simpa using hheld)]

variable {u : State} (hu : u = s.updSession n fun x => { x with rx := inc64 x.rx, lastRx := s.grain, pings := 0 })
include hu

theorem State.acceptFrame_ping (h6 : f.header.type = 6) :
    s.acceptFrame n f payload = u.sendFrame n 7 0 0 0 0 (padTo 8 payload ++ beBytes 8 s.nowNs) := by
  subst hu
  have hheld := x.holdsSegment_otherType (h := f.header) (by rw [h6]; decide)
  simp only [State.acceptFrame, hx, Option.any_some, hheld, State.session?_updSession_same hx, h6]
  rfl

theorem State.acceptFrame_pong (h7 : f.header.type = 7) : s.acceptFrame n f payload = u := by
  subst hu
  have hheld := x.holdsSegment_otherType (h := f.header) (by rw [h7]; decide)
  simp only [State.acceptFrame, hx, Option.any_some, hheld, State.session?_updSession_same hx, h7]
  rfl

end

end

end Machine

/-- Settles O43: each check is one lemma about `State.receiveLerfold` or, from the type on, about `State.acceptFrame`. -/
theorem receiveChecks : Obligations.ReceiveChecks := by
  intro s f n hc hn
  refine ⟨fun h => acts_lerfoldRow hc (State.receiveLerfold_notOurs h), fun hup hudp =>
    ⟨fun hbad => acts_lerfoldRow hc (State.receiveLerfold_badHeader hup hudp hbad),
      fun hgood hnone => acts_lerfoldRow hc (State.receiveLerfold_noSession ⟨hup, hudp, hgood⟩ (hn ▸ hnone)), fun x hgood hx => ?_⟩⟩
  have hh : Headed s f := ⟨hup, hudp, hgood⟩
  refine ⟨fun hb => acts_lerfoldRow hc (State.receiveLerfold_unbound hh hn hx hb),
    fun hb hf => acts_lerfoldRow hc (State.receiveLerfold_otherFlag hh hn hx hb hf), fun hb hs hf => ?secure, fun u hb hs hf hu => ?plain⟩
  case secure =>
    have hrun := State.receiveLerfold_secure hh hn hx hb hs hf
    exact ⟨fun hbad => acts_lerfoldRow hc (hrun.trans (if_pos (by simp [hbad]))),
      fun hgood => acts_lerfoldRow hc (hrun.trans (if_neg (by simp [hgood])))⟩
  case plain =>
    have hrun := State.receiveLerfold_plain hh hn hx hb hs hf
    refine ⟨fun hbad => acts_lerfoldRow hc (hrun.trans (if_neg hbad)), fun hcrc => ?_⟩
    have haccept {t : State} (h : s.acceptFrame n f f.payload = t) : Acts (lerfoldRow f) s t :=
      acts_lerfoldRow hc (hrun.trans ((if_pos hcrc).trans h))
    refine ⟨fun h1 h6 h7 => haccept (State.acceptFrame_otherType _ _ h1 h6 h7), fun m h1 hseen hm hseg => ?held, fun h6 => ?ping, fun h7 => ?pong⟩
    case held =>
      have hheld : x.holdsSegment f.header = true := by simp [Session.holdsSegment, h1, hseen, hm, hseg]
      exact haccept (State.acceptFrame_held hx _ h1 hheld)
    case ping =>
      have hrow : lerfoldRow f = .pingReceive f := if_pos h6
      exact hrow ▸ haccept (State.acceptFrame_ping hx _ hu h6)
    case pong =>
      have hrow : lerfoldRow f = .pongReceive f := (if_neg (by rw [h7]; decide)).trans (if_pos h7)
      exact hrow ▸ haccept (State.acceptFrame_pong hx _ hu h7)

end Sys2Proof
end

section
/-! A NAK on a SECURE session (R153) whose sealing brings the reseed of a pair's mask generators (R282, R297). -/

namespace Sys2Proof

open Machine

/-- A device in service with the SECURE session 7, whose first cipher pair is one block short of the reseed. -/
def beforeReseed : State := { State.reset with
  mode := .service, time := { running := true }, gorge := { drbg := 1, maskBlocks := [(0, 2 ^ 20 - 1)] }
  wire := { sessions := [(7, { params := { secure := true } })] } }

/-- The NAK's one block brings the reseed, which draws for both lanes. -/
theorem refuseMessage_draws : (beforeReseed.refuseMessage 7 0 5 0 0).free = 2 := by decide

/-- Refutes O44: a refused message changes nothing beside the wire, Col, the ports, Gorge, the events and Basin, says its last clause, but a NAK
on a SECURE session runs blocks on a cipher pair, and at 2^20 of them the DRBG draws new mask seeds. -/
theorem not_requestsArrive : ¬ Obligations.RequestsArrive := by
  intro ⟨_, hrefused⟩
  obtain ⟨_, hleaves⟩ := hrefused beforeReseed 7 0 _ rfl rfl
  obtain ⟨_, _, hframe⟩ := hleaves 5 0 0 _ (.inr (by decide)) rfl
  exact absurd (refuseMessage_draws.symm.trans (congrArg State.free hframe)) (by decide)

end Sys2Proof
end

section
/-! What a session sends of itself (R139, R140, R146 to R150, R154): acknowledgements, credit, keepalive, and the segments of responses. -/

namespace Sys2Proof.Machine

section
variable {s : State} {n : Nat} {x : Session} (hx : s.session? n = some x)

/-! ## ACK, CREDIT, PING -/

section
include hx

theorem State.ackTurn_owed (hr : x.state ≠ .resolving) (h : x.ackOwed = true) : s.ackTurn n = s.sendFrame n 3 0 x.highest 0 0 [] := by
  simp only [State.ackTurn, hx]
  exact if_pos (by simp [hr, h])

theorem State.ackTurn_none (h : x.state = .resolving ∨ x.ackOwed = false) : s.ackTurn n = s := by
  simp only [State.ackTurn, hx]
  exact if_neg (by rcases h with h | h <;> simp [h])

theorem State.creditTurn_owed (ho : x.state = .open_) (h : x.creditOwed = true) : s.creditTurn n = s.sendFrame n 4 0 0 0 0
    (beBytes 1 s.host.power ++ beBytes 1 (b2n (s.inForce.power.getLsbD 0)) ++ beBytes 2 x.seg ++ beBytes 4 20 ++ beBytes 4 150 ++
      beBytes 4 4000) := by
  simp only [State.creditTurn, State.sendCredit, hx]
  exact if_pos (by simp [ho, h])

theorem State.creditTurn_none (h : x.state ≠ .open_ ∨ x.creditOwed = false) : s.creditTurn n = s := by
  simp only [State.creditTurn, hx]
  exact if_neg (by rcases h with h | h <;> simp [h])

theorem State.keepalivePing_silent (ho : x.state = .open_) (hk : x.params.keepalive ≠ 0) (hp : x.pings < 2)
    (hsilent : x.lastRx + x.params.keepalive * 1000 * (x.pings + 1) ≤ s.grain) : s.keepalivePing n =
      (s.updSession n fun x => { x with pings := x.pings + 1 }).sendFrame n 6 0 0 0 0 (beBytes 8 s.nowNs) := by
  simp only [State.keepalivePing, hx]
  exact if_pos ⟨ho, by omega, hp, hsilent⟩

end

/-! ## Segments of a response -/

/-- A failure ends the response behind the data that it holds (R147). -/
def Response.cut (r : Response) : Bool := r.result.status != .success && !r.data.isEmpty

/-- The next segment is the LAST one: the read has ended, and nothing is left for another segment. -/
def Response.ends (r : Response) (seg : Nat) : Bool :=
  !r.growing && if r.cut then decide (r.data.length ≤ r.next * seg) else decide (r.data.length ≤ r.next * seg + seg)

theorem Response.ends_eq (r : Response) (seg : Nat) : r.ends seg =
    (!r.growing && if r.result.status != .success && !r.data.isEmpty then decide (r.data.length ≤ r.next * seg)
      else decide (r.data.length ≤ r.next * seg + seg)) := rfl

/-- The segment count that the next segment carries (R147, R150). -/
def Response.count (r : Response) (seg : Nat) (last : Bool) : Nat :=
  if r.cut && last then r.next + 1 else if r.streamed then 0
  else if r.result.status != .success && !r.cut then 1 else max 1 (ceilDiv r.planned seg)

/-- The trailer of a response. -/
def Response.trailer (r : Response) : Completion := { tag := r.tag, head := 0, phase := false, result := r.result }

/-- The URGENT flag of a response's frames. -/
def Response.urgentFlag (r : Response) : Nat := if r.urgent then 4 else 0

/-- The data of the next segment. -/
def Response.segment (r : Response) (seg : Nat) : Bytes := (r.data.drop (r.next * seg)).take seg

section
variable {r : Response} {seg : Nat}

theorem Response.cut_success (h : r.result.status = .success) : r.cut = false := by simp [Response.cut, h]
theorem Response.cut_empty (h : r.data = []) : r.cut = false := by simp [Response.cut, h]
theorem Response.cut_failed (h : r.result.status ≠ .success) (hd : r.data ≠ []) : r.cut = true := by simp [Response.cut, h, hd]

theorem Response.ends_growing (h : r.growing = true) : r.ends seg = false := by simp [Response.ends, h]

theorem Response.ends_whole (hg : r.growing = false) (h : r.cut = false) : r.ends seg = decide (r.data.length ≤ r.next * seg + seg) := by
  simp [Response.ends, hg, h]

theorem Response.ends_cut (hg : r.growing = false) (h : r.cut = true) : r.ends seg = decide (r.data.length ≤ r.next * seg) := by
  simp [Response.ends, hg, h]

theorem Response.count_success (h : r.result.status = .success) (last : Bool) :
    r.count seg last = if r.streamed then 0 else max 1 (ceilDiv r.planned seg) := by
  simp [Response.count, Response.cut_success h, h]

theorem Response.count_part (h : r.cut = true) : r.count seg false = if r.streamed then 0 else max 1 (ceilDiv r.planned seg) := by
  simp [Response.count, h]

theorem Response.count_cut (h : r.cut = true) : r.count seg true = r.next + 1 := by simp [Response.count, h]

theorem Response.count_empty (h : r.result.status ≠ .success) (hd : r.data = []) : r.count seg true = if r.streamed then 0 else 1 := by
  simp [Response.count, Response.cut_empty hd, h]

theorem Response.not_waiting (h : r.growing = false ∨ r.next * seg + seg ≤ r.data.length ∧ r.next * seg + seg < r.planned) :
    ¬(r.growing = true ∧ (r.data.length < r.next * seg + seg ∨ r.planned ≤ r.next * seg + seg)) := by
  rintro ⟨hg, hw⟩
  rcases h with h | h
  · simp [h] at hg
  · omega

theorem Response.segment_rest (h : r.data.length ≤ r.next * seg + seg) : r.segment seg = r.data.drop (r.next * seg) :=
  List.take_of_length_le (by rw [List.length_drop]; omega)

theorem Response.segment_behind (h : r.data.length ≤ r.next * seg) : r.segment seg = [] := by
  rw [Response.segment, List.drop_of_length_le h, List.take_nil]

end

variable {seq : BitVec 32} {r : Response} (hr : (x.responses.find? fun r => r.seqNo = seq) = some r) (hseg : 0 < x.seg)
include hx

theorem State.wirePos_congr {t : State} {y : Session} (hy : t.session? n = some y) (h : y.highest = x.highest) (q : BitVec 32) :
    t.wirePos n q = s.wirePos n q := by
  simp only [State.wirePos, hx, hy, Option.map_some, h]

/-- What a session has sent leaves the place of its requests. -/
theorem State.wirePos_lastSent {v : State} {type flags : Nat} {index count : Nat} {payload : Bytes} {c : Completion}
    (hv : v = (s.updSession n fun x => (x.complete seq).keep seq c).sendFrame n type flags seq index count payload)
    (f : Session → Session) (hf : ∀ y, (f y).highest = y.highest) : (v.updSession n f).wirePos n seq = s.wirePos n seq := by
  obtain ⟨_, _, _, _, hkept⟩ := State.sendFrame_session? (State.session?_updSession_same hx fun x => (x.complete seq).keep seq c)
    type flags seq index count payload
  rw [← hv] at hkept
  exact State.wirePos_congr hx (State.session?_updSession_same hkept f) (hf _) seq

include hr hseg

theorem State.sendResponse_waits (hg : r.growing = true) (h : r.data.length < r.next * x.seg + x.seg ∨ r.planned ≤ r.next * x.seg + x.seg) :
    s.sendResponse n seq = s := by
  simp only [State.sendResponse, hx, hr, Nat.max_eq_right hseg]
  exact if_pos ⟨hg, h⟩

section
variable (hready : r.growing = false ∨ r.next * x.seg + x.seg ≤ r.data.length ∧ r.next * x.seg + x.seg < r.planned)
include hready

/-- A segment that is not the LAST one leaves its response at the next. -/
theorem State.sendResponse_part (he : r.ends x.seg = false) : s.sendResponse n seq =
    (s.sendFrame n 2 r.urgentFlag seq r.next (r.count x.seg false) (r.segment x.seg)).updSession n fun x => { x with
      responses := x.responses.map fun k => if k.seqNo = seq then { k with next := k.next + 1 } else k } := by
  simp only [State.sendResponse, hx, hr, Nat.max_eq_right hseg]
  rw [if_neg (Response.not_waiting hready), ← Response.ends_eq, he]
  simp only [Bool.false_eq_true, if_false, Nat.zero_add, List.append_nil]
  rfl

/-- The LAST segment carries the trailer, completes the sequence and keeps the completion for a replay. -/
theorem State.sendResponse_last (he : r.ends x.seg = true) {v : State}
    (hv : v = (s.updSession n fun x => (x.complete seq).keep seq r.trailer).sendFrame n 2 (2 + r.urgentFlag) seq r.next
      (r.count x.seg true) (r.segment x.seg ++ r.trailer.bytes)) : s.sendResponse n seq = lastSent s v n seq r := by
  rw [lastSent, ← State.wirePos_lastSent hx hv (fun x => { x with responses := x.responses.filter fun k => k.seqNo != seq }) fun _ => rfl, hv]
  simp only [State.sendResponse, hx, hr, Nat.max_eq_right hseg]
  rw [if_neg (Response.not_waiting hready), ← Response.ends_eq, he]
  rfl

end

end

end Sys2Proof.Machine

namespace Sys2Proof

open Machine

/-- Settles O45: a row that sends leaves what the lemma of its turn says; a response's next segment is the LAST one or not as `Response.ends`
says (`State.sendResponse_part`, `State.sendResponse_last`), and a frame holds what `State.sendFrame_plain` and `State.sendFrame_secure` say.
That a keepalive PING's 8 bytes are the time, where R130 leaves them to the sender, and that CREDIT's fields are big-endian (log entry 16) is the
model's reading. -/
theorem sessionsSend : Obligations.SessionsSend := by
  refine ⟨fun s n x hc hx => ⟨fun hs h => acts_of_act hc (exec_ackSend n s) (State.ackTurn_owed hx hs h),
    fun h => acts_of_act hc (exec_ackSend n s) (State.ackTurn_none hx h),
    fun ho h => acts_of_act hc (exec_creditSend n s) (State.creditTurn_owed hx ho h),
    fun h => acts_of_act hc (exec_creditSend n s) (State.creditTurn_none hx h),
    fun ho hk hp h => acts_of_act hc (exec_keepalivePing n s) (State.keepalivePing_silent hx ho hk hp h), ?responses⟩, ?frames⟩
  case responses =>
    rintro seq r off full urgent trailer next hr hseg rfl rfl rfl rfl rfl
    have hacts {t : State} (h : s.sendResponse n seq = t) : Acts (.responseSegmentSend n seq) s t :=
      acts_of_act hc (exec_responseSegmentSend n seq s) h
    refine ⟨fun hg => ⟨fun h => hacts (State.sendResponse_waits hx hr hseg hg h), fun hlen hplan hok => ?growing⟩, fun hg hok => ?whole,
      fun hg hfail => ?failed⟩
    case growing =>
      have hpart := State.sendResponse_part hx hr hseg (.inr ⟨hlen, hplan⟩) (Response.ends_growing hg)
      rw [Response.count_success hok] at hpart
      exact hacts hpart
    case whole =>
      have hends := Response.ends_whole (seg := x.seg) hg (Response.cut_success hok)
      refine ⟨fun hmore => ?_, fun v hend hv => ?_⟩
      · have hpart := State.sendResponse_part hx hr hseg (.inl hg) (hends.trans (decide_eq_false (by omega)))
        rw [Response.count_success hok] at hpart
        exact hacts hpart
      · refine hacts (State.sendResponse_last hx hr hseg (.inl hg) (hends.trans (decide_eq_true hend)) ?_)
        rw [Response.count_success hok, Response.segment_rest hend]
        exact hv
    case failed =>
      refine ⟨fun v hd hv => ?empty, fun hmore => ?part, fun v hd hend hv => ?cut⟩
      case empty =>
        have hends := Response.ends_whole (seg := x.seg) hg (Response.cut_empty hd)
        refine hacts (State.sendResponse_last hx hr hseg (.inl hg) (hends.trans (decide_eq_true (by simp [hd]))) ?_)
        rw [Response.count_empty hfail hd, Response.segment_behind (by simp [hd])]
        exact hv
      case part =>
        have hcut := Response.cut_failed hfail fun hd => by simp [hd] at hmore
        have hpart := State.sendResponse_part hx hr hseg (.inl hg)
          ((Response.ends_cut hg hcut).trans (decide_eq_false (by omega)))
        rw [Response.count_part hcut] at hpart
        exact hacts hpart
      case cut =>
        have hcut := Response.cut_failed hfail hd
        refine hacts (State.sendResponse_last hx hr hseg (.inl hg) ((Response.ends_cut hg hcut).trans (decide_eq_true hend)) ?_)
        rw [Response.count_cut hcut, Response.segment_behind hend]
        exact hv
  case frames =>
    rintro s n type flags index count seq payload x h base hx rfl rfl
    refine ⟨fun hs => ⟨_, rfl, State.sendFrame_plain hx _ _ _ _ _ _ hs⟩, fun hs hc => ⟨_, rfl, ?_⟩,
      fun hs hc => State.sendFrame_exhausted hx _ _ _ _ _ _ hs hc⟩
    exact State.sendFrame_secure hx _ _ _ _ _ _ hs hc rfl rfl

end Sys2Proof
end

section
/-! Sessions become OPEN and FREE (R133, R134): what a completion leaves of the sessions, a session's opening, its end. -/

namespace Sys2Proof.Machine

section
variable {s : State}

/-! ## What a completion leaves of the wire -/

@[simp] theorem State.queueRelease_wire (hs : List Handle) (o : OwnerTag) (place : Nat) (s : State) :
    (s.queueRelease hs o place).wire = s.wire := by
  refine List.foldlRecOn (motive := fun t : State => t.wire = s.wire) hs _ rfl fun t ht h _ => ?_
  obtain ⟨_, hz⟩ := t.zeroBuffer_frame h o
  rw [State.presentRelease, hz]
  exact ht

@[simp] theorem State.releaseOf_wire (w : Work) (hs : List Handle) : (s.releaseOf w hs).wire = s.wire := State.queueRelease_wire ..

@[simp] theorem State.postRing_wire (id : RingId) (f : Nat) (tag : BitVec 16) (res : Result) : (s.postRing id f tag res).wire = s.wire := by
  unfold State.postRing
  split
  · rfl
  · unfold State.postEntry
    split
    · rfl
    · dsimp only
      split <;> cases id <;> rfl

@[simp] theorem State.admClosed_wire (f : Nat) : (s.admClosed f).wire = s.wire := by
  unfold State.admClosed
  split <;> rfl

@[simp] theorem State.mirror_wire (w : Work) (r : Result) : (s.mirror w r).wire = s.wire := by
  have fold (l : List Pair) (f : State → Pair → State) (hf : ∀ t p, (f t p).wire = t.wire) : (l.foldl f s).wire = s.wire :=
    List.foldlRecOn (motive := fun t : State => t.wire = s.wire) l f rfl fun t ht p _ => (hf t p).trans ht
  unfold State.mirror
  split
  · exact fold _ _ fun t p => by split <;> rfl
  · split
    · exact fold _ _ fun t p => by split <;> rfl
    · rfl

@[simp] theorem State.raise_wire (source fn : Nat) (st : Stamp) (type : Nat) (data : BitVec 128) :
    (s.raise source fn st type data).wire = s.wire := by
  obtain ⟨_, _, h⟩ := s.raise_frame source fn st type data
  rw [h]

theorem State.pairResult_wire (w : Work) (r : Result) : (s.pairResult w r).1.wire = s.wire := by
  have either (c : Prop) [Decidable c] {t u : State} (ht : t.wire = s.wire) (hu : u.wire = s.wire) : (if c then t else u).wire = s.wire := by
    split
    · exact ht
    · exact hu
  unfold State.pairResult
  split
  · rfl
  · dsimp only
    split
    · split <;> rfl
    · split
      · exact either _ rfl (State.raise_wire ..)
      · rfl

theorem Session.respond_frame (x : Session) (q : BitVec 32) (w : Work) (r : Result) : ∃ l, x.respond q w r = { x with responses := l } := by
  unfold Session.respond
  split <;> exact ⟨_, rfl⟩

theorem State.session?_updSession_other (f : Session → Session) {n m : Nat} (h : n ≠ m) : (s.updSession m f).session? n = s.session? n :=
  (mapGet?_map_at s.wire.sessions m n f).trans (if_neg h)

/-- A completion leaves a session as it is, but for the responses that it has to send. -/
theorem State.deliver_session? {n : Nat} {x : Session} (hx : s.session? n = some x) (w : Work) (res : Result) :
    ∃ l, (s.deliver w res).session? n = some { x with responses := l } := by
  have keeps {t : State} (ht : t.wire = s.wire) : t.session? n = some x := by rw [State.session?, ht]; exact hx
  have hpair := s.pairResult_wire w res
  unfold State.deliver
  generalize s.pairResult w res = z at *
  obtain ⟨t, v, r⟩ := z
  dsimp only at *
  generalize hu : State.dropWork _ v.stamp = u
  have hwire : u.wire = s.wire := by
    rw [← hu, ← hpair, ← t.mirror_wire v r]
    split <;> rfl
  split
  case h_1 =>
    refine ⟨x.responses, keeps ?_⟩
    split
    · exact (State.releaseOf_wire ..).trans hwire
    · exact (State.postRing_wire ..).trans ((State.releaseOf_wire ..).trans hwire)
  case h_2 =>
    refine ⟨x.responses, keeps ((State.admClosed_wire _).trans ?_)⟩
    split
    · exact (State.releaseOf_wire ..).trans hwire
    · exact (State.postRing_wire ..).trans ((State.releaseOf_wire ..).trans hwire)
  case h_3 m q _ =>
    split
    · exact ⟨x.responses, keeps ((State.releaseOf_wire ..).trans hwire)⟩
    · by_cases hm : n = m
      · subst hm
        obtain ⟨l, hl⟩ := x.respond_frame q v r
        exact ⟨l, hl ▸ State.session?_updSession_same (keeps hwire) _⟩
      · exact ⟨x.responses, (State.session?_updSession_other _ hm).trans (keeps hwire)⟩
  case h_4 => exact ⟨x.responses, keeps ((State.releaseOf_wire ..).trans hwire)⟩

/-! ## A session opens (R133) -/

section
variable {n : Nat} {x : Session}

/-- A resolution opens the one session that waits for it. -/
theorem State.controlReceive_resolution {p : Nat} {mac : BitVec 48} (hup : (s.port p).link = .up) (hone : s.wire.sessions = [(n, x)])
    (hs : x.state = .resolving) {ip : BitVec 128} (hip : ip = s.nextHop x.params.port x.params.dstIp x.params.srcIp) :
    s.controlReceive p (.resolution ip mac) = (s.learn ip mac).openSession n := by
  have hwaits : (s.learn ip mac).wire.sessions.filter (fun e => e.2.state = .resolving &&
      (s.learn ip mac).nextHop e.2.params.port e.2.params.dstIp e.2.params.srcIp = ip) = [(n, x)] := by
    rw [show (s.learn ip mac).wire.sessions = [(n, x)] from hone]
    refine List.filter_eq_self.2 fun e he => ?_
    rw [List.mem_singleton.1 he, hip]
    exact Bool.and_eq_true_iff.2 ⟨decide_eq_true hs, decide_eq_true rfl⟩
  rw [State.controlReceive, if_neg (by simp [hup])]
  simp only [State.resolved, hwaits]
  rfl

variable (hx : s.session? n = some x)
include hx

theorem State.sessionRecord_session? (y : Session) (cause : Nat) (st : Stamp) : (s.sessionRecord n y cause st).session? n = some x := by
  obtain ⟨_, _, h⟩ := s.record_frame 0x306 st _
  rw [State.sessionRecord, h]
  exact hx

theorem State.sendCredit_session? : ∃ sent tx owed counter, (s.sendCredit n).session? n =
    some { x with sent := sent, tx := tx, ackOwed := owed, txCounter := counter } := by
  simp only [State.sendCredit, hx]
  exact State.sendFrame_session? hx ..

/-- R134: an opened session starts at its initial sequence. -/
theorem State.openSession_session? : ∃ y, (s.openSession n).session? n = some y ∧ y.state = .open_ ∧ y.lowest = x.params.initial ∧
    y.highest = x.params.initial - 1 ∧ y.params = x.params := by
  simp only [State.openSession, hx]
  obtain ⟨_, _, _, _, hcredit⟩ := State.sendCredit_session? (State.session?_updSession_same hx fun y : Session => { y with
    state := .open_, seg := x.params.segment (s.port x.params.port).config.maxFrame, highest := x.params.initial - 1
    ack := x.params.initial - 1, lowest := x.params.initial, sent := x.params.initial - 1, lastRx := s.grain, closer := none })
  have hopen := State.sessionRecord_session? hcredit x 1 (x.closer.getD 0)
  split
  · obtain ⟨_, hdone⟩ := State.deliver_session? hopen _ _
    exact ⟨_, hdone, rfl, rfl, rfl, rfl⟩
  · exact ⟨_, hopen, rfl, rfl, rfl, rfl⟩

/-! ## A session that waits too long, or is CLOSING -/

theorem State.resolveTimeout_late {w : Work} (hw : x.closer.bind s.work? = some w) (hs : x.state = .resolving)
    (hlate : grainOf w.stamp + 1000000 ≤ s.grain) : s.resolveTimeout n =
      (s.updWire fun k => { k with sessions := mapErase k.sessions n }).deliver w { status := .conditionFailed, commit := w.stamp } := by
  simp only [State.resolveTimeout, hx, hw]
  exact if_pos ⟨hs, hlate⟩

theorem State.resolveTimeout_early {w : Work} (hw : x.closer.bind s.work? = some w) (h : s.grain < grainOf w.stamp + 1000000) :
    s.resolveTimeout n = s := by
  simp only [State.resolveTimeout, hx, hw]
  exact if_neg fun hlate => by omega

theorem State.freeSession_busy (h : x.state ≠ .closing ∨ s.sessionBusy n x = true) : s.freeSession n = s := by
  simp only [State.freeSession, hx]
  exact if_pos h

/-- A session that is FREE, with the rules and the limits that named it gone (R134, R206, R380). -/
def State.freed (s : State) (n : Nat) (x : Session) : State :=
  (List.range 16).foldl (fun t r => t.forgetLimit 205 (n * 16 + r))
    (((s.sessionRecord n x 5 0).updWire fun w => { w with sessions := mapErase w.sessions n }).removeRules fun r => r.reqKind = 1 && r.reqNum = n)

section
variable (hs : x.state = .closing) (hidle : s.sessionBusy n x = false)
include hs hidle

theorem State.freeSession_alone (hw : x.closer.bind s.work? = none) : s.freeSession n = s.freed n x := by
  simp only [State.freeSession, hx, hw, Option.filter_none]
  exact if_neg (by simp [hs, hidle])

theorem State.freeSession_closed {w : Work} (hw : x.closer.bind s.work? = some w) (hc : w.carrier.context ≠ some n) :
    s.freeSession n = (s.freed n x).deliver w { commit := w.stamp } := by
  simp only [State.freeSession, hx, hw, Option.filter_some, decide_eq_false hc]
  exact if_neg (by simp [hs, hidle])

theorem State.freeSession_closing {w : Work} (hw : x.closer.bind s.work? = some w) (hc : w.carrier.context = some n) :
    s.freeSession n = (s.updSession n fun x => { x with closer := none }).deliver w { commit := w.stamp } := by
  simp only [State.freeSession, hx, hw, Option.filter_some, decide_eq_true hc]
  exact if_neg (by simp [hs, hidle])

end

end

end

end Sys2Proof.Machine

namespace Sys2Proof

open Machine

/-- Settles O46: each row acts by its turn's lemma. That a SESSION_CLOSE which its own session carried completes first, as the last response
that the session sends, is the model's reading (log entry 68). -/
theorem sessionsBeginAndEnd : Obligations.SessionsBeginAndEnd := by
  rintro s free n x hx hc rfl
  have hfree {t : State} (h : s.freeSession n = t) : Acts (.sessionFree n) s t := acts_of_act hc (exec_sessionFree n s) h
  refine ⟨fun hm w hw hs => ?timeout, fun hs hb hw => hfree (State.freeSession_alone hx hs hb hw),
    fun h => hfree (State.freeSession_busy hx h), fun w hs hb hw hn => hfree (State.freeSession_closed hx hs hb hw hn),
    fun w hs hb hw hn => hfree (State.freeSession_closing hx hs hb hw hn), fun hm p mac u hup hone hs hu => ?resolution⟩
  case timeout =>
    have hrow {t : State} (h : s.resolveTimeout n = t) : Acts (.sessionOpenResolveTimeout n) s t :=
      acts_of_act (State.cored_of_clocked hc hm) (exec_sessionOpenResolveTimeout n s) h
    exact ⟨fun hlate => hrow (State.resolveTimeout_late hx hw hs hlate), fun hearly => hrow (State.resolveTimeout_early hx hw hearly)⟩
  case resolution =>
    subst hu
    obtain ⟨y, hy⟩ := State.openSession_session? (s := s.learn (s.nextHop x.params.port x.params.dstIp x.params.srcIp) mac) hx
    exact ⟨_, y, acts_of_act (State.cored_of_clocked hc hm) (exec_controlFrameReceive p _ s)
      (State.controlReceive_resolution hup hone hs rfl), rfl, hy⟩

end Sys2Proof
end

section
/-! Ports and their counters (R165, R174, R182): what a change of one port, a count, the end of low-power idle and the end of a link leave of the
port, and that they leave every other port alone. -/

namespace Sys2Proof.Machine

/-! ## One port -/

@[simp] theorem State.port_updPort_same (s : State) (p : Nat) (f : Port → Port) : (s.updPort p f).port p = f (s.port p) :=
  (mapGet_mapUpd ..).trans (if_pos rfl)

theorem State.port_updPort_other (s : State) (f : Port → Port) {p q : Nat} (h : q ≠ p) : (s.updPort p f).port q = s.port q :=
  (mapGet_mapUpd ..).trans (if_neg h)

/-- Two changes that agree on the port are the same change. -/
theorem State.updPort_congr {s : State} {p : Nat} {f g : Port → Port} (h : f (s.port p) = g (s.port p)) : s.updPort p f = s.updPort p g :=
  congrArg (fun x => ({ s with ports := { s.ports with ports := mapSet s.ports.ports p x } } : State)) h

/-- A port with one of its counters up, in 40 bits (R182). -/
def Port.counted (x : Port) (i n : Nat) : Port := { x with cnt := mapSet x.cnt i ((mapGet 0 x.cnt i + n) % 2 ^ 40) }

theorem Port.cnt_counted_same (x : Port) (i n : Nat) : mapGet 0 (x.counted i n).cnt i = (mapGet 0 x.cnt i + n) % 2 ^ 40 :=
  (mapGet_mapSet ..).trans (if_pos rfl)

theorem Port.cnt_counted_other (x : Port) (n : Nat) {i k : Nat} (h : k ≠ i) : mapGet 0 (x.counted i n).cnt k = mapGet 0 x.cnt k :=
  (mapGet_mapSet ..).trans (if_neg h)

theorem State.count_eq (s : State) (p i n : Nat) : ∃ e, s.count p i n = { s.updPort p (·.counted i n) with events := e } :=
  s.count_frame p i n

/-! ## A state whose port has changed -/

/-- `t` is `s` but for one port, which has become `y`, and the events. -/
structure PortBecomes (s : State) (p : Nat) (y : Port) (t : State) : Prop where
  self  : t.port p = y
  other : ∀ q, q ≠ p → t.port q = s.port q
  frame : ∃ l e, t = { s with ports := { s.ports with ports := l }, events := e }

section
variable {s t u : State} {p : Nat} {x y : Port}

theorem PortBecomes.refl (s : State) (p : Nat) : PortBecomes s p (s.port p) s := ⟨rfl, fun _ _ => rfl, _, _, rfl⟩

theorem PortBecomes.trans (h : PortBecomes s p x t) (h' : PortBecomes t p y u) : PortBecomes s p y u := by
  refine ⟨h'.self, fun q hq => (h'.other q hq).trans (h.other q hq), ?_⟩
  obtain ⟨_, _, rfl⟩ := h.frame
  obtain ⟨l, e, rfl⟩ := h'.frame
  exact ⟨l, e, rfl⟩

theorem PortBecomes.updPort (h : PortBecomes s p x t) {f : Port → Port} (hf : f x = y) : PortBecomes s p y (t.updPort p f) :=
  h.trans ⟨by rw [State.port_updPort_same, h.self, hf], fun _ hq => t.port_updPort_other f hq, _, _, rfl⟩

theorem PortBecomes.count (h : PortBecomes s p x t) (i n : Nat) : PortBecomes s p (x.counted i n) (t.count p i n) := by
  obtain ⟨e, he⟩ := t.count_eq p i n
  have hu := h.updPort (f := (·.counted i n)) rfl
  rw [he]
  refine ⟨hu.self, hu.other, ?_⟩
  obtain ⟨l, _, hf⟩ := hu.frame
  exact ⟨l, e, by rw [hf]⟩

theorem PortBecomes.localUs (h : PortBecomes s p x t) : t.localUs = s.localUs := by
  obtain ⟨_, _, rfl⟩ := h.frame
  rfl

end

/-! ## Low-power idle ends (R174) -/

/-- A port without transmit LPI, its time in it counted. -/
def Port.lpiTxEnded (x : Port) (now : Nat) : Port := if x.lpiTx then { x with lpiTx := false }.counted 71 (now - x.lpiTxAt) else x

/-- A port without receive LPI, its time in it counted. -/
def Port.lpiRxEnded (x : Port) (now : Nat) : Port := if x.lpiRx then { x with lpiRx := false }.counted 44 (now - x.lpiRxAt) else x

section
variable {s t : State} {p : Nat} {x : Port}

theorem PortBecomes.lpiTxEnd (h : PortBecomes s p x t) : PortBecomes s p (x.lpiTxEnded s.localUs) (t.lpiTxEnd p) := by
  simp only [State.lpiTxEnd, Port.lpiTxEnded, h.self, h.localUs]
  split
  · exact (h.updPort (y := { x with lpiTx := false }) rfl).count 71 _
  · exact h

theorem PortBecomes.lpiRxEnd (h : PortBecomes s p x t) : PortBecomes s p (x.lpiRxEnded s.localUs) (t.lpiRxEnd p) := by
  simp only [State.lpiRxEnd, Port.lpiRxEnded, h.self, h.localUs]
  split
  · exact (h.updPort (y := { x with lpiRx := false }) rfl).count 44 _
  · exact h

end

/-- A port as a link that ends leaves it, but for its counters: its queue, its preemption and its partner are gone (R165). -/
def Port.left (x : Port) (dest : Link) (now : Nat) : Port :=
  { x with link := dest, since := now, restartAt := 0, queue := [], sending := none, preemptOn := false, verifying := false
           partnerTw := none, partnerPreempt := false, lpiTx := false, lpiRx := false }

theorem Port.lpiTxEnded_eq (x : Port) (now : Nat) : ∃ c, x.lpiTxEnded now = { x with lpiTx := false, cnt := c } ∧
    mapGet 0 c 83 = mapGet 0 x.cnt 83 := by
  unfold Port.lpiTxEnded
  split
  · exact ⟨_, rfl, Port.cnt_counted_other _ _ (by decide)⟩
  · next h => exact ⟨x.cnt, by rw [← Bool.eq_false_of_not_eq_true h], rfl⟩

theorem Port.lpiRxEnded_eq (x : Port) (now : Nat) : ∃ c, x.lpiRxEnded now = { x with lpiRx := false, cnt := c } ∧
    mapGet 0 c 83 = mapGet 0 x.cnt 83 := by
  unfold Port.lpiRxEnded
  split
  · exact ⟨_, rfl, Port.cnt_counted_other _ _ (by decide)⟩
  · next h => exact ⟨x.cnt, by rw [← Bool.eq_false_of_not_eq_true h], rfl⟩

/-! ## A link ends (R165) -/

theorem State.linkEvent_frame (s : State) (p cause : Nat) : ∃ e x, s.linkEvent p cause = { s with events := e, terrace := x } :=
  s.raise_frame ..

/-- The frames that wait on a port are counted as discarded. -/
def State.dropQueue (s : State) (p : Nat) : State :=
  if (s.port p).queue.length = 0 then s else s.count p 73 (s.port p).queue.length

theorem State.dropQueue_becomes (s : State) (p : Nat) :
    ∃ c, PortBecomes s p { s.port p with cnt := c } (s.dropQueue p) ∧ mapGet 0 c 83 = mapGet 0 (s.port p).cnt 83 := by
  unfold State.dropQueue
  split
  · exact ⟨_, .refl s p, rfl⟩
  · exact ⟨_, (PortBecomes.refl s p).count 73 _, Port.cnt_counted_other _ _ (by decide)⟩

/-- What the end of a link does to its port before it is reported: the frames that wait are counted and gone, low-power idle ends. -/
def State.quit (s : State) (p : Nat) (dest : Link) : State :=
  (((s.dropQueue p).lpiTxEnd p).lpiRxEnd p).updPort p fun x =>
    { x with link := dest, since := (s.dropQueue p).localUs, restartAt := 0, queue := [], sending := none, preemptOn := false
             verifying := false, partnerTw := none, partnerPreempt := false }

theorem State.quit_becomes (s : State) (p : Nat) (dest : Link) :
    ∃ c, PortBecomes s p { (s.port p).left dest s.localUs with cnt := c } (s.quit p dest) ∧ mapGet 0 c 83 = mapGet 0 (s.port p).cnt 83 := by
  obtain ⟨c, hc, h83⟩ := s.dropQueue_becomes p
  obtain ⟨c', htx, h83'⟩ := Port.lpiTxEnded_eq { s.port p with cnt := c } s.localUs
  obtain ⟨c'', hrx, h83''⟩ := Port.lpiRxEnded_eq { s.port p with cnt := c', lpiTx := false } s.localUs
  have hends := (htx ▸ hc.lpiTxEnd).lpiRxEnd
  rw [hrx] at hends
  refine ⟨c'', ?_, h83''.trans (h83'.trans h83)⟩
  rw [State.quit, hc.localUs]
  exact hends.updPort rfl

theorem State.linkLeave_notUp {s : State} {p : Nat} (h : (s.port p).link ≠ .up) (dest : Link) (cause : Nat) :
    s.linkLeave p dest cause = s.quit p dest := if_neg h

/-- The link event of a port that left UP, with its count. -/
def State.leftUp (s : State) (p cause : Nat) : State := (s.count p 83 1).linkEvent p cause

/-- Where PTP used the port, its master is lost with the link (R18). -/
theorem State.linkLeave_up {s : State} {p : Nat} (h : (s.port p).link = .up) (dest : Link) (cause : Nat) :
    s.linkLeave p dest cause = (s.quit p dest).leftUp p cause ∨
      s.linkLeave p dest cause = ((s.quit p dest).leftUp p cause).masterLost p := by
  by_cases hm : ((s.quit p dest).leftUp p cause).time.inUse = p ∨ p = ((s.quit p dest).leftUp p cause).time.config.timePort ∨
      p = ((s.quit p dest).leftUp p cause).time.config.backup
  · exact .inr ((if_pos h).trans (if_pos hm))
  · exact .inl ((if_pos h).trans (if_neg hm))

/-! ## The time's reference is lost (R18, R26) -/

/-- `t` is `s` but for the time, the events, the recorder and the events kept for the entry into REBUILD. -/
def Retimed (s t : State) : Prop := ∃ t' u e x, t = { s with time := t', update := u, events := e, terrace := x }

section
variable {s t u : State}

theorem Retimed.trans (h : Retimed s t) (h' : Retimed t u) : Retimed s u := by
  obtain ⟨_, _, _, _, rfl⟩ := h
  obtain ⟨t', u, e, x, rfl⟩ := h'
  exact ⟨t', u, e, x, rfl⟩

theorem State.updTime_retimed (s : State) (f : Time → Time) : Retimed s (s.updTime f) := ⟨_, _, _, _, rfl⟩

theorem State.setQuality_retimed (s : State) (q : Quality) (st : Stamp) : Retimed s (s.setQuality q st) := s.setQuality_frame q st

theorem State.refLost_retimed (s : State) (st unc : Nat) : Retimed s (s.refLost st unc) := by
  unfold State.refLost
  split
  · exact (s.updTime_retimed _).trans (State.setQuality_retimed ..)
  · exact (s.updTime_retimed _).trans (State.setQuality_retimed ..)
  · exact (s.updTime_retimed _).trans (State.updTime_retimed ..)
  · exact s.updTime_retimed _

theorem State.refValidNow_retimed (s : State) (st : Nat) : Retimed s (s.refValidNow st) := by
  simp only [State.refValidNow]
  split
  · exact (s.updTime_retimed _).trans (State.setQuality_retimed ..)
  · exact (s.updTime_retimed _).trans (State.setQuality_retimed ..)
  · exact s.updTime_retimed _

theorem State.refChange_retimed (s : State) (st : Nat) (f : Time → Time) : Retimed s (s.refChange st f) := by
  simp only [State.refChange]
  split
  · exact (s.updTime_retimed f).trans (State.refLost_retimed ..)
  · exact (s.updTime_retimed f).trans (State.refValidNow_retimed ..)
  · exact s.updTime_retimed f

theorem Reported.retimed (h : Reported s t) : Retimed s t := by
  obtain ⟨⟨_, _, rfl⟩, _⟩ := h
  exact ⟨_, _, _, _, rfl⟩

theorem State.masterLost_retimed (s : State) (p : Nat) : Retimed s (s.masterLost p) :=
  (s.refChange_retimed ..).trans State.mastersChange_reported.retimed

end

/-! ## What a link's end leaves -/

/-- R165: a link that ends changes no other port, and of its own what the end of its link changes; an exit from UP is counted. -/
theorem State.linkLeave_ports (s : State) (p : Nat) (dest : Link) (cause : Nat) :
    ∃ c, (s.linkLeave p dest cause).port p = { (s.port p).left dest s.localUs with cnt := c } ∧
      ((s.port p).link = .up → mapGet 0 c 83 = (mapGet 0 (s.port p).cnt 83 + 1) % 2 ^ 40) ∧
      ∀ q, q ≠ p → (s.linkLeave p dest cause).port q = s.port q := by
  obtain ⟨c, hq, h83⟩ := s.quit_becomes p dest
  by_cases hup : (s.port p).link = .up
  · have hleft := hq.count 83 1
    have hports : (s.linkLeave p dest cause).ports = ((s.quit p dest).count p 83 1).ports := by
      obtain ⟨_, _, hev⟩ := ((s.quit p dest).count p 83 1).linkEvent_frame p cause
      rcases State.linkLeave_up hup dest cause with h | h
      · rw [h, State.leftUp, hev]
      · obtain ⟨_, _, _, _, hlost⟩ := ((s.quit p dest).leftUp p cause).masterLost_retimed p
        rw [h, hlost, State.leftUp, hev]
    have hport (q : Nat) : (s.linkLeave p dest cause).port q = ((s.quit p dest).count p 83 1).port q := by rw [State.port, hports]; rfl
    refine ⟨_, (hport p).trans hleft.self, fun _ => ?_, fun q hne => (hport q).trans (hleft.other q hne)⟩
    exact (Port.cnt_counted_same ..).trans (by rw [h83])
  · rw [State.linkLeave_notUp hup]
    exact ⟨c, hq.self, fun h => absurd h hup, hq.other⟩

/-- What a link's end leaves of the rest of the state, where the port was not UP. -/
theorem State.linkLeave_frame_notUp {s : State} {p : Nat} (h : (s.port p).link ≠ .up) (dest : Link) (cause : Nat) :
    ∃ l e, s.linkLeave p dest cause = { s with ports := l, events := e } := by
  obtain ⟨_, hq, _⟩ := s.quit_becomes p dest
  obtain ⟨l, e, hf⟩ := hq.frame
  rw [State.linkLeave_notUp h]
  exact ⟨_, e, hf⟩

theorem State.linkLeave_frame (s : State) (p : Nat) (dest : Link) (cause : Nat) :
    ∃ l t u e x, s.linkLeave p dest cause = { s with ports := l, time := t, update := u, events := e, terrace := x } := by
  obtain ⟨_, hq, _⟩ := s.quit_becomes p dest
  by_cases hup : (s.port p).link = .up
  · obtain ⟨l, e, hf⟩ := (hq.count 83 1).frame
    obtain ⟨_, _, hev⟩ := ((s.quit p dest).count p 83 1).linkEvent_frame p cause
    rcases State.linkLeave_up hup dest cause with h | h
    · rw [h, State.leftUp, hev, hf]
      exact ⟨_, _, _, _, _, rfl⟩
    · obtain ⟨_, _, _, _, hlost⟩ := ((s.quit p dest).leftUp p cause).masterLost_retimed p
      rw [h, hlost, State.leftUp, hev, hf]
      exact ⟨_, _, _, _, _, rfl⟩
  · obtain ⟨l, e, hf⟩ := State.linkLeave_frame_notUp hup dest cause
    rw [hf]
    exact ⟨_, _, _, _, _, rfl⟩
end Sys2Proof.Machine
end

section
/-! Link states (R165, R182, R184): each way into and out of a state of a port, and the fault conditions that are counted as they are entered. -/

namespace Sys2Proof.Machine

section
variable {s : State} {p : Nat}

/-! ## A link comes UP -/

/-- R184: the link event of a port that comes UP says UP, its rate, the cause 1, and that preemption is off. -/
theorem State.linkUp_eq (s : State) (p : Nat) (taps : BitVec 24) : s.linkUp p taps =
    (((s.updPort p fun x => { x with
      link := .up, since := s.localUs, restartAt := 0, localFault := false, remoteFault := false, preemptOn := false
      verifying := x.config.preempt, threshold := x.config.base, clean := 0, taps := taps, trained := true }).forgetLimit (34 + 4 * p) 0).forgetLimit
        (35 + 4 * p) 0).raise (32 + 4 * p) 0 0 0x308 (eventData [(1, 3), (1, s.portRate p), (1, 1), (1, 0)]) := by
  simp only [State.linkUp, State.linkEvent]
  generalize hv : ((State.updPort _ _ _).forgetLimit _ _).forgetLimit _ _ = v
  have hport : v.port p = { s.port p with
      link := .up, since := s.localUs, restartAt := 0, localFault := false, remoteFault := false, preemptOn := false
      verifying := (s.port p).config.preempt, threshold := (s.port p).config.base, clean := 0, taps := taps, trained := true } := by
    rw [← hv]
    exact s.port_updPort_same p _
  have hrate : v.portRate p = s.portRate p := by rw [← hv]; rfl
  rw [hport, hrate]
  rfl

theorem State.trained_eq (h : (s.port p).link = .training) (taps : BitVec 24) : s.trained p taps = s.linkUp p taps := if_pos h
theorem State.trained_idle (h : (s.port p).link ≠ .training) (taps : BitVec 24) : s.trained p taps = s := if_neg h

theorem State.aligned_eq (h : (s.port p).link = .down) (h' : (s.port p).config.type = 2) (taps : BitVec 24) :
    s.aligned p taps = s.linkUp p taps := if_pos ⟨h, h'⟩

theorem State.aligned_idle (h : (s.port p).link ≠ .down ∨ (s.port p).config.type ≠ 2) (taps : BitVec 24) : s.aligned p taps = s :=
  if_neg (by tauto)

/-! ## Auto-negotiation -/

theorem State.autoneg_page (h : (s.port p).link = .down) (h' : (s.port p).config.type ≠ 2) (hr : (s.port p).restartAt ≤ s.localUs) :
    s.autoneg p = s.updPort p fun x => { x with link := .training, since := s.localUs, restartAt := 0 } := if_pos ⟨h, h', hr⟩

theorem State.autoneg_idle (h : (s.port p).link ≠ .down ∨ (s.port p).config.type = 2 ∨ s.localUs < (s.port p).restartAt) : s.autoneg p = s :=
  if_neg (by rw [← Nat.not_lt]; tauto)

theorem State.autonegAgain_due (h : (s.port p).link = .down) (h0 : (s.port p).restartAt ≠ 0) (hr : (s.port p).restartAt ≤ s.localUs) :
    s.autonegAgain p = s.updPort p fun x => { x with restartAt := 0 } := if_pos ⟨h, h0, hr⟩

theorem State.trainTimeout_due (h : (s.port p).link = .training) (hr : (s.port p).since + 3000000 ≤ s.localUs) :
    s.trainTimeout p = (s.linkLeave p .down 0).updPort p fun x => { x with restartAt := s.localUs + 500000 } := if_pos ⟨h, hr⟩

theorem State.trainTimeout_idle (h : (s.port p).link ≠ .training ∨ s.localUs < (s.port p).since + 3000000) : s.trainTimeout p = s :=
  if_neg (by rw [← Nat.not_lt]; tauto)

/-! ## Fault conditions (R182) -/

/-- A port with the fault conditions that a cause enters, each entry counted. -/
theorem State.faultCount_becomes (h : (s.port p).link ≠ .disabled) (cause : Nat) :
    ∃ c, PortBecomes s p { s.port p with
        localFault := (s.port p).localFault || cause == 3, remoteFault := (s.port p).remoteFault || cause == 4, cnt := c } (s.faultCount p cause) ∧
      mapGet 0 c 83 = mapGet 0 (s.port p).cnt 83 := by
  simp only [State.faultCount]
  rw [if_neg h]
  split
  · next hc =>
    obtain ⟨rfl, -⟩ := hc
    have hset := (PortBecomes.refl s p).updPort (f := fun x => { x with localFault := true }) rfl
    refine ⟨_, ?_, Port.cnt_counted_other { s.port p with localFault := true } 1 (i := 84) (by decide)⟩
    simpa [Port.counted] using hset.count 84 1
  · next hl =>
    split
    · next hc =>
      obtain ⟨rfl, -⟩ := hc
      have hset := (PortBecomes.refl s p).updPort (f := fun x => { x with remoteFault := true }) rfl
      refine ⟨_, ?_, Port.cnt_counted_other { s.port p with remoteFault := true } 1 (i := 85) (by decide)⟩
      simpa [Port.counted] using hset.count 85 1
    · next hr =>
      refine ⟨(s.port p).cnt, ?_, rfl⟩
      have hlocal : ((s.port p).localFault || cause == 3) = (s.port p).localFault := by
        cases hf : (s.port p).localFault <;> simp_all
      have hremote : ((s.port p).remoteFault || cause == 4) = (s.port p).remoteFault := by
        cases hf : (s.port p).remoteFault <;> simp_all
      rw [hlocal, hremote]
      exact .refl s p

theorem State.linkFault_notUp (h : (s.port p).link ≠ .up) (hd : (s.port p).link ≠ .disabled) (cause : Nat) :
    s.linkFault p cause = s.faultCount p cause := by
  obtain ⟨_, hf, _⟩ := State.faultCount_becomes hd cause
  exact if_neg fun hup => h (by rw [hf.self] at hup; exact hup.1)

theorem State.linkFault_up (h : (s.port p).link = .up) {cause : Nat} (h2 : 2 ≤ cause) (h4 : cause ≤ 4) :
    s.linkFault p cause = (s.faultCount p cause).linkLeave p .down cause := by
  obtain ⟨_, hf, _⟩ := State.faultCount_becomes (by rw [h]; exact Link.noConfusion) cause
  exact if_pos ⟨by rw [hf.self]; exact h, h2, h4⟩

end

end Sys2Proof.Machine

namespace Sys2Proof

open Machine

/-- Settles O38, by the lemma of each transition. -/
theorem linkStates : Obligations.LinkStates := by
  rintro s up p taps hc rfl
  have hpage {t : State} (h : s.autoneg p = t) : Acts (.autonegPageReceived p) s t := acts_of_act hc (exec_autonegPageReceived p s) h
  have htrain {t : State} (h : s.trained p taps = t) : Acts (.linkTrainingDone p taps) s t :=
    acts_of_act hc (exec_linkTrainingDone p taps s) h
  have halign {t : State} (h : s.aligned p taps = t) : Acts (.c2mLinkUp p taps) s t := acts_of_act hc (exec_c2mLinkUp p taps s) h
  have htimeout {t : State} (h : s.trainTimeout p = t) : Acts (.trainingTimeout p) s t := acts_of_act hc (exec_trainingTimeout p s) h
  have hfault {cause : Nat} {t : State} (h : s.linkFault p cause = t) : Acts (.linkFault p cause) s t :=
    acts_of_act hc (exec_linkFault p cause s) h
  refine ⟨fun hd ht hr => hpage (State.autoneg_page hd ht hr), fun h => hpage (State.autoneg_idle h),
    fun h => htrain ((State.trained_eq h taps).trans (s.linkUp_eq p taps)), fun h => htrain (State.trained_idle h taps),
    fun hd ht => halign ((State.aligned_eq hd ht taps).trans (s.linkUp_eq p taps)), fun h => halign (State.aligned_idle h taps),
    fun ht hr => ?timeout, fun h => htimeout (State.trainTimeout_idle h),
    fun hd h0 hr => acts_of_act hc (exec_autonegRestart p s) (State.autonegAgain_due hd h0 hr),
    fun cause hup h2 h4 => ?fault, fun hup hd => ?counted⟩
  case timeout =>
    obtain ⟨c, hp, -, hother⟩ := s.linkLeave_ports p .down 0
    obtain ⟨l, e, hf⟩ := State.linkLeave_frame_notUp (s := s) (p := p) (by rw [ht]; exact Link.noConfusion) .down 0
    have hself := (s.linkLeave p .down 0).port_updPort_same p fun x => { x with restartAt := s.localUs + 500000 }
    rw [hp] at hself
    refine ⟨_, htimeout (State.trainTimeout_due ht hr), ?_⟩
    rw [hself]
    refine ⟨rfl, rfl, rfl, rfl, rfl, rfl, fun q hq => (State.port_updPort_other _ _ hq).trans (hother q hq), ?_⟩
    rw [hf]
    rfl
  case fault =>
    obtain ⟨c, hfp, h83⟩ := State.faultCount_becomes (s := s) (p := p) (by rw [hup]; exact Link.noConfusion) cause
    obtain ⟨c', hp, hup83, hother⟩ := (s.faultCount p cause).linkLeave_ports p .down cause
    obtain ⟨_, _, _, _, _, hf⟩ := (s.faultCount p cause).linkLeave_frame p .down cause
    obtain ⟨_, _, hff⟩ := hfp.frame
    rw [hfp.self] at hp hup83
    refine ⟨_, hfault (State.linkFault_up hup h2 h4), ?_⟩
    rw [hp]
    refine ⟨rfl, rfl, rfl, rfl, rfl, rfl, rfl, rfl, rfl, ?_, fun q hq => (hother q hq).trans (hfp.other q hq), ?_⟩
    · rw [hup83 hup, h83]
    · rw [hf, hff]
  case counted =>
    have hrow {cause : Nat} {t : State} (h : s.faultCount p cause = t) : Acts (.linkFault p cause) s t :=
      hfault ((State.linkFault_notUp hup hd cause).trans h)
    refine ⟨fun h => hrow ?_, fun h => hrow ?_, fun h => hrow ?_, fun h => hrow ?_⟩ <;> simp [State.faultCount, hd, h]

end Sys2Proof
end

section
/-! A MAC's turn (R167, R172, R173, R176, R177, R182): the frame whose turn it is, what a frame sent whole or ended early counts, and what a
turn sends. -/

namespace Sys2Proof.Machine

/-! ## The frame whose turn it is (R172) -/

/-- The search for an express frame behind frames that are none. -/
theorem Port.nextExpress_go_some {pre l : List TxFrame} {f : TxFrame} {rest : List TxFrame}
    (h : Port.nextExpress.go pre l = some (f, rest)) :
    ∃ a b, l = a ++ f :: b ∧ rest = pre.reverse ++ (a ++ b) ∧ f.express = true ∧ ∀ g ∈ a, g.express = false := by
  induction l generalizing pre with
  | nil => cases h
  | cons g l ih =>
    rw [Port.nextExpress.go] at h
    split at h
    · next hg =>
      obtain ⟨rfl, rfl⟩ := Prod.mk.inj (Option.some.inj h)
      exact ⟨[], l, rfl, rfl, hg, by simp⟩
    · next hg =>
      obtain ⟨a, b, rfl, rfl, hf, ha⟩ := ih h
      exact ⟨g :: a, b, rfl, by simp, hf, by simpa [hg] using ha⟩

theorem Port.nextExpress_go_none {pre l : List TxFrame} (h : Port.nextExpress.go pre l = none) : ∀ g ∈ l, g.express = false := by
  induction l generalizing pre with
  | nil => simp
  | cons g l ih =>
    rw [Port.nextExpress.go] at h
    split at h
    · cases h
    · next hg => simpa [hg] using ih h

/-- R172: the express frame that has waited longest, or where there is none the frame that has. -/
theorem Port.nextFrame_first {x : Port} {f : TxFrame} {rest : List TxFrame} (h : x.nextFrame = some (f, rest)) :
    ∃ pre post : List TxFrame, x.queue = pre ++ f :: post ∧ rest = pre ++ post ∧
      (f.express = true ∧ (∀ g ∈ pre, g.express = false) ∨ pre = [] ∧ ∀ g ∈ x.queue, g.express = false) := by
  unfold Port.nextFrame at h
  split at h
  · next r hr =>
    obtain rfl := Option.some.inj h
    obtain ⟨a, b, hq, hrest, hf, ha⟩ := Port.nextExpress_go_some hr
    exact ⟨a, b, hq, hrest, .inl ⟨hf, ha⟩⟩
  · next hn =>
    split at h
    · cases h
    · next g l hq =>
      obtain ⟨rfl, rfl⟩ := Prod.mk.inj (Option.some.inj h)
      exact ⟨[], l, hq, rfl, .inr ⟨rfl, Port.nextExpress_go_none hn⟩⟩

/-! ## Several counters (R182) -/

section
variable {s t : State} {p : Nat} {x : Port}

theorem counted_cons (s : State) (p : Nat) (e : Nat × Nat) (l : List (Nat × Nat)) : counted s p (e :: l) = counted (s.count p e.1 e.2) p l := rfl

theorem counted_append (s : State) (p : Nat) (l l' : List (Nat × Nat)) : counted s p (l ++ l') = counted (counted s p l) p l' :=
  List.foldl_append ..

/-- Counters leave of a port all but its counters. -/
theorem PortBecomes.counted (h : PortBecomes s p x t) (l : List (Nat × Nat)) :
    ∃ c, PortBecomes s p { x with cnt := c } (Sys2Proof.counted t p l) := by
  induction l generalizing x t with
  | nil => exact ⟨x.cnt, h⟩
  | cons e l ih => exact ih (x := x.counted e.1 e.2) (t := t.count p e.1 e.2) (h.count e.1 e.2)

/-! ## A frame's end (R176, R182) -/

variable {f : TxFrame} {n : Nat}

/-- A frame has been sent whole: its counters, the clean run, and the frame on the wire. -/
theorem State.frameSent_eq (s : State) (p : Nat) (f : TxFrame) (preempts : Nat) : s.frameSent p f preempts =
    ((Sys2Proof.counted s p (sentCounts f preempts)).updPort p fun x => { x with clean := x.clean + 1 }).emit (.frame p f) := by
  rw [sentCounts, counted_append, counted_append, counted_append, counted_append]
  unfold State.frameSent TxFrame.tagged
  dsimp only
  congr 2
  cases f.tci.isSome <;> cases f.stamped <;> by_cases hn : preempts = 0 <;> simp [hn, Sys2Proof.counted]

theorem State.frameEnd_whole {late : Bool} (h : late = false ∨ f.express = true ∨ f.len ≤ (s.port p).threshold) (preempts : Nat) :
    s.frameEnd p f late preempts =
      ((Sys2Proof.counted s p (sentCounts f preempts)).updPort p fun x => { x with clean := x.clean + 1 }).emit (.frame p f) := by
  rw [← State.frameSent_eq]
  refine if_neg ?_
  rcases h with rfl | h | h <;> simp [*]

/-- The threshold of a port after an underrun (R177). -/
def Port.raisedThreshold (x : Port) : Nat := if x.config.fixed then x.threshold else min x.config.maxFrame (x.threshold + 1024)

/-- R176, R177: a frame whose data come late is ended with an inverted FCS, and the port's threshold rises. -/
theorem State.frameEnd_underrun (he : f.express = false) (hl : (s.port p).threshold < f.len) (preempts : Nat) :
    s.frameEnd p f true preempts =
      (((s.updPort p fun x => { x with threshold := (s.port p).raisedThreshold, clean := 0 }).count p 64 1).emit
        (.frame p { f with aborted := true })).raiseLimited (34 + 4 * p) 0 0 0 (some 0x309) fun n =>
          eventData [(4, n), (4, (s.port p).raisedThreshold)] :=
  if_pos (by simp [he, hl])

/-! ## A turn with no frame under way -/

section
variable {rest : List TxFrame} {late part : Bool} (hup : (s.port p).link = .up) (hs : (s.port p).sending = none)
    (hn : (s.port p).nextFrame = some (f, rest))
include hup hs hn

theorem State.transmit_next : s.transmit p late part =
    if (s.port p).config.maxFrame < f.len then s.updPort p fun x => { x with queue := rest }
    else if part && (s.port p).mayPart f then
      (s.updPort p fun x => { x with queue := rest }).updPort p fun x => { x with sending := some { frame := f } }
    else (s.updPort p fun x => { x with queue := rest }).frameEnd p f late 0 := by
  simp [State.transmit, hup, hs, hn]

theorem State.transmit_tooLong (hm : (s.port p).config.maxFrame < f.len) :
    s.transmit p late part = s.updPort p fun x => { x with queue := rest } := (State.transmit_next hup hs hn).trans (if_pos hm)

theorem State.transmit_begins (hm : f.len ≤ (s.port p).config.maxFrame) (hpart : (s.port p).mayPart f = true) :
    s.transmit p late true =
      (s.updPort p fun x => { x with queue := rest }).updPort p fun x => { x with sending := some { frame := f } } := by
  rw [State.transmit_next hup hs hn, if_neg (Nat.not_lt.2 hm), if_pos (by simp [hpart])]

theorem State.transmit_ends (hm : f.len ≤ (s.port p).config.maxFrame) (hpart : part = false ∨ (s.port p).mayPart f = false) :
    s.transmit p late part = (s.updPort p fun x => { x with queue := rest }).frameEnd p f late 0 := by
  rw [State.transmit_next hup hs hn, if_neg (Nat.not_lt.2 hm), if_neg (by rcases hpart with h | h <;> simp [h])]

end

/-! ## A turn with a frame under way (R172, R173) -/

/-- A frame under way that goes on counts as continued where it stood preempted. -/
def State.countResumed (s : State) (p : Nat) (g : Sending) : State := if g.paused then s.count p 68 1 else s

theorem State.countResumed_becomes (s : State) (p : Nat) (g : Sending) : ∃ c, PortBecomes s p { s.port p with cnt := c } (s.countResumed p g) := by
  unfold State.countResumed
  split
  · exact ⟨_, (PortBecomes.refl s p).count 68 1⟩
  · exact ⟨_, .refl s p⟩

section
variable {g : Sending} {late part : Bool} (hup : (s.port p).link = .up) (hs : (s.port p).sending = some g)
include hup hs

/-- An express frame preempts the frame under way. -/
theorem State.transmit_preempts {rest : List TxFrame} (hon : (s.port p).preemptOn = true) (hn : (s.port p).nextExpress = some (f, rest)) :
    s.transmit p late part = (s.updPort p fun x => { x with
      queue := rest, sending := some { g with paused := true, preempts := if g.paused then g.preempts else g.preempts + 1 } }).frameSent p f 0 := by
  simp [State.transmit, hup, hs, hon, hn]

theorem State.transmit_goesOn (h : (s.port p).preemptOn = false ∨ (s.port p).nextExpress = none) : s.transmit p late part =
    if part then (s.countResumed p g).updPort p fun x => { x with sending := some { g with paused := false } }
    else ((s.countResumed p g).updPort p fun x => { x with sending := none }).frameEnd p g.frame late g.preempts := by
  have hnone : (if (s.port p).preemptOn then (s.port p).nextExpress else none) = none := by
    rcases h with h | h <;> simp [h]
  simp only [State.transmit, hup, hs, hnone, ne_eq, not_true_eq_false, if_false, State.countResumed]

end

end

end Sys2Proof.Machine

namespace Sys2Proof

open Machine

theorem acts_frameTransmit {s t : State} {p : Nat} {late part : Bool} (hc : s.clocked = true) (h : s.transmit p late part = t) :
    Acts (.frameTransmit p late part) s t := acts_of_act hc (exec_frameTransmit p late part s) h

/-- Settles O41. A turn with no frame under way sends the frame whose turn it is; one with a frame under way lets an express frame preempt it,
or goes on with it. That a queued frame longer than the port's M is dropped at its turn is the model's reading (log entry 142). -/
theorem frameTransmission : Obligations.FrameTransmission := by
  constructor
  · rintro s u p f rest late part hc hup hs hn rfl
    have hrow {t : State} (h : s.transmit p late part = t) : Acts (.frameTransmit p late part) s t := acts_frameTransmit hc h
    refine ⟨Port.nextFrame_first hn, fun hm => hrow (State.transmit_tooLong hup hs hn hm),
      fun hm => ⟨fun hp hon he hl => ?begins, fun hends => ?ends⟩⟩
    case begins =>
      subst hp
      exact hrow (State.transmit_begins hup hs hn hm (by simp [Port.mayPart, hon, he, hl]))
    case ends =>
      have hend := State.transmit_ends (late := late) (part := part) hup hs hn hm (by
        simp only [Port.mayPart]
        rcases hends with h | h | h | h <;> simp [h, Nat.not_le.2])
      have hport := s.port_updPort_same p fun x => { x with queue := rest }
      refine ⟨fun h => hrow (hend.trans (State.frameEnd_whole (by rw [hport]; exact h) 0)), fun t hlate he hlen ht => ?_⟩
      subst hlate ht
      refine hrow (hend.trans ?_)
      rw [State.frameEnd_underrun he (by rw [hport]; exact hlen), hport]
      rfl
  · rintro s u p g late part hc hup hs rfl
    refine ⟨fun f rest hon hn => acts_frameTransmit hc ((State.transmit_preempts hup hs hon hn).trans (State.frameSent_eq ..)), fun h => ?_⟩
    have hon := State.transmit_goesOn (late := late) (part := part) hup hs h
    refine ⟨fun hp => acts_frameTransmit hc (hon.trans (if_pos hp)), fun hp hend => acts_frameTransmit hc (hon.trans ?_)⟩
    obtain ⟨c, hres⟩ := s.countResumed_becomes p g
    have hwhole := (hres.updPort (f := fun x => { x with sending := none }) rfl).self
    rw [if_neg (by simp [hp]), State.frameEnd_whole (by rw [hwhole]; exact hend)]
    rfl

end Sys2Proof
end

section
/-! The start threshold T (R176, R177): its decay, what frames sent and underruns make of it, and a port set with UNDERRUN_FIXED. -/

namespace Sys2Proof.Machine

section
variable {s t : State} {p : Nat} {f : TxFrame}

theorem State.decay_due (h : 2 ^ 20 ≤ (s.port p).clean) (hf : (s.port p).config.fixed = false) :
    s.decay p = s.updPort p fun x => { x with threshold := max x.config.base (x.threshold - 256), clean := 0 } :=
  if_pos ⟨h, by simp [hf]⟩

theorem State.decay_idle (h : (s.port p).clean < 2 ^ 20 ∨ (s.port p).config.fixed = true) : s.decay p = s :=
  if_neg fun ⟨hc, hf⟩ => h.elim (Nat.not_lt.2 hc) (by simpa using hf)

/-! ## Frames sent and underruns -/

/-- A frame sent whole adds one to the clean run, and changes nothing else of its port but counters. -/
theorem State.frameSent_port (s : State) (p : Nat) (f : TxFrame) (preempts : Nat) :
    ∃ c, (s.frameSent p f preempts).port p = { s.port p with clean := (s.port p).clean + 1, cnt := c } := by
  obtain ⟨c, hc⟩ := (PortBecomes.refl s p).counted (sentCounts f preempts)
  rw [State.frameSent_eq]
  exact ⟨c, (hc.updPort (f := fun x => { x with clean := x.clean + 1 }) rfl).self⟩

/-- An underrun ends the clean run, is counted, and changes nothing else of its port but the threshold. -/
theorem State.frameEnd_underrun_port (he : f.express = false) (hl : (s.port p).threshold < f.len) (preempts : Nat) :
    (s.frameEnd p f true preempts).port p = { s.port p with threshold := (s.port p).raisedThreshold, clean := 0 }.counted 64 1 := by
  have hbecomes := ((PortBecomes.refl s p).updPort (f := fun x => { x with threshold := (s.port p).raisedThreshold, clean := 0 }) rfl).count 64 1
  rw [State.frameEnd_underrun he hl]
  obtain ⟨_, _, hr⟩ := State.raiseLimited_frame _ (34 + 4 * p) 0 0 0 (some 0x309) _
  rw [hr]
  exact hbecomes.self

/-! ## A port set (R163) -/

theorem State.threshold_lpiTxEnd (s : State) (p : Nat) : ((s.lpiTxEnd p).port p).threshold = (s.port p).threshold := by
  obtain ⟨_, h, _⟩ := (s.port p).lpiTxEnded_eq s.localUs
  rw [(PortBecomes.refl s p).lpiTxEnd.self, h]

theorem State.threshold_lpiRxEnd (s : State) (p : Nat) : ((s.lpiRxEnd p).port p).threshold = (s.port p).threshold := by
  obtain ⟨_, h, _⟩ := (s.port p).lpiRxEnded_eq s.localUs
  rw [(PortBecomes.refl s p).lpiRxEnd.self, h]

theorem State.threshold_linkLeave (s : State) (p : Nat) (dest : Link) (cause : Nat) :
    ((s.linkLeave p dest cause).port p).threshold = (s.port p).threshold := by
  obtain ⟨_, h, _⟩ := s.linkLeave_ports p dest cause
  rw [h]
  rfl

/-- R177: UNDERRUN_FIXED takes T to the base, and nothing that the new configuration does to the link moves it. -/
theorem State.portApply_fixed (s : State) (p : Nat) {c : PortConfig} (h : c.fixed = true) : ((s.portApply p c).port p).threshold = c.base := by
  simp only [State.portApply]
  generalize hset : s.updPort p _ = u
  have hu : (u.port p).threshold = c.base := by
    rw [← hset, State.port_updPort_same]
    exact if_pos (.inl h)
  generalize hlpi : (if c.lpi then u else (u.lpiTxEnd p).lpiRxEnd p) = v
  have hv : (v.port p).threshold = c.base := by
    rw [← hlpi]
    split
    · exact hu
    · rw [State.threshold_lpiRxEnd, State.threshold_lpiTxEnd, hu]
  have hleave (dest : Link) : ((v.linkLeave p dest 5).port p).threshold = c.base := (v.threshold_linkLeave ..).trans hv
  split
  · split
    · exact hleave _
    · exact hv
  · split
    · rw [State.port_updPort_same]
      split
      · exact hleave _
      · exact hv
    · exact hv

end

end Sys2Proof.Machine

namespace Sys2Proof

open Machine

/-- Settles O42. T falls after a clean run and rises at an underrun, as `Port.raisedThreshold` says. That a PORT_SET with UNDERRUN_FIXED takes T
to its base is the model's reading (log entry 70). -/
theorem underrunThreshold : Obligations.UnderrunThreshold := by
  rintro s p x hc rfl
  refine ⟨fun h hf => acts_of_act hc (exec_thresholdDecay p s) (State.decay_due h hf),
    fun h => acts_of_act hc (exec_thresholdDecay p s) (State.decay_idle h),
    fun f rest hup hs hn hm => ⟨fun he hl => ?underrun, ?sent⟩, fun c hf => s.portApply_fixed p hf⟩
  case underrun =>
    have hport := s.port_updPort_same p fun x => { x with queue := rest }
    have hend := State.frameEnd_underrun_port (s := s.updPort p fun x => { x with queue := rest }) (p := p) he (by rw [hport]; exact hl) 0
    rw [hport] at hend
    refine ⟨_, acts_frameTransmit hc (State.transmit_ends hup hs hn hm (.inl rfl)), ?_⟩
    rw [hend]
    refine ⟨rfl, Port.cnt_counted_same .., fun hf => ?_, fun hf => ?_⟩
    · simp [Port.counted, Port.raisedThreshold, hf]
    · simp [Port.counted, Port.raisedThreshold, hf]
  case sent =>
    obtain ⟨c, hport⟩ := State.frameSent_port (s.updPort p fun x => { x with queue := rest }) p f 0
    rw [State.port_updPort_same] at hport
    refine ⟨_, acts_frameTransmit hc ((State.transmit_ends hup hs hn hm (.inl rfl)).trans
      ((State.frameEnd_whole (.inl rfl) 0).trans (State.frameSent_eq ..).symm)), ?_⟩
    rw [hport]
    exact ⟨rfl, rfl⟩

end Sys2Proof
end

section
/-! LLDP_TRANSMIT on a port that is not UP while the cores do not run (R15, R165, R172): the row has no effect at all, not even what follows of
itself behind a command that acts. -/

namespace Sys2Proof.Machine

/-- A row of the firmware has no effect while the cores do not run. -/
theorem exec_lldpTransmit_uncored {s : State} (h : s.cored = false) (p : Nat) : exec (.lldpTransmit p) s = .next s := by
  rw [exec_lldpTransmit, execLldpTransmit, State.act_neg h]

/-- A device in BOOT whose clock runs, with no free buffer in pool 0 and fetching not held yet. -/
def bootBeforeHold : State := { State.reset with mode := .boot, time := { State.reset.time with running := true } }

theorem bootBeforeHold_fetchHold : bootBeforeHold.host.fetchHold = none := rfl
theorem bootBeforeHold_finish_holds : bootBeforeHold.finish.host.fetchHold = some 0 := by decide

end Sys2Proof.Machine

namespace Sys2Proof

open Machine

/-- Refutes O39: its last clause lets LLDP_TRANSMIT on a port that is not UP act, with nothing but what follows of itself, in every mode; but in
BOOT the cores do not run, the row has no effect, and the hold of fetching (R194), which would follow, does not begin. -/
theorem not_portUpkeep : ¬ Obligations.PortUpkeep := by
  intro h
  obtain ⟨_, _, _, _, _, _, hdown⟩ := h bootBeforeHold 0 _ rfl rfl
  obtain ⟨hlldp, _⟩ := hdown (by decide)
  rw [Acts, exec_lldpTransmit_uncored rfl] at hlldp
  have hhold := congrArg (fun t : State => t.host.fetchHold) (Host.Outcome.next.inj hlldp)
  exact absurd (bootBeforeHold_fetchHold.symm.trans (hhold.trans bootBeforeHold_finish_holds)) (by decide)

end Sys2Proof
end

section
/-! A received frame (R166 to R170, R172, R178, R179): its class, the chain of buffers that it lands in, and what its counters look at. -/

namespace Sys2Proof.Machine

section
variable {s t u : State} {p : Nat} {x : Port}

/-! ## What counts leave alone -/

/-- Counters of which only those with something to count go up. -/
theorem counted_filter (s : State) (p : Nat) (l : List (Nat × Nat)) :
    counted s p (l.filter fun e => e.2 != 0) = l.foldl (fun s e => s.countSome p e.1 e.2) s := by
  induction l generalizing s with
  | nil => rfl
  | cons e l ih =>
    by_cases h : e.2 = 0
    · simp [State.countSome, h, ih]
    · simp [State.countSome, h, ih, counted_cons]

theorem State.count_ports (h : t.ports = s.ports) (p i n : Nat) : (t.count p i n).ports = (s.count p i n).ports := by
  obtain ⟨_, hs⟩ := s.count_frame p i n
  obtain ⟨_, ht⟩ := t.count_frame p i n
  rw [hs, ht]
  exact congrArg (fun x : Ports => { x with ports := mapUpd {} x.ports p (·.counted i n) }) h

theorem counted_ports (h : t.ports = s.ports) (p : Nat) (l : List (Nat × Nat)) : (counted t p l).ports = (counted s p l).ports := by
  induction l generalizing s t with
  | nil => exact h
  | cons e l ih => exact ih (State.count_ports h p e.1 e.2)

/-- `t` is `s` but for the ports, the events and the recorder. -/
def Tallied (s t : State) : Prop := ∃ l e x, t = { s with ports := l, events := e, terrace := x }

theorem Tallied.trans (h : Tallied s t) (h' : Tallied t u) : Tallied s u := by
  obtain ⟨_, _, _, rfl⟩ := h
  obtain ⟨l, e, x, rfl⟩ := h'
  exact ⟨l, e, x, rfl⟩

theorem PortBecomes.tallied (h : PortBecomes s p x t) : Tallied s t := by
  obtain ⟨_, e, rfl⟩ := h.frame
  exact ⟨_, e, _, rfl⟩

theorem State.count_tallied (s : State) (p i n : Nat) : Tallied s (s.count p i n) := ((PortBecomes.refl s p).count i n).tallied

theorem counted_tallied (s : State) (p : Nat) (l : List (Nat × Nat)) : Tallied s (counted s p l) := by
  obtain ⟨_, h⟩ := (PortBecomes.refl s p).counted l
  exact h.tallied

/-! ## The filters (R168, R170, R202) -/

/-- The address filter and FILTER of a port look at the same in two states. -/
structure SameFilter (p : Nat) (s t : State) : Prop where
  config  : (t.port p).config = (s.port p).config
  udp     : t.ports.udp = s.ports.udp
  time    : t.time = s.time
  cluster : t.cluster = s.cluster
  mode    : t.mode = s.mode

theorem SameFilter.trans (h : SameFilter p s t) (h' : SameFilter p t u) : SameFilter p s u :=
  ⟨h'.config.trans h.config, h'.udp.trans h.udp, h'.time.trans h.time, h'.cluster.trans h.cluster, h'.mode.trans h.mode⟩

theorem SameFilter.counted (s : State) (p : Nat) (l : List (Nat × Nat)) : SameFilter p s (Sys2Proof.counted s p l) := by
  obtain ⟨_, h⟩ := (PortBecomes.refl s p).counted l
  obtain ⟨_, _, hf⟩ := h.frame
  exact ⟨by rw [h.self], by rw [hf], by rw [hf], by rw [hf], by rw [hf]⟩

theorem SameFilter.isTimePort (h : SameFilter p s t) : t.isTimePort p = s.isTimePort p := by rw [State.isTimePort, h.time]; rfl

theorem SameFilter.groupsOf (h : SameFilter p s t) : t.groupsOf p = s.groupsOf p := by
  have hptp : t.ptpGroups = s.ptpGroups := by rw [State.ptpGroups, h.time]; rfl
  rw [State.groupsOf, h.config, h.isTimePort, hptp, h.cluster]
  rfl

theorem SameFilter.passesFilter (h : SameFilter p s t) (dst : BitVec 48) : t.passesFilter p dst = s.passesFilter p dst := by
  simp only [State.passesFilter, h.config, h.groupsOf]

theorem SameFilter.filterEntries (h : SameFilter p s t) (tx : Bool) : t.filterEntries p tx = s.filterEntries p tx := by
  have hentries : t.rxEntries p = s.rxEntries p := by
    funext e
    rw [State.rxEntries, h.isTimePort, h.udp, h.time, h.cluster]
    rfl
  have hrx : t.rxFilter p = s.rxFilter p := by simp only [State.rxFilter, h.config, h.isTimePort, hentries]
  have htx : t.txFilter p = s.txFilter p := by simp only [State.txFilter, h.udp]
  simp only [State.filterEntries, hrx, htx]

theorem SameFilter.frameClass {f : RxFrame} (h : SameFilter f.port s t) : t.frameClass f = s.frameClass f := by
  have hresult : t.filterResult (rxFields f) = s.filterResult (rxFields f) := by
    simp only [State.filterResult, show (rxFields f).port = f.port from rfl, h.filterEntries]
  simp only [State.frameClass, h.groupsOf, hresult, h.mode]

/-! ## Buffers (R178, R179, R193) -/

/-- A frame's draws take what it needs, or what pool 3 still holds. -/
theorem State.rxDraws_taken (s : State) (o : OwnerTag) (n : Nat) (acc : List Handle) : ∃ t hs,
    s.rxDraws o n acc = (t, acc.reverse ++ hs, decide (n ≤ (s.pool 3).free)) ∧ Buffered s t ∧ hs.length = min n (s.pool 3).free ∧
      (∀ h ∈ hs, h.pool = 3) ∧ (t.pool 3).free + hs.length = (s.pool 3).free := by
  induction n generalizing s acc with
  | zero => exact ⟨s, [], by simp [State.rxDraws], .refl s, by simp, by simp, by simp⟩
  | succ n ih =>
    by_cases hfree : 1 ≤ (s.pool 3).free
    · obtain ⟨t, hs, ht, hb, hlen, hpool, hcount⟩ := ih (s.takeBuffer 3 o).1 ((s.takeBuffer 3 o).2 :: acc)
      rw [State.takeBuffer_free] at ht hlen hcount
      have hwhole : decide (n ≤ (s.pool 3).free - 1) = decide (n + 1 ≤ (s.pool 3).free) := decide_eq_decide.2 (by omega)
      refine ⟨t, (s.takeBuffer 3 o).2 :: hs, ?_, (s.takeBuffer_buffered 3 o).trans hb, ?_, ?_, ?_⟩
      · rw [State.rxDraws, State.rxDraw_free hfree]
        simp only [ht, List.reverse_cons, List.append_assoc, List.singleton_append, hwhole]
      · rw [List.length_cons, hlen]
        omega
      · exact List.forall_mem_cons.2 ⟨rfl, hpool⟩
      · rw [List.length_cons]
        omega
    · refine ⟨s.failDraw 3, [], ?_, ⟨_, _, _, rfl⟩, by simp; omega, by simp, ?_⟩
      · rw [State.rxDraws, State.rxDraw, if_neg hfree]
        simp
        omega
      · rw [State.failDraw, State.pool_updPool_same]
        rfl

theorem State.zeroBuffer_free (s : State) (h : Handle) (o : OwnerTag) (k : Nat) : ((s.zeroBuffer h o).pool k).free = (s.pool k).free := by
  unfold State.zeroBuffer
  split
  · by_cases hk : k = h.pool
    · subst hk
      rw [State.pool_updBuffer_same]
    · rw [State.pool_updBuffer_other _ hk]
  · rfl

/-- R193: buffers presented for release stand at the intake in their order, and are not free yet. -/
theorem State.queueRelease_presents (s : State) (hs : List Handle) (o : OwnerTag) (place : Nat) : ∃ b,
    s.queueRelease hs o place = { s with
      basin := b, col := { s.col with intake := s.col.intake ++ hs.map fun h => .release h o place } } ∧
    ∀ k, ((s.queueRelease hs o place).pool k).free = (s.pool k).free := by
  induction hs generalizing s with
  | nil => exact ⟨s.basin, by simp [State.queueRelease], fun _ => rfl⟩
  | cons h hs ih =>
    obtain ⟨b, hq, hfree⟩ := ih (s.presentRelease h o place)
    obtain ⟨_, hz⟩ := s.zeroBuffer_frame h o
    refine ⟨b, ?_, fun k => (hfree k).trans (s.zeroBuffer_free h o k)⟩
    rw [show s.queueRelease (h :: hs) o place = (s.presentRelease h o place).queueRelease hs o place from rfl, hq, State.presentRelease, hz]
    simp [State.arrive, State.updCol]

/-- `t` is `s` once a frame of `n` buffers has drawn the chain `hs`, as far as pool 3 holds it, and the chain has been presented for release. -/
structure Landed (s : State) (o : OwnerTag) (n : Nat) (hs : List Handle) (t : State) : Prop where
  length : hs.length = min n (s.pool 3).free
  pools  : ∀ h ∈ hs, h.pool = 3
  free   : (t.pool 3).free + hs.length = (s.pool 3).free
  frame  : ∃ b e x, t = { s with
    basin := b, events := e, terrace := x, col := { s.col with intake := s.col.intake ++ hs.map fun h => .release h o 0 } }

theorem State.rxDraws_landed (s : State) (o : OwnerTag) (n : Nat) : ∃ t hs, s.rxDraws o n [] = (t, hs, decide (n ≤ (s.pool 3).free)) ∧
    Landed s o n hs (t.queueRelease hs o 0) := by
  obtain ⟨t, hs, ht, ⟨_, e, x, hframe⟩, hlen, hpool, hfree⟩ := s.rxDraws_taken o n []
  obtain ⟨b, hrelease, hkept⟩ := t.queueRelease_presents hs o 0
  refine ⟨t, hs, ht, hlen, hpool, by rw [hkept, hfree], b, e, x, ?_⟩
  rw [hrelease, hframe]

theorem Landed.ports {o : OwnerTag} {n : Nat} {hs : List Handle} (h : Landed s o n hs t) : t.ports = s.ports := by
  obtain ⟨_, _, _, rfl⟩ := h.frame
  rfl

theorem Landed.sameFilter {o : OwnerTag} {n : Nat} {hs : List Handle} (h : Landed s o n hs t) : SameFilter p s t := by
  obtain ⟨_, _, _, rfl⟩ := h.frame
  exact ⟨rfl, rfl, rfl, rfl, rfl⟩

end

/-! ## The row of R166 -/

theorem State.frameFault_eq (s : State) (f : RxFrame) : s.frameFault f = badFrame f (s.port f.port).config.maxFrame := by
  unfold State.frameFault badFrame
  simp only [Nat.succ_le_iff]
  cases f.fcsOk <;> simp

/-- What a frame counts in its row of R166, good or not, on a port with the maximum frame `m`. -/
def State.frameRow (s : State) (f : RxFrame) (m : Nat) : State :=
  match badFrame f m with
  | some k => s.count f.port k 1
  | none => Sys2Proof.counted s f.port ([(1, 1), (0, f.len), (2 + castOf f.dst, 1), (6 + sizeBin f.len, 1)] ++ if f.tag.isSome then [(5, 1)] else [])

theorem State.countGood_eq (s : State) (f : RxFrame) : s.countGood f =
    Sys2Proof.counted s f.port ([(1, 1), (0, f.len), (2 + castOf f.dst, 1), (6 + sizeBin f.len, 1)] ++ if f.tag.isSome then [(5, 1)] else []) := by
  unfold State.countGood
  split <;> rfl

/-- The row is counters of one port. -/
theorem State.frameRow_counted (f : RxFrame) (m : Nat) : ∃ l, ∀ s : State, s.frameRow f m = Sys2Proof.counted s f.port l := by
  unfold State.frameRow
  cases badFrame f m with
  | some k => exact ⟨[(k, 1)], fun _ => rfl⟩
  | none => exact ⟨_, fun _ => rfl⟩

theorem State.frameRow_ports {s t : State} (h : t.ports = s.ports) (f : RxFrame) (m : Nat) : (t.frameRow f m).ports = (s.frameRow f m).ports := by
  obtain ⟨l, hrow⟩ := State.frameRow_counted f m
  rw [hrow, hrow, counted_ports h]

/-! ## A frame that has landed -/

/-- What a frame counts once its chain has been drawn, whole or not, and presented for release. -/
def State.tally (s : State) (f : RxFrame) (whole : Bool) : State :=
  let row := s.frameRow f (s.port f.port).config.maxFrame
  if !whole then row.noBuffer f.port
  else if (badFrame f (s.port f.port).config.maxFrame).isSome then row
  else row.count f.port (row.frameClass f) 1

section
variable (s : State) (f : RxFrame)

theorem State.noBuffer_tallied (p : Nat) : Tallied s (s.noBuffer p) := by
  obtain ⟨_, _, h⟩ := (s.count p 23 1).raiseLimited_frame (35 + 4 * p) 0 0 0 (some 0x30A)
    fun n => eventData [(4, n), (4, ((s.count p 23 1).pool 3).free)]
  exact (s.count_tallied p 23 1).trans ⟨_, _, _, h⟩

theorem State.noBuffer_ports (p : Nat) : (s.noBuffer p).ports = (s.count p 23 1).ports := by
  obtain ⟨_, _, h⟩ := (s.count p 23 1).raiseLimited_frame (35 + 4 * p) 0 0 0 (some 0x30A)
    fun n => eventData [(4, n), (4, ((s.count p 23 1).pool 3).free)]
  rw [show s.noBuffer p = _ from h]

theorem State.tally_tallied (whole : Bool) : Tallied s (s.tally f whole) := by
  obtain ⟨l, hrow⟩ := State.frameRow_counted f (s.port f.port).config.maxFrame
  have htally := counted_tallied s f.port l
  simp only [State.tally, hrow]
  split
  · exact htally.trans (State.noBuffer_tallied ..)
  · split
    · exact htally
    · exact htally.trans (State.count_tallied ..)

theorem State.tally_short : (s.tally f false).ports = ((s.frameRow f (s.port f.port).config.maxFrame).count f.port 23 1).ports :=
  State.noBuffer_ports ..

theorem State.tally_bad (h : (badFrame f (s.port f.port).config.maxFrame).isSome = true) :
    s.tally f true = s.frameRow f (s.port f.port).config.maxFrame := if_pos h

theorem State.tally_good (h : badFrame f (s.port f.port).config.maxFrame = none) :
    s.tally f true = (s.frameRow f (s.port f.port).config.maxFrame).count f.port (s.frameClass f) 1 := by
  obtain ⟨l, hrow⟩ := State.frameRow_counted f (s.port f.port).config.maxFrame
  have hclass : (s.frameRow f (s.port f.port).config.maxFrame).frameClass f = s.frameClass f := by
    rw [hrow]
    exact (SameFilter.counted s f.port l).frameClass
  rw [← hclass]
  exact if_neg (by simp [h])

/-! ## A frame arrives -/

/-- FEC's codewords and symbols of a frame, counted. -/
def State.fecCounted : State :=
  Sys2Proof.counted s f.port ([(80, f.fecCorrected), (81, f.fecBad), (82, f.fecSymbols)].filter fun e => e.2 != 0)

/-- The fragments that a frame was merged from, counted. -/
def State.partsCounted : State := Sys2Proof.counted (s.fecCounted f) f.port ([(41, f.fragments)].filter fun e => e.2 != 0)

theorem State.partsCounted_sameFilter : SameFilter f.port s (s.partsCounted f) := (SameFilter.counted ..).trans (SameFilter.counted ..)

theorem State.partsCounted_tallied : Tallied s (s.partsCounted f) := (counted_tallied ..).trans (counted_tallied ..)

theorem State.countSome_fec :
    ((s.countSome f.port 80 f.fecCorrected).countSome f.port 81 f.fecBad).countSome f.port 82 f.fecSymbols = s.fecCounted f :=
  (counted_filter s f.port [(80, f.fecCorrected), (81, f.fecBad), (82, f.fecSymbols)]).symm

theorem State.countSome_parts : (s.fecCounted f).countSome f.port 41 f.fragments = s.partsCounted f :=
  (counted_filter (s.fecCounted f) f.port [(41, f.fragments)]).symm

theorem State.fecCounted_config : ((s.fecCounted f).port f.port).config = (s.port f.port).config := (SameFilter.counted ..).config

/-- R172: with PREEMPT_EN clear the parts of a preempted frame are no frames. -/
theorem State.receiveFrame_part (hp : (s.port f.port).config.preempt = false) (h : f.fragments ≠ 0 ∨ f.mergeError = true) :
    s.receiveFrame f = s.fecCounted f := by
  simp only [State.receiveFrame, State.countSome_fec]
  exact if_pos ⟨by rw [State.fecCounted_config, hp]; rfl, h⟩

section
variable {s f} (hp : (s.port f.port).config.preempt = true ∨ f.fragments = 0 ∧ f.mergeError = false)
include hp

theorem State.fecCounted_noPart : ¬((!((s.fecCounted f).port f.port).config.preempt) = true ∧ (f.fragments ≠ 0 ∨ f.mergeError = true)) := by
  rw [State.fecCounted_config]
  rcases hp with h | ⟨h, h'⟩ <;> simp [*]

theorem State.receiveFrame_mergeError (hm : f.mergeError = true) : s.receiveFrame f = (s.partsCounted f).count f.port 42 1 := by
  simp only [State.receiveFrame, State.countSome_fec, State.countSome_parts]
  rw [if_neg (State.fecCounted_noPart hp), if_pos hm]

variable (hm : f.mergeError = false)
include hm

/-- R168: a frame that the address filter holds back counts in its row, and a good one as filtered. -/
theorem State.receiveFrame_filtered (hf : s.passesFilter f.port f.dst = false) : s.receiveFrame f =
    if (badFrame f (s.port f.port).config.maxFrame).isSome then (s.partsCounted f).frameRow f (s.port f.port).config.maxFrame
    else ((s.partsCounted f).frameRow f (s.port f.port).config.maxFrame).count f.port 22 1 := by
  have hsame := s.partsCounted_sameFilter f
  simp only [State.receiveFrame, State.countSome_fec, State.countSome_parts]
  rw [if_neg (State.fecCounted_noPart hp), if_neg (by simp [hm]), hsame.passesFilter, hf]
  have hfault : (s.partsCounted f).frameFault f = badFrame f (s.port f.port).config.maxFrame := by rw [State.frameFault_eq, hsame.config]
  simp only [Bool.false_eq_true, if_false, State.queueRelease, List.foldl_nil, hfault, State.frameRow]
  cases badFrame f (s.port f.port).config.maxFrame with
  | some k => simp
  | none => simp [State.countGood_eq]

/-- R178: a frame that passes lands in its chain of buffers, good or not, and the chain goes back. -/
theorem State.receiveFrame_landed (hf : s.passesFilter f.port f.dst = true) {d : State} {hs : List Handle} {whole : Bool}
    (hd : (s.partsCounted f).rxDraws { cls := 0, number := f.port } (s.chainLength f.port f.len) [] = (d, hs, whole)) :
    s.receiveFrame f = (d.queueRelease hs { cls := 0, number := f.port } 0).tally f whole := by
  have hsame := s.partsCounted_sameFilter f
  have hlength : (s.partsCounted f).chainLength f.port f.len = s.chainLength f.port f.len := by
    simp only [State.chainLength, hsame.config]
  simp only [State.receiveFrame, State.countSome_fec, State.countSome_parts]
  rw [if_neg (State.fecCounted_noPart hp), if_neg (by simp [hm]), hsame.passesFilter, hf, if_pos rfl, hlength, hd]
  simp only [State.frameFault_eq, State.tally, State.frameRow]
  cases badFrame f _ with
  | some k => simp
  | none => simp [State.countGood_eq]

end

end

end Sys2Proof.Machine

namespace Sys2Proof

open Machine

/-- Settles O40. A frame that passes the address filter is tallied (`State.tally`) in the state that its draws and the release of its chain
leave, which only Basin and Col differ in from the one before. That the parts of a preempted frame are no frames with PREEMPT_EN clear (log
entry 142), and that a frame without a buffer counts RX_NO_BUFFER beside its row (log entry 35), is the model's reading. -/
theorem frameReception : Obligations.FrameReception := by
  rintro s v u f p m n hc rfl hup rfl rfl rfl rfl
  have hrow {t : State} (h : s.receiveFrame f = t) : Acts (.frameReceive f) s t :=
    acts_of_act hc (exec_frameReceive f s) ((if_pos hup).trans h)
  refine ⟨fun hp h => hrow (s.receiveFrame_part f hp h), fun hp => ⟨fun hm => hrow (State.receiveFrame_mergeError hp hm), ?_⟩⟩
  intro row hm hrow'
  obtain rfl : row = (s.partsCounted f).frameRow f (s.port f.port).config.maxFrame := hrow'
  refine ⟨fun hf => ⟨fun hb => ?bad, fun hb => ?filtered⟩, fun hf => ?landed⟩
  case bad => exact hrow ((State.receiveFrame_filtered hp hm hf).trans (if_pos hb))
  case filtered => exact hrow ((State.receiveFrame_filtered hp hm hf).trans (if_neg (by simp [hb])))
  case landed =>
    obtain ⟨d, hs, hd, hland⟩ := (s.partsCounted f).rxDraws_landed { cls := 0, number := f.port } (s.chainLength f.port f.len)
    have hframe := State.receiveFrame_landed hp hm hf hd
    obtain ⟨_, _, _, hparts⟩ := s.partsCounted_tallied f
    have hpool : ((s.partsCounted f).pool 3).free = (s.pool 3).free := by rw [hparts]; rfl
    have hsame : SameFilter f.port s _ := (s.partsCounted_sameFilter f).trans hland.sameFilter
    have hports := hland.ports
    obtain ⟨hlen, hpools, hfree, _, _, _, hafter⟩ := hland
    rw [hpool] at hd hframe hlen hfree
    generalize d.queueRelease hs _ 0 = r at *
    obtain ⟨_, _, _, htally⟩ := r.tally_tallied f (decide (s.chainLength f.port f.len ≤ (s.pool 3).free))
    refine ⟨_, hs, hrow hframe, hlen, hpools, ?col, ?free, fun (hn : s.chainLength f.port f.len ≤ (s.pool 3).free) hb => ?landsBad,
      fun (hn : s.chainLength f.port f.len ≤ (s.pool 3).free) hb => ?landsGood, fun (hn : (s.pool 3).free < s.chainLength f.port f.len) => ?short,
      ?rest⟩
    case col => rw [htally, hafter, hparts]
    case free => rw [htally]; exact hfree
    case landsBad =>
      rw [decide_eq_true hn, State.tally_bad _ _ (by rw [hsame.config]; exact hb), hsame.config]
      exact State.frameRow_ports hports ..
    case landsGood =>
      rw [decide_eq_true hn, State.tally_good _ _ (by rw [hsame.config]; exact hb), hsame.config, hsame.frameClass]
      exact State.count_ports (State.frameRow_ports hports ..) ..
    case short =>
      rw [decide_eq_false (Nat.not_le.2 hn), State.tally_short, hsame.config]
      exact State.count_ports (State.frameRow_ports hports ..) ..
    case rest => rw [htally, hafter, hparts]

end Sys2Proof
end

section
/-! The SAVE operations of Basin and Glen, the holes of a rule table, the rule port and the lock port (R186, R198, R205, R207, R371). -/

namespace Sys2Proof.Machine

/-! ## SAVE of the Basin split (R186) -/

/-- The split that POOL_NEXT names: MiB of each pool. -/
def State.nextSplit (s : State) : List Nat := (List.range 8).map fun p => (s.pool p).next

/-- The code that a SAVE of a split answers: 0 where it is stored. -/
def splitCode (next : List Nat) : Nat :=
  if next.sum ≠ 64 then 1 else if next.any (· = 0) ∨ next.getD 3 0 < 4 then 2 else 0

section
variable {next : List Nat}

theorem splitCode_stored (hsum : next.sum = 64) (hsome : ∀ n ∈ next, n ≠ 0) (hrx : 4 ≤ next.getD 3 0) : splitCode next = 0 := by
  have hshare : ¬(next.any (· = 0) ∨ next.getD 3 0 < 4) := by
    rw [List.any_eq_true, not_or]
    exact ⟨fun ⟨n, hn, h0⟩ => hsome n hn (of_decide_eq_true h0), Nat.not_lt.2 hrx⟩
  rw [splitCode, if_neg (not_not_intro hsum), if_neg hshare]

theorem splitCode_sum (hsum : next.sum ≠ 64) : splitCode next = 1 := if_pos hsum

theorem splitCode_share (hsum : next.sum = 64) (h : (∃ n ∈ next, n = 0) ∨ next.getD 3 0 < 4) : splitCode next = 2 := by
  have hshare : next.any (· = 0) ∨ next.getD 3 0 < 4 :=
    h.imp_left fun ⟨n, hn, h0⟩ => List.any_eq_true.2 ⟨n, hn, decide_eq_true h0⟩
  rw [splitCode, if_neg (not_not_intro hsum), if_pos hshare]

end

section
variable {s : State}

theorem State.basinSave_stored (h : splitCode s.nextSplit = 0) : s.basinSave =
    ({ s with basin := { s.basin with stored := some s.nextSplit, saveDone := true, saveError := false, saveCode := 0 } } : State).metaWrite 0 :=
  if_pos h

theorem State.basinSave_refused {code : Nat} (h : splitCode s.nextSplit = code) (h0 : code ≠ 0) : s.basinSave =
    ({ s with basin := { s.basin with saveDone := false, saveError := true, saveCode := code } } : State).raise 182 0 0 0x402
      (eventData [(1, code)]) := by
  subst h
  exact if_neg h0

/-! ## SAVE of Glen's bank assignment, and the restoring of holes (R198, R207) -/

theorem State.glenSave_stored (h : s.glen.saveCheck = 0) : s.glenSave =
    ({ s with glen := { s.glen with
      stored := some ((List.range 32).map s.glen.nextBank), saveDone := true, saveError := false, saveCode := 0 } } : State).metaWrite 0 :=
  if_pos h

theorem State.glenSave_refused {code : Nat} (h : s.glen.saveCheck = code) (h0 : code ≠ 0) : s.glenSave =
    ({ s with glen := { s.glen with saveDone := false, saveError := true, saveCode := code } } : State).raise 188 0 0 0x406
      (eventData [(1, code)]) := by
  subst h
  exact if_neg h0

theorem State.holeRestore_due {t : Nat} (h : t ∈ s.glen.restore) : s.holeRestore t =
    { s with glen := { s.glen.setTable (t == 1) (s.glen.build (t == 1)) with restore := s.glen.restore.filter fun k => k != t } } :=
  if_pos h

/-! ## The rule port (R205) -/

/-- The rows of a rule operation are RULE_OP with its number, and Col stamps them. -/
theorem ruleRow_stamped {op : Nat} {row : Bool → Instr}
    (h : (op, row) ∈ ([(1, .ruleAdd), (2, .ruleRemove), (3, .ruleSetResult)] : List (Nat × (Bool → Instr)))) :
    op ≠ 0 ∧ op < 4 ∧ ∀ (edge : Bool) (s : State), exec (row edge) s = s.stamped s.cored edge fun s => s.ruleCommand op := by
  simp only [List.mem_cons, List.not_mem_nil, or_false, Prod.mk.injEq] at h
  obtain ⟨rfl, rfl⟩ | ⟨rfl, rfl⟩ | ⟨rfl, rfl⟩ := h
  · exact ⟨by decide, by decide, exec_ruleAdd⟩
  · exact ⟨by decide, by decide, exec_ruleRemove⟩
  · exact ⟨by decide, by decide, exec_ruleSetResult⟩

theorem State.accessBad_word {v : Nat} (hm : s.mode.running = true) (hv : v < 4294967296) (f bar a : Nat) :
    s.accessBad f bar a v = s.badAccess f (accessContext bar a) v := by
  rw [State.accessBad, if_pos hm, Nat.mod_eq_of_lt hv]

/-- An operation while BUSY is a bad access of function 0 with its number as the value. -/
theorem State.ruleCommand_busy {op : Nat} (hm : s.mode.running = true) (hb : s.glen.busy = true) (hop : op < 4) : s.ruleCommand op =
    ({ s with glen := { s.glen with busyWrite := true } } : State).badAccess 0 0xFFFF op := by
  rw [State.ruleCommand, if_pos hb]
  exact State.accessBad_word (s := { s with glen := { s.glen with busyWrite := true } }) hm (by omega) 0 0 0x100

/-! ## The lock port (R371) -/

theorem State.lockSubmit_busy (hm : s.mode.running = true) (hb : s.update.lockBusy = true) :
    s.lockSubmit = { s with update := { s.update with busyWrite := true } } := by
  rw [State.lockSubmit, if_neg (by simp [hm]), if_pos hb]
  rfl

end

/-- A stamped row arrives with what its effect leaves. -/
theorem arrives_of_effect {s t : State} {c : Bool → Instr} {ok : Bool} {f : State → State} (hok : ok = true)
    (hc : ∀ edge : Bool, exec (c edge) s = s.stamped ok edge f) (h : f s = t) : Arrives c s t :=
  h ▸ arrives_of_stamped hok hc

end Sys2Proof.Machine

namespace Sys2Proof

open Machine

/-- Settles O17. A SAVE stores or refuses by its code (`splitCode`, `Glen.saveCheck`), and a port takes an operation or refuses it by its BUSY. -/
theorem savesAndOperationPorts : Obligations.SavesAndOperationPorts := by
  refine ⟨?saves, ?ports⟩
  case saves =>
    rintro s next hc rfl
    have hbasin {t : State} (h : s.basinSave = t) : Acts .basinSave s t := acts_of_act hc (exec_basinSave s) h
    have hglen {t : State} (h : s.glenSave = t) : Acts .glenSave s t := acts_of_act hc (exec_glenSave s) h
    exact ⟨fun hsum hsome hrx => hbasin (State.basinSave_stored (splitCode_stored hsum hsome hrx)),
      fun hsum => hbasin (State.basinSave_refused (splitCode_sum hsum) (by decide)),
      fun hsum hshare => hbasin (State.basinSave_refused (splitCode_share hsum hshare) (by decide)),
      fun hcheck => hglen (State.glenSave_stored hcheck),
      fun code h0 hcheck => hglen (State.glenSave_refused hcheck h0),
      fun table htable => acts_of_act hc (exec_holeRestore table s) (State.holeRestore_due htable)⟩
  case ports =>
    intro s hc
    obtain ⟨_, hm⟩ := State.cored_iff.1 hc
    refine ⟨fun hb op row hrow => ?ruleFree, fun hb op row hrow => ?ruleBusy, fun hb => ?lockFree, fun hb => ?lockBusy⟩
    case ruleFree =>
      obtain ⟨h0, _, hexec⟩ := ruleRow_stamped hrow
      exact arrives_of_effect hc (hexec · s) (State.ruleCommand_free h0 hb)
    case ruleBusy =>
      obtain ⟨_, hop, hexec⟩ := ruleRow_stamped hrow
      exact arrives_of_effect hc (hexec · s) (State.ruleCommand_busy hm hb hop)
    case lockFree => exact arrives_of_effect hc (exec_lockSubmit · s) (State.lockSubmit_free hm hb)
    case lockBusy => exact arrives_of_effect hc (exec_lockSubmit · s) (State.lockSubmit_busy hm hb)

end Sys2Proof
end

section
/-! Bulk DRAM (R268 to R273, R275): a merge entry that retires, a line that is read, and the scrubber's turn. -/

namespace Sys2Proof.Machine

/-! ## What events leave of the memory -/

section
variable (s : State) (source sub fn : Nat) (st : Stamp)

@[simp] theorem State.raise_dram (type : Nat) (data : BitVec 128) : (s.raise source fn st type data).dram = s.dram := by
  obtain ⟨e, x, h⟩ := s.raise_frame source fn st type data
  rw [h]

@[simp] theorem State.raise_index (type : Nat) (data : BitVec 128) : (s.raise source fn st type data).index = s.index := by
  obtain ⟨e, x, h⟩ := s.raise_frame source fn st type data
  rw [h]

@[simp] theorem State.raiseLimited_dram (type : Option Nat) (data : Nat → BitVec 128) :
    (s.raiseLimited source sub fn st type data).dram = s.dram := by
  obtain ⟨e, x, h⟩ := s.raiseLimited_frame source sub fn st type data
  rw [h]

@[simp] theorem State.raiseLimited_inForce (type : Option Nat) (data : Nat → BitVec 128) :
    (s.raiseLimited source sub fn st type data).inForce = s.inForce := by
  obtain ⟨e, x, h⟩ := s.raiseLimited_frame source sub fn st type data
  rw [h]

end

/-- Two changes of the DRAM that agree on its contents are one. -/
theorem State.updDram_congr {s : State} {f g : Dram → Dram} (h : f s.dram = g s.dram) : s.updDram f = s.updDram g :=
  congrArg (fun d => ({ s with dram := d } : State)) h

/-! ## The merge buffer (R269, R273) -/

theorem Dram.retire_full (d : Dram) (addr : Nat) : d.retire addr (BitVec.allOnes 128) = { d with
    merge := d.merge.filter fun e => e.1 != addr, mergeFull := inc64 d.mergeFull, poison := d.poison.filter fun k => k != d.lineAt addr } := by
  simp only [Dram.retire, if_true]
  rfl

theorem Dram.retire_part (d : Dram) (addr : Nat) {mask : BitVec 128} (h : mask ≠ BitVec.allOnes 128) : d.retire addr mask = { d with
    merge := d.merge.filter fun e => e.1 != addr, mergeRmw := inc64 d.mergeRmw } := by
  simp only [Dram.retire, if_neg h]

section
variable {s : State} {l : DramLine} {mask : BitVec 128} {b : Bytes} {o : LineOutcome}

theorem State.mergeRetire_absent (h : ∀ e ∈ s.dram.merge, e.1 ≠ l.addr) (cause : MergeCause) (o : LineOutcome) : s.mergeRetire l cause o = s := by
  have hnone : (s.dram.merge.find? fun e => e.1 = l.addr) = none := List.find?_eq_none.2 fun e he => by simpa using h e he
  rw [State.mergeRetire, hnone]

section
variable (hfind : (s.dram.merge.find? fun e => e.1 = l.addr) = some (l.addr, mask, b))
include hfind

theorem State.mergeRetire_full (hmask : mask = BitVec.allOnes 128) : s.mergeRetire l .fullMask o = s.updDram fun d => { d with
    merge := d.merge.filter fun e => e.1 != l.addr, mergeFull := inc64 d.mergeFull
    poison := d.poison.filter fun k => k != s.lineAt l.addr } := by
  subst hmask
  simp only [State.mergeRetire, hfind, decide_true, if_true]
  exact State.updDram_congr (Dram.retire_full _ l.addr)

theorem State.mergeRetire_notFull (hmask : mask ≠ BitVec.allOnes 128) : s.mergeRetire l .fullMask o = s := by
  simp only [State.mergeRetire, hfind]
  exact if_neg (by simpa using hmask)

theorem State.mergeRetire_idle (hmask : mask ≠ BitVec.allOnes 128) : s.mergeRetire l .idle o = (s.lineRead l 2 o).updDram fun d => { d with
    merge := d.merge.filter fun e => e.1 != l.addr, mergeRmw := inc64 d.mergeRmw } := by
  simp only [State.mergeRetire, hfind, if_true, if_neg hmask]
  exact State.updDram_congr (Dram.retire_part _ l.addr hmask)

theorem State.mergeRetire_notOldest (h : s.dram.merge.head?.map Prod.fst ≠ some l.addr) : s.mergeRetire l .evicted o = s := by
  simp only [State.mergeRetire, hfind]
  exact if_neg (by simpa using h)

end
end

/-! ## What the decoder corrects (R268) -/

section
variable {s : State} {l : DramLine}

theorem State.correctable_allDevices (h : mapGet? s.dram.failed (l.channel * 2 + l.rank) = none) (p : List Nat) :
    s.correctable l p = true ↔ p.eraseDups.length ≤ 16 := by
  simp only [State.correctable, h, decide_eq_true_iff]

theorem State.correctable_failedDevice {d : Nat} (h : mapGet? s.dram.failed (l.channel * 2 + l.rank) = some d) (p : List Nat) :
    s.correctable l p = true ↔ (p.eraseDups.filter fun i => symbolDevice i != d).length ≤ 8 := by
  simp only [State.correctable, h, decide_eq_true_iff]

theorem State.correctable_oneSymbol (h : mapGet? s.dram.failed (l.channel * 2 + l.rank) = none) (i : Nat) : s.correctable l [i] = true :=
  (State.correctable_allDevices h [i]).2 (by simp [List.eraseDups_cons])

/-! ## A corrected read (R268, R270, R272) -/

/-- One symbol lies in one device. -/
theorem lineDevices_oneSymbol (i : Nat) : lineDevices [i] = [i % 10] := by
  have hlt : i % 10 < 10 := Nat.mod_lt i (by decide)
  have hpred : (fun d => [i].any fun p => decide (symbolDevice p = d)) = fun d => decide (d = i % 10) := by
    funext d
    simp [symbolDevice, eq_comm]
  rw [lineDevices, hpred, List.filter_eq, List.count_eq_one_of_mem List.nodup_range (List.mem_range.2 hlt)]
  rfl

/-- A device's first line with corrected symbols, where one line does not mark it failed. -/
theorem State.deviceLine_first {dev : Nat} (hl : mapGet [] s.dram.lines ((l.channel * 2 + l.rank) * 16 + dev) = []) (hd : 1 < s.inForce.device) :
    s.deviceLine l dev = s.updDram fun d => { d with lines := mapSet d.lines ((l.channel * 2 + l.rank) * 16 + dev) [l.addr] } := by
  simp only [State.deviceLine, hl, List.not_mem_nil, if_false]
  exact if_neg fun h => absurd h.1 (Nat.not_le.2 hd)

theorem Dram.logLine_empty {d : Dram} (h : d.log = []) (addr : Nat) :
    d.logLine addr = ({ d with tick := d.tick + 1, log := [(addr, 1, d.tick + 1)] }, 1) := by
  simp [Dram.logLine, h]

/-- The first line that is ever corrected, in one symbol: it is counted, for the line and for the symbol's device, reported and logged. -/
theorem State.correctedLine_first {i rank : Nat} {u : State} (hrank : rank = l.channel * 2 + l.rank) (hlog : s.dram.log = [])
    (hremap : s.inForce.remap ≠ 1) (hlines : mapGet [] s.dram.lines (rank * 16 + i % 10) = []) (hdev : 1 < s.inForce.device)
    (hu : u = (s.updDram fun d => { d with corrected := inc64 d.corrected }).raiseLimited 144 0 0 0 (some 0x600)
      (fun n => eventData [(8, s.lineAt l.addr), (4, 1), (4, n)])) :
    s.correctedLine l [i] = u.updDram fun d => { d with
      lines := mapSet d.lines (rank * 16 + i % 10) [l.addr], tick := d.tick + 1, log := [(s.lineAt l.addr, 1, d.tick + 1)] } := by
  subst hrank
  have hdram : u.dram = { s.dram with corrected := inc64 s.dram.corrected } := by rw [hu, State.raiseLimited_dram]; rfl
  have hforce : u.inForce = s.inForce := by rw [hu, State.raiseLimited_inForce]; rfl
  have hdevice := State.deviceLine_first (s := u) (l := l) (dev := i % 10) (by rw [hdram]; exact hlines) (by rw [hforce]; exact hdev)
  have hone : [i].eraseDups.length = 1 := by simp [List.eraseDups_cons]
  simp only [State.correctedLine, lineDevices_oneSymbol, hone, ← hu, List.foldl_cons, List.foldl_nil, hdevice]
  rw [Dram.logLine_empty (by rw [State.updDram_dram, hdram]; exact hlog)]
  exact if_neg fun h => hremap (by rw [← hforce]; exact h.symm)

/-! ## An uncorrectable line (R273, R275) -/

/-- The state in which a line's address holds the poison signature since a read that could not be corrected, counted and reported under
source 149. -/
def State.newlyPoisoned (s : State) (addr reader : Nat) : State :=
  (s.updDram fun d => { d with uncorrectable := inc64 d.uncorrectable, poison := addr :: d.poison }).raise 149 0 0 0x604
    (eventData [(8, addr), (1, reader)])

theorem State.badLine_new (h : s.lineAt l.addr ∉ s.dram.poison) (reader : Nat) : s.badLine l reader =
    l.slice.elim (s.newlyPoisoned (s.lineAt l.addr) reader) fun n => (s.newlyPoisoned (s.lineAt l.addr) reader).holdSlice n (s.lineAt l.addr) := by
  have hpoison : (s.updDram fun d => { d with
      uncorrectable := inc64 d.uncorrectable, poison := if s.lineAt l.addr ∈ d.poison then d.poison else s.lineAt l.addr :: d.poison }) =
      s.updDram fun d => { d with uncorrectable := inc64 d.uncorrectable, poison := s.lineAt l.addr :: d.poison } :=
    State.updDram_congr (by simp only [if_neg h])
  simp only [State.badLine, hpoison, State.newlyPoisoned]
  cases l.slice <;> simp only [Option.elim_none, Option.elim_some]

theorem State.newlyPoisoned_dram (s : State) (addr reader : Nat) : (s.newlyPoisoned addr reader).dram =
    { s.dram with uncorrectable := inc64 s.dram.uncorrectable, poison := addr :: s.dram.poison } := State.raise_dram ..

theorem State.newlyPoisoned_lineAt (s : State) (addr reader : Nat) : (s.newlyPoisoned addr reader).lineAt = s.lineAt := by
  funext a
  rw [State.lineAt, State.newlyPoisoned_dram]
  rfl

theorem State.newlyPoisoned_index (s : State) (addr reader : Nat) : (s.newlyPoisoned addr reader).index = s.index := State.raise_index ..

theorem State.holdSlice_dram (s : State) (n addr : Nat) : (s.holdSlice n addr).dram =
    { s.dram with indexPoisoned := true, sinceSeal := s.dram.sinceSeal + 1 } := State.raise_dram ..

theorem State.holdSlice_index (s : State) (n addr : Nat) : (s.holdSlice n addr).index = { s.index with
    heldSlices := if n ∈ s.index.heldSlices then s.index.heldSlices else n :: s.index.heldSlices
    keys := s.index.keys.map fun k => { k with poisoned := k.poisoned || decide (s.lineAt (Config.bucketLine k.fp) = addr) } } :=
  State.raise_index ..

theorem State.holdSlice_held (s : State) (n addr : Nat) : n ∈ (s.holdSlice n addr).index.heldSlices := by
  rw [State.holdSlice_index]
  dsimp only
  split
  · assumption
  · exact List.mem_cons_self

/-- A key entry in the bucket line of a held slice's bad line is poisoned. -/
theorem State.holdSlice_poisons {n addr : Nat} {k : KeyEntry} (hk : k ∈ (s.holdSlice n addr).index.keys)
    (ha : s.lineAt (Config.bucketLine k.fp) = addr) : k.poisoned = true := by
  rw [State.holdSlice_index] at hk
  obtain ⟨k, _, rfl⟩ := List.mem_map.1 hk
  simp [show s.lineAt (Config.bucketLine k.fp) = addr from ha]

/-! ## A line is read (R270, R273) -/

theorem State.lineRead_clean (s : State) (l : DramLine) (reader : Nat) : s.lineRead l reader .clean = s := rfl

section
variable (hp : s.lineAt l.addr ∉ s.dram.poison) (reader : Nat)
include hp

theorem State.lineRead_uncorrectable : s.lineRead l reader .uncorrectable = s.badLine l reader := if_neg hp

theorem State.lineRead_corrected {p : List Nat} (hc : s.correctable l p = true) : s.lineRead l reader (.corrected p) = s.correctedLine l p :=
  (if_neg hp).trans (if_pos hc)

/-- A line that the decoder finds, or its pattern shows, beyond correction. -/
theorem State.lineRead_bad {o : LineOutcome} (ho : o = .uncorrectable ∨ ∃ p : List Nat, o = .corrected p ∧ s.correctable l p = false) :
    s.lineRead l reader o = s.badLine l reader := by
  rcases ho with rfl | ⟨p, rfl, hc⟩
  · exact State.lineRead_uncorrectable hp reader
  · exact (if_neg hp).trans (if_neg (by simp [hc]))

theorem State.lineRead_signature : s.lineRead l reader .poisonSignature = s.updDram fun d => { d with
    poisonReads := inc64 d.poisonReads, poison := s.lineAt l.addr :: d.poison } := by
  simp only [State.lineRead]
  exact State.updDram_congr (by simp only [if_neg hp])

end

/-! ## The scrubber (R271) -/

theorem State.scrubRead_off (h : s.inForce.scrub = 0 ∨ 3 ≤ s.host.power) (o : LineOutcome) : s.scrubRead l o = s := if_pos h

/-- The scrubber's period that runs, with a line read in it, or the next one, with the line as its first. -/
def State.ScrubTurned (s : State) (addr : Nat) (r : State) : Prop :=
  s.grain < s.dram.scrubStart + s.scrubPeriod ∧ addr ∉ s.dram.scrubbed ∧ r = s.updDram (fun d => { d with scrubbed := addr :: d.scrubbed }) ∨
    s.dram.scrubStart + s.scrubPeriod ≤ s.grain ∧ r = s.updDram fun d => { d with scrubStart := s.grain, scrubbed := [addr] }

section
variable (hs : s.inForce.scrub ≠ 0) (hw : s.host.power < 3)
include hs hw

theorem State.scrubRead_again (hg : s.grain < s.dram.scrubStart + s.scrubPeriod) (hl : l.addr ∈ s.dram.scrubbed) (o : LineOutcome) :
    s.scrubRead l o = s := by
  rw [State.scrubRead, if_neg (by omega), show s.scrubTurn = s from if_pos hg]
  exact if_pos hl

theorem State.scrubRead_turned {r : State} (hr : s.ScrubTurned l.addr r) (o : LineOutcome) : s.scrubRead l o = r.lineRead l 4 o := by
  rw [State.scrubRead, if_neg (by omega)]
  rcases hr with ⟨hg, hl, rfl⟩ | ⟨hg, rfl⟩
  · rw [show s.scrubTurn = s from if_pos hg]
    exact if_neg hl
  · rw [show s.scrubTurn = s.updDram fun d => { d with scrubStart := s.grain, scrubbed := [] } from if_neg (Nat.not_lt.2 hg)]
    exact if_neg List.not_mem_nil

end

/-- The scrubber's turn changes only its own period. -/
theorem State.ScrubTurned.keeps {addr : Nat} {r : State} (hr : s.ScrubTurned addr r) :
    r.lineAt = s.lineAt ∧ r.dram.poison = s.dram.poison ∧ r.dram.log = s.dram.log ∧ r.dram.lines = s.dram.lines ∧
      r.dram.failed = s.dram.failed ∧ r.inForce = s.inForce ∧ r.index = s.index := by
  rcases hr with ⟨_, _, rfl⟩ | ⟨_, rfl⟩ <;> exact ⟨rfl, rfl, rfl, rfl, rfl, rfl, rfl⟩

/-- What the scrubber's turn at a line leaves, by what the line's read shows. -/
theorem acts_scrubRead {r t : State} {o : LineOutcome} (hc : s.cored = true) (hs : s.inForce.scrub ≠ 0) (hw : s.host.power < 3)
    (hr : s.ScrubTurned l.addr r) (h : r.lineRead l 4 o = t) : Acts (.scrubRead l o) s t :=
  acts_of_act hc (exec_scrubRead l o s) ((State.scrubRead_turned hs hw hr o).trans h)

end

end Sys2Proof.Machine
end

section
/-! Glen's scrubber (R208, R278), the recorder's pages (R347, R356), and the request of the recorder's step (R190, R191). -/

namespace Sys2Proof.Machine

/-! ## A row rewritten from its copy (R208, R278) -/

theorem setPos_of_lt {l : List (Option Rule)} {i : Nat} (h : i < l.length) (r : Option Rule) : setPos l i r = l.set i r := by
  rw [setPos, Nat.sub_eq_zero_of_le h, List.replicate_zero, List.append_nil]

/-- A change of match bits leaves the rule at its position, valid and not in a move, and every other position as it was. -/
theorem runOps_rewriteOps {l : List (Option Rule)} {i : Nat} (h : i < l.length) (r : Rule) :
    runOps l (rewriteOps i r) = l.set i (some { r with valid := true, move := false }) := by
  simp [runOps, rewriteOps, GlenOp.apply, setPos_of_lt, atPos, h]

theorem Glen.setTable_rules_ (g : Glen) (access : Bool) : g.setTable access (g.rules_ access) = g := by
  cases access <;> rfl

/-- Rewriting a row from its copy leaves the tables as they were, where every rule is valid and none is in a move. -/
theorem Glen.rewriteRow_settled {g : Glen} (h : ∀ r : Rule, some r ∈ g.nsTable ++ g.accTable → r.valid = true ∧ r.move = false) (bank row : Nat) :
    g.rewriteRow bank row = g := by
  simp only [Glen.rewriteRow]
  split
  · next r i hfind =>
    have hat : (g.rules_ ((g.bank bank).1 == 1))[i]? = some (some r) := List.mem_zipIdx_iff_getElem?.1 (List.mem_of_find?_eq_some hfind)
    have hmem : some r ∈ g.nsTable ++ g.accTable := by
      have hrule := List.mem_of_getElem? hat
      rw [Glen.rules_] at hrule
      split at hrule
      · exact List.mem_append_right _ hrule
      · exact List.mem_append_left _ hrule
    obtain ⟨hvalid, hmove⟩ := h r hmem
    obtain ⟨hi, hget⟩ := List.getElem?_eq_some_iff.1 hat
    have hsame : ({ r with valid := true, move := false } : Rule) = r := by rw [← hvalid, ← hmove]
    rw [runOps_rewriteOps hi, hsame, ← hget, List.set_getElem_self, Glen.setTable_rules_, ite_self]
  · rfl

section
variable {s : State}

/-- A copy that reads clean: the row is rewritten from it, counted, and reported under source 155. -/
theorem State.glenScrub_clean (bank row : Nat) : s.glenScrub bank row .clean =
    ((s.updGlen fun g => g.rewriteRow bank row).updDram fun d => { d with glenFixes := inc64 d.glenFixes }).raise 155 0 0 0x600
      (eventData [(1, bank), (2, row)]) := rfl

theorem State.glenScrub_doubleBit (bank row : Nat) : s.glenScrub bank row .doubleBit = s.sramRead 6 (bank * 65536 + row) .doubleBit := rfl

/-! ## A step's request for its buffer (R190, R191) -/

theorem State.request_granted {p : Nat} {o : OwnerTag} {st : Stamp} {t : State} {h : Handle} (hg : s.grantable p o = true)
    (hw : ∀ w ∈ (s.pool p).waiters, st < w.stamp) (ht : s.takeBuffer p o = (t, h)) (wants : Want) : s.request p o st wants = (t, some h) := by
  have hfirst : (s.pool p).waiters.all (fun w => decide (st < w.stamp)) = true := by simpa using hw
  rw [State.request, hg, hfirst, Bool.and_self, if_pos rfl, ht]

theorem State.request_waits {p : Nat} {o : OwnerTag} {st : Stamp} (h : s.grantable p o = false ∨ ∃ w ∈ (s.pool p).waiters, w.stamp ≤ st)
    (wants : Want) : s.request p o st wants = (s.joinWait p { stamp := st, owner := o, wants := wants }, none) := by
  refine if_neg fun hgo => ?_
  obtain ⟨hg, hall⟩ := Bool.and_eq_true_iff.1 hgo
  rcases h with h | ⟨w, hw, hle⟩
  · exact Bool.noConfusion (h.symm.trans hg)
  · exact absurd (of_decide_eq_true (List.all_eq_true.1 hall w hw)) (Nat.not_lt.2 hle)

/-- The state in which a step has been asked for. -/
def State.stepListed (s : State) (k : Step) (reads : List CodewordOutcome) : State :=
  s.updDelta fun d => { d with stepNext := s.delta.stepNext + 1, steps := d.steps ++ [{ id := s.delta.stepNext, step := k, reads := reads }] }

section
variable {k : Step} {reads : List CodewordOutcome} (hk : ∀ id, k ≠ .secure id) (hb : (s.stepListed k reads).stepBytes k = s.stepBytes k)
include hk hb

/-- A step other than a DELETE_SECURE's is listed, and asks for a buffer of its size. -/
theorem State.stepRequest_listed (hr : s.requestersStop = false) (st : Stamp) : s.stepRequest k reads st =
    match (s.stepListed k reads).request (poolFor (s.stepBytes k)) k.owner st (.step s.delta.stepNext) with
    | (t, some h) => t.updStep s.delta.stepNext fun x => { x with handle := some h }
    | (t, none) => t := by
  rw [← hb]
  cases k with
  | secure id => exact absurd rfl (hk id)
  | _ => exact if_neg (by simp [hr])

theorem State.stepRequest_granted (hr : s.requestersStop = false) {st : Stamp} {t : State} {h : Handle}
    (hg : s.grantable (poolFor (s.stepBytes k)) k.owner = true) (hw : ∀ w ∈ (s.pool (poolFor (s.stepBytes k))).waiters, st < w.stamp)
    (ht : (s.stepListed k reads).takeBuffer (poolFor (s.stepBytes k)) k.owner = (t, h)) :
    s.stepRequest k reads st = t.updStep s.delta.stepNext fun x => { x with handle := some h } := by
  rw [State.stepRequest_listed hk hb hr, State.request_granted (s := s.stepListed k reads) hg hw ht]

theorem State.stepRequest_waits (hr : s.requestersStop = false) {st : Stamp} (h : s.grantable (poolFor (s.stepBytes k)) k.owner = false ∨
    ∃ w ∈ (s.pool (poolFor (s.stepBytes k))).waiters, w.stamp ≤ st) : s.stepRequest k reads st =
      (s.stepListed k reads).joinWait (poolFor (s.stepBytes k)) { stamp := st, owner := k.owner, wants := .step s.delta.stepNext } := by
  rw [State.stepRequest_listed hk hb hr, State.request_waits (s := s.stepListed k reads) h]

/-- A row that asks for a step other than a DELETE_SECURE's, alone in its grain. -/
theorem stepAsked_of_arrive {row : Bool → Instr} {ok : Bool} (hc : s.clocked = true) (hq : s.quiet = true) (hg : s.nextGrain < Config.maxGrain)
    (hok : ok = true) (hi : exec (row true) s = s.stamped ok true fun s => s.arrive (.step k reads)) : StepAsked s row k reads := by
  rintro _ _ _ _ rfl rfl rfl rfl
  have asked {t : State} (h : (atSlotZero s).stepRequest k reads (stampOf s.grain 0) = t) : Executes (row true) s t :=
    executes_of_arrive hc hq hg hok hi h
  exact ⟨fun hstop => asked (if_pos hstop), fun hgo =>
    ⟨fun t h hgrant hfirst htake => asked (State.stepRequest_granted (s := atSlotZero s) hk hb hgo hgrant hfirst htake),
      fun hwait => asked (State.stepRequest_waits (s := atSlotZero s) hk hb hgo hwait)⟩⟩

end

/-! ## The recorder's pages (R347, R348, R356) -/

theorem State.recorderFlushDone_idle (h : s.terrace.sealed = [] ∨ s.host.power = 3) : s.recorderFlushDone = s := by
  rw [State.recorderFlushDone]
  split
  · next hw =>
    have hpower : s.host.power ≠ 3 := of_decide_eq_true (Bool.and_eq_true_iff.1 hw).2
    rw [State.flushPage, h.resolve_right hpower]
  · rfl

/-- Where the cores run and the flash is not asleep, the recorder writes its oldest sealed slot. -/
theorem State.recorderFlushDone_writes (hc : s.cored = true) (hp : s.host.power ≠ 3) : s.recorderFlushDone = s.flushPage :=
  if_pos (by simp [State.recorderWrites, (State.cored_iff.1 hc).2, hp])

theorem State.recorderFill_between (hw : s.terrace.pages.length ≠ Config.recorderWarn) (hf : s.terrace.pages.length ≠ Config.recorderPages) :
    s.recorderFill = s := if_neg (by simp [hw, hf])

section
variable {p : RecPage} {rest : List RecPage} (hs : s.terrace.sealed = p :: rest)
include hs

/-- Room in the area, away from the marks of source 208: the oldest sealed slot becomes its newest page. -/
theorem State.flushPage_room (hroom : s.terrace.pages.length < Config.recorderPages) (hwarn : s.terrace.pages.length + 1 ≠ Config.recorderWarn)
    (hlast : s.terrace.pages.length + 1 ≠ Config.recorderPages) : s.flushPage = s.updTerrace fun t => { t with
      sealed := rest, pages := t.pages ++ [p], anchorValid := true, anchorSeq := p.seqNo, anchorHash := p.hash } := by
  simp only [State.flushPage, hs, decide_eq_true_iff, false_and, if_false, Nat.not_le.2 hroom]
  exact State.recorderFill_between (by simpa using hwarn) (by simpa using hlast)

theorem State.flushPage_held (hfull : Config.recorderPages ≤ s.terrace.pages.length) (hring : s.terrace.ring = false) : s.flushPage = s := by
  simp [State.flushPage, hs, hfull, hring]

theorem State.flushPage_ring (hfull : Config.recorderPages ≤ s.terrace.pages.length) (hring : s.terrace.ring = true) :
    s.flushPage = s.updTerrace fun t => { t with
      sealed := rest, pages := t.pages.drop 1 ++ [p], ringDropped := inc64 t.ringDropped, anchorValid := true, anchorSeq := p.seqNo
      anchorHash := p.hash } := by
  simp [State.flushPage, hs, hfull, hring]

end

/-! ## Stored settings and counters (R261, R393) -/

theorem State.settingsStore_pending (h : s.settingsPending = true) : s.settingsStore = ({ s.metaWrite 0 with stored := s.written }).limitsStore :=
  if_pos h

theorem State.settingsStore_idle (h : s.settingsPending = false) : s.settingsStore = s := if_neg (by simp [h])

theorem State.metaWrite_health (s : State) (n : Nat) : (s.metaWrite n).delta.health = s.delta.health := by
  simp only [State.metaWrite]
  split <;> rfl

theorem State.healthStore_hour {h : Health} (hh : h = { s.delta.health with hours := s.delta.health.hours + 1 }) :
    s.healthStore = (s.metaWrite 32).updDelta fun d => { d with health := h, healthStored := h } := by
  subst hh
  rw [← s.metaWrite_health 32]
  rfl

end

end Sys2Proof.Machine

namespace Sys2Proof

open Machine

/-- Settles O56. Each row leaves what the lemma of its operation spells: `State.mergeRetire`, `State.lineRead`, `State.scrubRead`, the rewriting of
a Glen row, the recorder's page; the scrubber's turn (`State.ScrubTurned`) changes nothing that the line's read looks at, and the recorder's
row is one that asks for a step (`stepAsked_of_arrive`). -/
theorem memoryAndStores : Obligations.MemoryAndStores := by
  intro s
  refine ⟨fun hc l o mask b hfind => ?merge,
    fun hc l cause o hnone => acts_of_act hc (exec_mergeEntryRetire l cause o s) (State.mergeRetire_absent hnone cause o),
    fun l reader => ⟨s.lineRead_clean l reader, fun hp => ⟨State.lineRead_uncorrectable hp reader, fun p hk => State.lineRead_corrected hp reader hk⟩⟩,
    fun hc => ⟨fun l o h => acts_of_act hc (exec_scrubRead l o s) (State.scrubRead_off h o),
      fun l hs hw hg hl o => acts_of_act hc (exec_scrubRead l o s) (State.scrubRead_again hs hw hg hl o),
      fun l r hs hw hr => ?scrub, fun bank row => ⟨?fixed, ?unfixed, fun h => Glen.rewriteRow_settled h bank row⟩⟩,
    fun hcore hc hq hg => stepAsked_of_arrive (fun _ => Step.noConfusion) rfl hc hq hg hcore (exec_recorderFlushDone true s),
    fun hc => ⟨fun p rest hs hp => ?page, fun h => State.recorderFlushDone_idle h, fun h => ?settings, fun h => ?unchanged, fun h hh => ?health⟩⟩
  case merge =>
    have retires {cause : MergeCause} {t : State} (h : s.mergeRetire l cause o = t) : Acts (.mergeEntryRetire l cause o) s t :=
      acts_of_act hc (exec_mergeEntryRetire l cause o s) h
    exact ⟨fun hm => retires (State.mergeRetire_full hfind hm),
      fun hm => ⟨retires (State.mergeRetire_notFull hfind hm), retires (State.mergeRetire_idle hfind hm)⟩,
      fun h => retires (State.mergeRetire_notOldest hfind h)⟩
  case scrub =>
    have leaves {o : LineOutcome} {t : State} (h : r.lineRead l 4 o = t) : Acts (.scrubRead l o) s t := acts_scrubRead hc hs hw hr h
    obtain ⟨hline, hpoison, hlog, hlines, hfailed, hforce, hindex⟩ := State.ScrubTurned.keeps hr
    rw [← hline, ← hpoison]
    refine ⟨leaves rfl, fun i rank u _ hrank hp hlog' hremap hfailed' hlines' hdev hu => ?corrected, fun o u ho hp hu => ?bad,
      fun hp => leaves (State.lineRead_signature hp 4),
      fun p => ⟨fun h => State.correctable_allDevices h p, fun d h => State.correctable_failedDevice h p⟩⟩
    case corrected =>
      subst hrank
      rw [← hfailed] at hfailed'
      rw [← hlines] at hlines'
      rw [← hforce] at hremap hdev
      exact leaves ((State.lineRead_corrected hp 4 (State.correctable_oneSymbol hfailed' i)).trans
        (State.correctedLine_first rfl (hlog.trans hlog') hremap hlines' hdev hu))
    case bad =>
      have hcorrectable (p : List Nat) : s.correctable l p = r.correctable l p := by rw [State.correctable, State.correctable, hfailed]
      simp only [hcorrectable] at ho
      have hbad := (State.lineRead_bad hp 4 ho).trans (State.badLine_new hp 4)
      obtain rfl : u = r.newlyPoisoned (r.lineAt l.addr) 4 := hu
      refine ⟨fun hnone => leaves (by rw [hbad, hnone, Option.elim_none]),
        fun n hn => ⟨_, leaves (by rw [hbad, hn, Option.elim_some]), State.holdSlice_held _ n _, ?_, ?_, ?_, ?_⟩⟩
      · rw [State.holdSlice_dram]
      · rw [State.holdSlice_dram]
      · exact fun k hk ha => State.holdSlice_poisons hk (by rw [State.newlyPoisoned_lineAt, ha])
      · rw [State.holdSlice_index, List.length_map, State.newlyPoisoned_index, hindex]
  case fixed => exact acts_of_act hc (exec_glenScrub bank row .clean s) (State.glenScrub_clean bank row)
  case unfixed => exact acts_of_act hc (exec_glenScrub bank row .doubleBit s) (State.glenScrub_doubleBit bank row)
  case page =>
    have runs {t : State} (h : s.flushPage = t) : s.stepRun .recorder = t := (State.recorderFlushDone_writes hc hp).trans h
    exact ⟨fun hroom hwarn hlast => runs (State.flushPage_room hs hroom hwarn hlast), fun hfull hring => runs (State.flushPage_held hs hfull hring),
      fun hfull hring => runs (State.flushPage_ring hs hfull hring)⟩
  case settings => exact acts_of_act hc (exec_settingsStore s) (State.settingsStore_pending h)
  case unchanged => exact acts_of_act hc (exec_settingsStore s) (State.settingsStore_idle h)
  case health => exact acts_of_act hc (exec_healthStore s) (State.healthStore_hour hh)

end Sys2Proof
end

section
/-! The SPI NOR's bytes (R334, R362, R367): what a write, an erase and a copy leave at each address. -/

namespace Sys2Proof

/-- The entry at a key of a map whose entries were chosen by their keys. -/
theorem mapGet?_filter_key {α : Type} {m : NatMap α} (h : mapSorted m = true) (q : Nat → Bool) (k : Nat) :
    mapGet? (m.filter fun e => q e.1) k = if q k = true then mapGet? m k else none := by
  induction m with
  | nil => simp [mapGet?]
  | cons e m ih =>
    obtain ⟨a, v⟩ := e
    obtain ⟨habove, hm⟩ := (mapSorted_cons a v m).1 h
    rw [List.filter_cons]
    split
    · next hqa =>
      simp only [mapGet?, ih hm]
      by_cases hk : a = k
      · subst hk; simp [hqa]
      · by_cases hlt : k < a <;> simp [hk, hlt]
    · next hqa =>
      rw [ih hm]
      by_cases hk : a = k
      · subst hk; simp [hqa]
      · by_cases hlt : k < a
        · simp [mapGet?, hk, hlt, mapGet?_below fun e he => lt_trans hlt (habove e he)]
        · simp [mapGet?, hk, hlt]

namespace Machine

variable {m : List Host.Cell} (h : Memory.wf m = true)
include h

/-- A write replaces its own range. -/
theorem spiByte_spiWrite (a k : Nat) (b : Bytes) :
    spiByte (spiWrite m a b) k = if a ≤ k ∧ k < a + b.length then b.getD (k - a) 0 else spiByte m k := by
  induction b generalizing m a with
  | nil => rw [if_neg (by simp)]; rfl
  | cons x b ih =>
    rw [spiWrite, ih (memory_wf_spiPut m a x h), spiByte_spiPut m a k x h, List.length_cons]
    obtain hk | rfl | hk := lt_trichotomy k a
    · rw [if_neg (by omega), if_neg (by omega), if_neg (by omega)]
    · rw [if_neg (by omega), if_pos rfl, if_pos (by omega), Nat.sub_self, List.getD_cons_zero]
    · rw [if_neg (show ¬k = a by omega), show k - a = k - (a + 1) + 1 by omega, List.getD_cons_succ]
      exact if_congr (by omega) rfl rfl

/-- An erase leaves 0xFF in its range. -/
theorem spiByte_spiErase (a n k : Nat) : spiByte (spiErase m a n) k = if a ≤ k ∧ k < a + n then 0xFF else spiByte m k := by
  rw [spiByte, mapGet, spiErase, mapGet?_filter_key ((memory_wf_iff m).1 h).1 fun j => decide (j < a ∨ a + n ≤ j)]
  by_cases hk : a ≤ k ∧ k < a + n
  · rw [if_pos hk, if_neg (by rw [decide_eq_true_eq]; omega)]; rfl
  · rw [if_neg hk, if_pos (by rw [decide_eq_true_eq]; omega)]; rfl

omit h in
/-- Entries put one after another, each moved from one base to another: the one that lands at an address stands there. -/
theorem spiByte_foldl_spiPut (dst src : Nat) {l acc : List Host.Cell} (hl : mapSorted l = true) (hsrc : ∀ c ∈ l, src ≤ c.1)
    (hacc : Memory.wf acc = true) {k : Nat} (hk : dst ≤ k) :
    spiByte (l.foldl (fun acc c => spiPut acc (c.1 - src + dst) c.2) acc) k = (mapGet? l (k - dst + src)).getD (spiByte acc k) := by
  induction l generalizing acc with
  | nil => rfl
  | cons c l ih =>
    obtain ⟨a, v⟩ := c
    obtain ⟨habove, hl'⟩ := (mapSorted_cons a v l).1 hl
    have ha : src ≤ a := hsrc (a, v) (by simp)
    rw [List.foldl_cons, ih hl' (fun c hc => hsrc c (by simp [hc])) (memory_wf_spiPut acc _ v hacc), spiByte_spiPut acc _ k v hacc, mapGet?]
    obtain hlt | heq | hgt := lt_trichotomy (k - dst + src) a
    · rw [mapGet?_below fun c hc => lt_trans hlt (habove c hc), if_neg (show a ≠ _ by omega), if_pos hlt, if_neg (by omega)]
    · rw [mapGet?_below fun c hc => heq ▸ habove c hc, if_pos heq.symm, if_pos (by omega)]; rfl
    · rw [if_neg (show a ≠ _ by omega), if_neg (show ¬ _ < a by omega), if_neg (by omega)]

omit h in
/-- Entries put at or above a base leave the bytes in front of it. -/
theorem spiByte_foldl_spiPut_before (dst src : Nat) {l acc : List Host.Cell} (hacc : Memory.wf acc = true) {k : Nat} (hk : k < dst) :
    spiByte (l.foldl (fun acc c => spiPut acc (c.1 - src + dst) c.2) acc) k = spiByte acc k := by
  induction l generalizing acc with
  | nil => rfl
  | cons c l ih => rw [List.foldl_cons, ih (memory_wf_spiPut acc _ _ hacc), spiByte_spiPut acc _ k _ hacc, if_neg (by omega)]

/-- A copied range reads as its source did. -/
theorem spiByte_spiCopy (a src n k : Nat) :
    spiByte (spiCopy m a src n) k = if a ≤ k ∧ k < a + n then spiByte m (k - a + src) else spiByte m k := by
  have hs := ((memory_wf_iff m).1 h).1
  have herased := memory_wf_spiErase m a n h
  by_cases hk : a ≤ k
  · rw [spiCopy, spiByte_foldl_spiPut a src (mapSorted_filter m _ hs) (fun c hc => by
        rw [List.mem_filter, decide_eq_true_eq] at hc; exact hc.2.1) herased hk, spiByte_spiErase h,
      mapGet?_filter_key hs fun j => decide (src ≤ j ∧ j < src + n)]
    by_cases hn : k < a + n
    · rw [if_pos (by rw [decide_eq_true_eq]; omega), if_pos ⟨hk, hn⟩, if_pos ⟨hk, hn⟩]; rfl
    · rw [if_neg (by rw [decide_eq_true_eq]; omega), if_neg (by omega), if_neg (by omega)]; rfl
  · rw [spiCopy, spiByte_foldl_spiPut_before a src herased (by omega), spiByte_spiErase h, if_neg (by omega), if_neg (by omega)]

end Machine

open Machine

/-- Settles O7: the canonical form is kept by the laws of the byte memory, and what each address then reads is the lemma of its operation. -/
theorem spiNorBytes : Obligations.SpiNorBytes := fun m a n k b h =>
  ⟨⟨memory_wf_spiWrite m a b h, spiByte_spiWrite h a k b⟩, ⟨memory_wf_spiErase m a n h, spiByte_spiErase h a n k⟩,
    fun src => ⟨memory_wf_spiCopy m a src n h, spiByte_spiCopy h a src n k⟩⟩

end Sys2Proof
end

section
/-! The management path (R338 to R341, R401): what each request is answered where its part serves, MCTP control from BOOT onward, PLDM and
SPDM where firmware runs. -/

namespace Sys2Proof.Machine

/-! ## Where requests are answered -/

section
variable {s : State}

theorem State.powered_of_mctpServes (h : s.mctpServes = true) : s.powered = true := (Bool.and_eq_true_iff.1 h).2

theorem State.powered_of_firmwareServes (h : s.firmwareServes = true) : s.powered = true := (Bool.and_eq_true_iff.1 h).2

/-! ## MCTP control (R338) -/

section
variable (h : s.mctpServes = true)
include h

theorem State.setEid_refused {eid : BitVec 8} (he : eid = 0 ∨ eid = 0xFF) : s.setEid eid = s.emit (.mgmt [0, 1, 2]) := by
  rw [State.setEid, if_neg (by simp [h]), if_pos he]; rfl

theorem State.setEid_taken {eid : BitVec 8} (h0 : eid ≠ 0) (hff : eid ≠ 0xFF) :
    s.setEid eid = { s with mgmt := { s.mgmt with eid := eid } }.emit (.mgmt [0, 1, 0, 0, eid, 0]) := by
  rw [State.setEid, if_neg (by simp [h]), if_neg (not_or.2 ⟨h0, hff⟩)]; rfl

theorem State.getEid_serves : s.getEid = s.emit (.mgmt [0, 2, 0, s.mgmt.eid, 0, 0]) := if_pos h

theorem State.mctpTypesGet_serves : s.mctpTypesGet = s.emit (.mgmt [0, 5, 0, 4, 0x00, 0x01, 0x05, 0x7E]) := if_pos h

omit h in
/-- The types that MCTP control versions: its own four, and the base specification's 0xFF. -/
theorem mctpTypes_or_base (type : BitVec 8) : (type = 0xFF ∨ mctpTypes.contains type) ↔ type ∈ ([0x00, 0x01, 0x05, 0x7E, 0xFF] : Bytes) := by
  simp only [mctpTypes, List.contains_eq_mem, decide_eq_true_eq, List.mem_cons, List.not_mem_nil, or_false]
  tauto

theorem State.mctpVersions_known {type : BitVec 8} (ht : type ∈ ([0x00, 0x01, 0x05, 0x7E, 0xFF] : Bytes)) :
    s.mctpVersions type = s.emit (.mgmt ([0, 4, 0, 1] ++ leBytes 4 (Config.mctpVersion type).toNat)) := by
  rw [State.mctpVersions, if_neg (by simp [h]), if_pos ((mctpTypes_or_base type).2 ht)]; rfl

theorem State.mctpVersions_unknown {type : BitVec 8} (ht : type ∉ ([0x00, 0x01, 0x05, 0x7E, 0xFF] : Bytes)) :
    s.mctpVersions type = s.emit (.mgmt [0, 4, 0x80]) := by
  rw [State.mctpVersions, if_neg (by simp [h]), if_neg ((mctpTypes_or_base type).not.2 ht)]; rfl

end

/-- A read of the Alert Response Address (R401). -/
theorem State.alertResponse_held (h : s.mgmt.alert = true) :
    s.alertResponse = { s with mgmt := { s.mgmt with alert := false } }.emit (.mgmt [0x32]) := if_pos h

/-! ## PLDM (R341) -/

/-- A PLDM response where firmware serves. -/
theorem State.pldm_serves (h : s.firmwareServes = true) (code : Nat) (body : Bytes) :
    s.pldm code body = s.emit (.mgmt (1 :: BitVec.ofNat 8 code :: body)) := if_pos h

section
variable (h : s.firmwareServes = true)
include h

theorem State.pldmVersionGet_known {type : Nat} (ht : type = 0 ∨ type = 2) :
    s.pldmVersionGet type = s.emit (.mgmt ([1, 3, 0] ++ leBytes 4 (Config.pldmVersion type).toNat)) := by
  rw [State.pldmVersionGet, if_pos ht, State.pldm_serves h]; rfl

theorem State.pldmVersionGet_unknown {type : Nat} (h0 : type ≠ 0) (h2 : type ≠ 2) : s.pldmVersionGet type = s.emit (.mgmt [1, 3, 0x83]) := by
  rw [State.pldmVersionGet, if_neg (not_or.2 ⟨h0, h2⟩), State.pldm_serves h]; rfl

/-- The estimated power is a free value (log entry 7): its draw is the reading's only other change. -/
theorem State.sensorReading_power : s.sensorReading 2 =
    { s with free := s.free + 1 }.emit (.mgmt ([1, 0x11, 0, 0] ++ leBytes 2 (Config.powerEstimate s.free))) :=
  State.pldm_serves (s := s.draw) h _ _

end

end

end Sys2Proof.Machine

namespace Sys2Proof

open Machine

/-- Settles O10: each request acts where its part serves, and the lemma of its answer says what it leaves. -/
theorem managementAnswers : Obligations.ManagementAnswers := by
  refine ⟨fun s h => ?mctp, fun s h => ?pldm⟩
  case mctp =>
    have answers {c : Instr} {f : State → State} {t : State} (hi : exec c s = s.act s.powered f) (ht : f s = t) : Acts c s t :=
      acts_of_act (State.powered_of_mctpServes h) hi ht
    exact ⟨fun eid he => answers (exec_setEndpointId eid s) (State.setEid_refused h he),
      fun eid h0 hff => answers (exec_setEndpointId eid s) (State.setEid_taken h h0 hff),
      answers (exec_getEndpointId s) (State.getEid_serves h),
      fun type ht => answers (exec_getMctpVersionSupport type s) (State.mctpVersions_known h ht),
      fun type ht => answers (exec_getMctpVersionSupport type s) (State.mctpVersions_unknown h ht),
      answers (exec_getMessageTypeSupport s) (State.mctpTypesGet_serves h),
      fun ha => answers (exec_smbusAlertResponse s) (State.alertResponse_held ha)⟩
  case pldm =>
    have answers {c : Instr} {f : State → State} {t : State} (hi : exec c s = s.act s.powered f) (ht : f s = t) : Acts c s t :=
      acts_of_act (State.powered_of_firmwareServes h) hi ht
    exact ⟨answers (exec_getTid s) (State.pldm_serves h _ _),
      fun type ht => answers (exec_getPldmVersion type s) (State.pldmVersionGet_known h ht),
      fun type h0 h2 => answers (exec_getPldmVersion type s) (State.pldmVersionGet_unknown h h0 h2),
      answers (exec_getPldmTypes s) (State.pldm_serves h _ _),
      answers (exec_getPldmCommands 0 s) (State.pldm_serves h _ _),
      answers (exec_getSensorReading 1 s) (State.pldm_serves h _ _),
      answers (exec_getSensorReading 2 s) (State.sensorReading_power h),
      answers (exec_getSensorReading 6 s) (State.pldm_serves h _ _),
      answers (exec_getSensorReading 7 s) (State.pldm_serves h _ _),
      answers (exec_getStateSensorReadings 3 s) (State.pldm_serves h _ _),
      answers (exec_getStateSensorReadings 4 s) (State.pldm_serves h _ _),
      answers (exec_getStateSensorReadings 5 s) (State.pldm_serves h _ _),
      answers (exec_getPdrRepositoryInfo s) (State.pldm_serves h _ _),
      fun record => answers (exec_getPdr record s) (State.pldm_serves h _ _)⟩

end Sys2Proof
end

section
/-! The SPDM responder (R338 to R340): its order of requests, and what each answer keeps in the transcript. -/

namespace Sys2Proof.Machine

variable {s : State} (h : s.firmwareServes = true)

/-! ## The order of an exchange -/

/-- An answer's code and content are kept in the transcript and sent. -/
theorem State.spdm_eq (s : State) (code : Nat) (body : Bytes) : s.spdm code body =
    { s with mgmt := { s.mgmt with transcript := s.mgmt.transcript ++ BitVec.ofNat 8 code :: body } }.emit
      (.mgmt (5 :: BitVec.ofNat 8 code :: body)) := by
  rw [← List.singleton_append, ← List.append_assoc]; rfl

include h

theorem State.spdmAfter_early {n : Nat} (hn : s.mgmt.spdm < n) (f : State → State) : s.spdmAfter n f = s.emit (.mgmt [5, 0x7F, 4]) := by
  rw [State.spdmAfter, if_neg (by simp [h]), if_pos hn]; rfl

theorem State.spdmAfter_due {n : Nat} (hn : n ≤ s.mgmt.spdm) (f : State → State) : s.spdmAfter n f = f s := by
  rw [State.spdmAfter, if_neg (by simp [h]), if_neg (by omega)]

/-! ## The opening requests -/

theorem State.spdmVersion_opens : s.spdmVersion =
    { s with mgmt := { s.mgmt with spdm := 1, transcript := [0x04, 1, 0x00, 0x12] } }.emit (.mgmt [5, 0x04, 1, 0x00, 0x12]) :=
  State.spdmAfter_due h (Nat.zero_le _) _

theorem State.spdmCapabilities_due (h1 : 1 ≤ s.mgmt.spdm) {body : Bytes}
    (hb : body = [Config.spdmExponent] ++ leBytes 4 0x16 ++ leBytes 4 4224 ++ leBytes 4 4224) :
    s.spdmCapabilities =
      { s with mgmt := { s.mgmt with spdm := 2, transcript := s.mgmt.transcript ++ 0x61 :: body } }.emit (.mgmt (5 :: 0x61 :: body)) := by
  rw [State.spdmCapabilities, State.spdmAfter_due h h1, ← hb, State.spdm_eq]; rfl

theorem State.spdmAlgorithms_chosen (h2 : 2 ≤ s.mgmt.spdm) {body : Bytes} (hb : body = [1] ++ leBytes 4 4 ++ leBytes 4 0x80 ++ leBytes 4 2) :
    s.spdmAlgorithms true true =
      { s with mgmt := { s.mgmt with spdm := 3, transcript := s.mgmt.transcript ++ 0x63 :: body } }.emit (.mgmt (5 :: 0x63 :: body)) := by
  rw [State.spdmAlgorithms, State.spdmAfter_due h h2, Bool.and_self, if_pos rfl, ← hb, State.spdm_eq]; rfl

theorem State.spdmAlgorithms_other (h2 : 2 ≤ s.mgmt.spdm) {p384 sha384 : Bool} (hother : (p384 && sha384) = false) :
    s.spdmAlgorithms p384 sha384 = s.emit (.mgmt [5, 0x7F, 1]) := by
  rw [State.spdmAlgorithms, State.spdmAfter_due h h2, hother, if_neg Bool.false_ne_true]; rfl

/-! ## After the opening -/

section
variable (h3 : 3 ≤ s.mgmt.spdm)
include h3

theorem State.spdmCertificate_part {off : Nat} (hoff : off < s.chainBytes.length) (n : Nat) {part : Bytes}
    (hp : part = slice s.chainBytes off (min n (s.chainBytes.length - off))) :
    s.spdmCertificate 0 off n =
      s.spdm 0x02 (leBytes 1 0 ++ leBytes 2 part.length ++ leBytes 2 (s.chainBytes.length - off - part.length) ++ part) := by
  subst hp
  rw [State.spdmCertificate, State.spdmAfter_due h h3]
  exact if_neg (not_or.2 ⟨not_not.2 rfl, Nat.not_le.2 hoff⟩)

theorem State.spdmCertificate_invalid {slot off : Nat} (hbad : slot ≠ 0 ∨ s.chainBytes.length ≤ off) (n : Nat) :
    s.spdmCertificate slot off n = s.emit (.mgmt [5, 0x7F, 1]) := by
  rw [State.spdmCertificate, State.spdmAfter_due h h3]
  exact if_pos hbad

theorem State.spdmChallenge_invalid {slot : Nat} (hslot : slot ≠ 0) (nonce : BitVec 256) :
    s.spdmChallenge slot nonce = s.emit (.mgmt [5, 0x7F, 1]) := by
  rw [State.spdmChallenge, State.spdmAfter_due h h3]
  exact if_pos hslot

/-- A measurement by its own index is one block or none. -/
theorem State.spdmMeasurements_index {i : Nat} (hi : i ≠ 0xFF) (nonce : BitVec 256) : s.spdmMeasurements i nonce =
    match s.measurement i with
    | some b => s.spdmSigned 0x60 nonce (leBytes 1 1 ++ measurementBlock i b)
    | none => s.emit (.mgmt [5, 0x7F, 1]) := by
  rw [State.spdmMeasurements, State.spdmAfter_due h h3, if_neg hi]
  cases hm : s.measurement i with
  | some b => simp [hm]
  | none => simp only [List.filterMap_cons, hm, Option.map_none, List.filterMap_nil]; rfl

end

end Sys2Proof.Machine

namespace Sys2Proof

open Machine

/-- Settles O11: a request is answered or comes too early (`State.spdmAfter_due`, `State.spdmAfter_early`), and the lemma of its answer says
what the exchange then holds. -/
theorem spdmAnswers : Obligations.SpdmAnswers := by
  refine ⟨fun s h => ?opening, fun s h h3 => ?opened⟩
  all_goals
    have answers {c : Instr} {f : State → State} {t : State} (hi : exec c s = s.act s.powered f) (ht : f s = t) : Acts c s t :=
      acts_of_act (State.powered_of_firmwareServes h) hi ht
  case opening =>
    exact ⟨answers (exec_getVersion s) (State.spdmVersion_opens h),
      fun body h1 hb => answers (exec_getCapabilities s) (State.spdmCapabilities_due h h1 hb),
      fun body h2 hb => answers (exec_negotiateAlgorithms true true s) (State.spdmAlgorithms_chosen h h2 hb),
      fun p384 sha384 h2 hother => answers (exec_negotiateAlgorithms p384 sha384 s) (State.spdmAlgorithms_other h h2 hother),
      fun h0 => answers (exec_getCapabilities s) (State.spdmAfter_early h (by omega) _),
      fun p384 sha384 h2 => answers (exec_negotiateAlgorithms p384 sha384 s) (State.spdmAfter_early h h2 _)⟩
  case opened =>
    exact ⟨answers (exec_getDigests s) (State.spdmAfter_due h h3 _),
      fun off n hoff => answers (exec_getCertificate 0 off n s) (State.spdmCertificate_part h h3 hoff n rfl),
      fun slot off n hbad => answers (exec_getCertificate slot off n s) (State.spdmCertificate_invalid h h3 hbad n),
      fun nonce => answers (exec_challenge 0 nonce s) (State.spdmAfter_due h h3 _),
      fun slot nonce hslot => answers (exec_challenge slot nonce s) (State.spdmChallenge_invalid h h3 hslot nonce),
      fun i nonce b hi hb => answers (exec_getMeasurements i nonce s) ((State.spdmMeasurements_index h h3 hi nonce).trans (by rw [hb])),
      fun i nonce hi hb => answers (exec_getMeasurements i nonce s) ((State.spdmMeasurements_index h h3 hi nonce).trans (by rw [hb]))⟩

end Sys2Proof
end

section
/-! Blocks that are silent (R106, R390): in FILL and BOOT only GLOBAL responds, and TEST under TEST_MODE. -/

namespace Sys2Proof.Machine

variable {s : State} {fn bar a : Nat}

/-- R390: in FILL and BOOT no block beside GLOBAL and TEST responds. -/
theorem State.silent_of_stopped (hm : s.mode.running = false)
    (h : bar = 0 ∧ fn = 0 → 0x10000 ≤ a ∧ (s.pins.straps.test = true → a < 0x200000 ∨ 0x210000 ≤ a)) : s.responds fn bar a = false := by
  have hfalse : ¬ s.responds fn bar a = true := by
    intro hr
    simp only [State.responds, hm, Bool.false_or, Bool.and_eq_true, Bool.or_eq_true, decide_eq_true_eq] at hr
    obtain ⟨⟨hb, hf⟩, hlow | ⟨htest, hblock⟩⟩ := hr
    · exact absurd (h ⟨hb, hf⟩).1 (by omega)
    · exact absurd ((h ⟨hb, hf⟩).2 htest) (by omega)
  simpa using hfalse

/-- R106: the function pages are no part of GLOBAL or TEST. -/
theorem State.functionPage_silent (hm : s.mode.running = false) (fn : Nat) : s.responds fn 0 (if fn = 0 then 0x20000 else 0) = false :=
  State.silent_of_stopped hm fun ⟨_, hf⟩ => by rw [if_pos hf]; omega

/-- R105: the doorbells stand in BAR2 and BAR4. -/
theorem State.doorbell_silent (hm : s.mode.running = false) (hb : bar ≠ 0) (fn a : Nat) : s.responds fn bar a = false :=
  State.silent_of_stopped hm fun ⟨h0, _⟩ => absurd h0 hb

theorem State.read_silent (h : s.responds fn bar a = false) (width : Nat) : s.read fn bar a width = (s.fnSeen fn).emit (.read 0) := by
  have hr : (s.fnSeen fn).responds fn bar a = false := h
  have hread : (s.fnSeen fn).readAccess fn bar a width = (s.fnSeen fn, 0) := if_pos (by rw [hr]; rfl)
  rw [State.read, hread]; rfl

theorem State.write_silent (h : s.responds fn bar a = false) (width value : Nat) : s.write fn bar a width value = s.fnSeen fn := by
  have hr : (s.fnSeen fn).responds fn bar a = false := h
  exact if_pos (by rw [hr]; rfl)

/-- A register row of a block that does not respond has no effect. -/
theorem acts_atRegister_silent {i : Instr} {g : State → State} (hp : s.powered = true) (h : s.responds fn bar a = false)
    (hi : exec i s = s.act s.powered fun s => s.atRegister fn bar a g) : Acts i s s :=
  acts_of_act hp hi (if_neg (by simp [h]))

end Sys2Proof.Machine

namespace Sys2Proof

open Machine

/-- Settles O14: no row's block responds (`State.silent_of_stopped`), so a read answers 0 and every other row has no effect. -/
theorem blocksSilentBeforeRebuild : Obligations.BlocksSilentBeforeRebuild := by
  intro s fn bar off width value hp hmode h
  have hm : s.mode.running = false := by obtain hmode | hmode := hmode <;> rw [hmode] <;> rfl
  have hsilent := State.silent_of_stopped hm h
  have hpage := State.functionPage_silent hm fn
  have doorbell {bar a : Nat} (hb : bar ≠ 0) : s.responds fn bar a = false := State.doorbell_silent hm hb fn a
  have two : (2 : Nat) ≠ 0 := by decide
  have four : (4 : Nat) ≠ 0 := by decide
  exact ⟨acts_of_act hp (exec_latchingRead fn bar off width s) (State.read_silent hsilent width),
    acts_of_act hp (exec_registerWrite fn bar off width value s) (State.write_silent hsilent width _),
    fun ctx v => ⟨acts_atRegister_silent hp (doorbell two) (exec_sqTail fn ctx v s), acts_atRegister_silent hp (doorbell two) (exec_cqHead fn ctx v s),
      acts_atRegister_silent hp (doorbell four) (exec_adminSqTail fn v s), acts_atRegister_silent hp (doorbell four) (exec_adminCqHead fn v s),
      acts_atRegister_silent hp (doorbell four) (exec_eventHead fn v s)⟩,
    acts_atRegister_silent hp hpage (exec_admEnSet fn s), acts_atRegister_silent hp hpage (exec_admEnClear fn s),
    acts_atRegister_silent hp hpage (exec_evtEnSet fn s), acts_atRegister_silent hp hpage (exec_evtEnClear fn s),
    fun v => acts_atRegister_silent hp hpage (exec_msixVectorUnmask fn v s)⟩

end Sys2Proof
end

section
/-! TEST_CTRL.START (R387) keeps the local time at which it started its run: a state that refutes a statement in which that time is free. -/

namespace Sys2Proof.Machine

/-- The run that START begins holds the local time of its start (log entry 61). -/
theorem State.testStart_startUs {s : State} (ht : s.pins.straps.test = true) (hd : s.test.direct = none)
    (hb : s.blockFail s.testParam true = none) : s.testStart.test.direct.map TestRun.startUs = some s.localUs := by
  simp [State.testStart, ht, hd, hb, State.updTest]

/-- TEST_MODE is high after a reset, and TEST_PARAM holds a lane test of 100 ms on lane 3. -/
def laneTestReady : State :=
  { State.reset with pins := { straps := { role := 0, boot := 0, test := true } }, written := { testParam := [(0, 1), (1, 100), (2, 8)] } }

/-- A run of that test whose local time of start is not the state's. -/
def misdatedRun : TestRun :=
  { block := laneTestReady.testParam, started := laneTestReady.grain, startUs := 1, quiesced := true, kind := field laneTestReady.testParam 0 1
    duration := field laneTestReady.testParam 4 4, targets := testTargets laneTestReady.testParam [] }

theorem laneTestReady_blockFail : laneTestReady.blockFail laneTestReady.testParam true = none := by decide

/-- START does not begin the misdated run. -/
theorem not_acts_testStart_misdatedRun {u : State} (hu : u.time.running = false) (hrun : u.test.direct = some misdatedRun) :
    ¬ Acts .testStart laneTestReady u := by
  intro h
  have hpow : laneTestReady.powered = true := rfl
  have hstop : laneTestReady.testStart.time.running = false := by decide
  rw [Acts, exec_testStart, execTestStart, State.act_pos hpow, State.finish_of_stopped _ hstop, State.finish_of_stopped _ hu] at h
  have hdirect : laneTestReady.testStart.test.direct = some misdatedRun :=
    (congrArg (fun t : State => t.test.direct) (Host.Outcome.next.inj h)).trans hrun
  have hstart := State.testStart_startUs rfl rfl laneTestReady_blockFail
  rw [hdirect] at hstart
  exact absurd hstart (by decide)

end Sys2Proof.Machine

namespace Sys2Proof

open Machine

/-- Refutes O18: its START claims every run with the block, grain, kind, duration, targets and locks that it names, and leaves the run's local
time of start free; the model's run holds the state's own local time, which a lane test after a reset shows. -/
theorem not_testBlockAndTap : ¬ Obligations.TestBlockAndTap := by
  intro h
  obtain ⟨_, hstart, _⟩ := h.1 laneTestReady rfl
  exact not_acts_testStart_misdatedRun rfl rfl
    (hstart misdatedRun rfl rfl laneTestReady_blockFail rfl rfl rfl rfl rfl rfl rfl rfl (by decide) rfl)

end Sys2Proof
end

section
/-! FW_DOWNLOAD while an activation is under way (R360). -/

namespace Sys2Proof.Machine

/-- BUSY_RETRY takes one free value for its estimate (log entry 5) and completes the command. -/
theorem State.busy_eq (s : State) (w : Work) (floor : Nat) : s.busy w floor =
    (s.retryAfter floor).1.deliver w { status := .busyRetry, detail := (s.retryAfter floor).2, commit := w.stamp } :=
  State.fails_eq ..

theorem State.fwDownload_busy {b : State} (ha : b.update.active ≠ none) (w : Work) : b.fwDownload w = b.busy w 1 :=
  if_pos (.inl (Option.isSome_iff_ne_none.2 ha))

end Sys2Proof.Machine

namespace Sys2Proof

open Machine

/-- Settles O28: the command completes as `State.busy` says, which changes nothing but the count of free values. -/
theorem downloadsWaitForActivation : Obligations.DownloadsWaitForActivation := fun _ b _ w h ha =>
  ⟨_, _, rfl, executes_fwDownload rfl h ((State.fwDownload_busy ha w).trans (State.busy_eq b w 1)), rfl⟩

end Sys2Proof
end

section
/-! Key pages and the recorder's clearing (R284 to R289, R293, R354, R355): what KEY_PAGE_LOAD, KEY_PAGE_RETIRE and RECORD_CLEAR leave. -/

namespace Sys2Proof.Machine

/-! ## Metadata writes and draws -/

section
variable {s t u : State}

/-- The media behind a unit write to a logical block of the metadata region (R234). -/
def Delta.metaWritten (d : Delta) (n : Nat) : Delta :=
  if n ∉ d.merging ∧ 16 ≤ (d.merging.filter (· != n)).length then
    { d with merging := (d.merging.filter (· != n)).drop 1 ++ [n], copyMerges := inc64 d.copyMerges }
  else { d with merging := d.merging.filter (· != n) ++ [n] }

/-- A metadata write looks at the media and changes them alone. -/
theorem State.metaWrite_eq (s : State) (n : Nat) : s.metaWrite n = s.updDelta (Delta.metaWritten · n) := by
  simp only [State.metaWrite, State.updDelta, Delta.metaWritten, Bool.not_eq_true', decide_eq_false_iff_not]
  split <;> rfl

theorem State.metaWrite_delta (s : State) (n : Nat) : (s.metaWrite n).delta = s.delta.metaWritten n := by rw [State.metaWrite_eq]; rfl
@[simp] theorem State.metaWrite_host (s : State) (n : Nat) : (s.metaWrite n).host = s.host := by rw [State.metaWrite_eq]; rfl
@[simp] theorem State.metaWrite_gorge (s : State) (n : Nat) : (s.metaWrite n).gorge = s.gorge := by rw [State.metaWrite_eq]; rfl
@[simp] theorem State.metaWrite_free (s : State) (n : Nat) : (s.metaWrite n).free = s.free := by rw [State.metaWrite_eq]; rfl

section
variable (s : State) (source fn : Nat) (st : Stamp) (type : Nat) (data : BitVec 128)

@[simp] theorem State.raise_gorge : (s.raise source fn st type data).gorge = s.gorge := by
  obtain ⟨e, x, h⟩ := s.raise_frame source fn st type data; rw [h]

@[simp] theorem State.raise_delta : (s.raise source fn st type data).delta = s.delta := by
  obtain ⟨e, x, h⟩ := s.raise_frame source fn st type data; rw [h]

@[simp] theorem State.raise_free : (s.raise source fn st type data).free = s.free := by
  obtain ⟨e, x, h⟩ := s.raise_frame source fn st type data; rw [h]

end

@[simp] theorem State.drbg_host (s : State) : s.drbg.host = s.host := rfl
@[simp] theorem State.drbg_delta (s : State) : s.drbg.delta = s.delta := rfl
@[simp] theorem State.drbg_free (s : State) : s.drbg.free = s.free + 1 := rfl

theorem State.drbg_pages (s : State) : s.drbg.gorge.pages = s.gorge.pages := by
  show (if s.gorge.requests + 1 = 1048576 then ({ s.gorge with requests := 0, reseeds := _ } : Gorge) else _).pages = _
  split <;> rfl

/-- `t` is `s` but for the functions, Gorge, the count of free values, the media, the events and the recorder. -/
def KeyWork (s t : State) : Prop :=
  ∃ h g n d e x, t = { s with host := h, gorge := g, free := n, delta := d, events := e, terrace := x }

theorem KeyWork.trans (h : KeyWork s t) (h' : KeyWork t u) : KeyWork s u := by
  obtain ⟨_, _, _, _, _, _, rfl⟩ := h
  obtain ⟨_, _, _, _, _, _, rfl⟩ := h'
  exact ⟨_, _, _, _, _, _, rfl⟩

theorem KeyWork.eq (h : KeyWork s t) :
    t = { s with host := t.host, gorge := t.gorge, free := t.free, events := t.events, terrace := t.terrace, delta := t.delta } := by
  obtain ⟨_, _, _, _, _, _, rfl⟩ := h
  rfl

theorem State.updFn_keyWork (s : State) (f : Nat) (g : Fn → Fn) : KeyWork s (s.updFn f g) := ⟨_, _, _, _, _, _, rfl⟩
theorem State.updGorge_keyWork (s : State) (g : Gorge → Gorge) : KeyWork s (s.updGorge g) := ⟨_, _, _, _, _, _, rfl⟩
theorem State.drbg_keyWork (s : State) : KeyWork s s.drbg := ⟨_, _, _, _, _, _, rfl⟩

theorem State.metaWrite_keyWork (s : State) (n : Nat) : KeyWork s (s.metaWrite n) := by
  obtain ⟨d, h⟩ := s.metaWrite_frame n
  exact ⟨_, _, _, _, _, _, h⟩

theorem State.raise_keyWork (s : State) (source fn : Nat) (st : Stamp) (type : Nat) (data : BitVec 128) :
    KeyWork s (s.raise source fn st type data) := by
  obtain ⟨e, x, h⟩ := s.raise_frame source fn st type data
  exact ⟨_, _, _, _, _, _, h⟩

end

section
variable {s b t : State} {c : Submission} {w : Work} {i : Instr} {f page : Nat} {m : Bytes} {st : Stamp}

/-! ## KEY_PAGE_LOAD, operation LOAD (R287) -/

/-- The number of the generation that a load makes. -/
def nextNumber : Option KeyPage → Nat
  | none => 1
  | some p => if p.current.number = 255 then 1 else p.current.number + 1

/-- A page whose next generation is loaded: the old one is its previous, and its sweep begins. -/
def loadedPage (f : Nat) (gen : Generation) : Option KeyPage → KeyPage
  | none => { owner := f, current := gen }
  | some p => { p with current := gen, previous := some p.current, sweep := true, rewritten := 0, refused := false }

theorem loadedPage_current (f : Nat) (gen : Generation) (p : Option KeyPage) : (loadedPage f gen p).current = gen := by cases p <;> rfl

/-- A page with the generation that it now holds, behind the draw of its salt: the staged material is cleared, and source 160 tells of it. -/
def State.pageLoaded (s : State) (f page : Nat) (p : KeyPage) (st : Stamp) : State :=
  ((((s.updFn f fun x => { x with stage := [] }).drbg.updGorge fun g => { g with pages := mapSet g.pages page p }).metaWrite 0).pageEvent f page
    p.current.number 1 st)

theorem State.pageLoad_noKek (hkek : (s.fn f).kek = none) (hpage : page ≤ 255) (hfree : s.keyPage? page = none) (st : Stamp) :
    s.pageLoad f page st = (s.updFn f fun x => { x with stage := [] }, { status := .conditionFailed }) := by
  simp [State.pageLoad, firstFail, hkek, hpage, hfree]

theorem State.pageLoad_loaded {key : BitVec 256} {gen : Generation} (hm : m = padTo 4096 (s.fn f).stage) (hpage : page ≤ 255)
    (hkey : ((s.fn f).kek.bind fun k => Config.unwrapKey k (slice m 0 40)) = some key) (hlow : 20 ≤ field m 0x28 1)
    (hhigh : field m 0x28 1 ≤ 40) (hz : allZero (slice m 0x29 7) = true) (hready : s.drbgReady = true)
    (hown : ∀ p, s.keyPage? page = some p → p.owner = f ∧ p.previous = none)
    (hgen : gen = { number := nextNumber (s.keyPage? page), key := key, salt := Config.drbg32 s.free, limit := field m 0x28 1
                    force := field m 0x28 1, kept := field m 0x28 1 }) (st : Stamp) :
    s.pageLoad f page st = (s.pageLoaded f page (loadedPage f gen (s.keyPage? page)) st, { length := gen.number }) := by
  have hkek : (s.fn f).kek.isSome = true := by cases hk : (s.fn f).kek <;> simp_all
  have hmine : (s.keyPage? page).any (fun p => p.owner != f) = false := by
    cases hp : s.keyPage? page with
    | none => rfl
    | some p => simp [(hown p hp).1]
  have hsingle : (s.keyPage? page).any (fun p => p.previous.isSome) = false := by
    cases hp : s.keyPage? page with
    | none => rfl
    | some p => simp [(hown p hp).2]
  have hlim : field m 0x28 1 ≠ 0 := by omega
  subst hm hgen
  simp only [State.pageLoad, firstFail, hkey, hkek, hmine, hsingle, hz, hready, hpage, hlow, hhigh, hlim]
  cases hp : s.keyPage? page <;> rfl

section
variable (s : State) (f page : Nat) (p : KeyPage) (st : Stamp)

theorem State.pageLoaded_keyWork : KeyWork s (s.pageLoaded f page p st) :=
  ((((s.updFn_keyWork f _).trans (State.drbg_keyWork _)).trans (State.updGorge_keyWork ..)).trans (State.metaWrite_keyWork ..)).trans
    (State.raise_keyWork ..)

theorem State.pageLoaded_keyPage? (q : Nat) : (s.pageLoaded f page p st).keyPage? q = if q = page then some p else s.keyPage? q := by
  simp only [State.keyPage?, State.pageLoaded, State.pageEvent, State.raise_gorge, State.metaWrite_gorge, State.updGorge_gorge, State.drbg_pages]
  exact mapGet?_mapSet ..

theorem State.pageLoaded_fn (g : Nat) : (s.pageLoaded f page p st).fn g = if g = f then { s.fn f with stage := [] } else s.fn g := by
  rw [State.pageLoaded, State.pageEvent, State.fn_raise, State.fn, State.metaWrite_host]
  exact State.fn_updFn s f g fun x => { x with stage := [] }

theorem State.pageLoaded_free : (s.pageLoaded f page p st).free = s.free + 1 := by
  rw [State.pageLoaded, State.pageEvent, State.raise_free, State.metaWrite_free]; rfl

theorem State.pageLoaded_delta : (s.pageLoaded f page p st).delta = (s.metaWrite 0).delta := by
  rw [State.pageLoaded, State.pageEvent, State.raise_delta, State.metaWrite_delta, State.metaWrite_delta]; rfl

end

/-! ## KEY_PAGE_LOAD, operation KEK (R286) -/

/-- A KEK installed: kept in the metadata region, its function's nonce replaced by a draw, source 167 with status SUCCESS. -/
def State.kekInstalled (s : State) (f : Nat) (k : BitVec 256) (v : Nat) (st : Stamp) : State :=
  (((s.updFn f fun x => { x with kek := some k, kekVersion := v }).metaWrite 0).drbg.updFn f fun x =>
    { x with nonce := Config.drbg64 s.free, stage := [] }).raise 167 f st 0x707 (eventData [(1, f), (4, v), (2, Status.success.code)])

theorem State.kekInstall_notReady (h : s.drbgReady = false) (f : Nat) (st : Stamp) :
    s.kekInstall f st = (s.updFn f fun x => { x with stage := [] }, { status := .busyRetry, detail := 10000 }) :=
  if_pos (by simp [h])

section
variable (s : State) (f : Nat) (k : BitVec 256) (v : Nat) (st : Stamp)

theorem State.kekInstalled_keyWork : KeyWork s (s.kekInstalled f k v st) :=
  ((((s.updFn_keyWork f _).trans (State.metaWrite_keyWork ..)).trans (State.drbg_keyWork _)).trans (State.updFn_keyWork ..)).trans
    (State.raise_keyWork ..)

/-- The function's page before the nonce is replaced. -/
theorem State.fn_kekTaken : ((s.updFn f fun x => { x with kek := some k, kekVersion := v }).metaWrite 0).drbg.fn f =
    { s.fn f with kek := some k, kekVersion := v } := by
  rw [State.fn, State.drbg_host, State.metaWrite_host]
  exact (s.fn_updFn f f _).trans (if_pos rfl)

theorem State.kekInstalled_fn : (s.kekInstalled f k v st).fn f =
    { s.fn f with kek := some k, kekVersion := v, nonce := Config.drbg64 s.free, stage := [] } := by
  rw [State.kekInstalled, State.fn_raise, State.fn_updFn, if_pos rfl, State.fn_kekTaken]

theorem State.kekInstalled_free : (s.kekInstalled f k v st).free = s.free + 1 := by
  rw [State.kekInstalled, State.raise_free, State.updFn, State.updHost_free, State.drbg_free, State.metaWrite_free]; rfl

theorem State.kekInstalled_delta : (s.kekInstalled f k v st).delta = (s.metaWrite 0).delta := by
  rw [State.kekInstalled, State.raise_delta, State.updFn, State.updHost_delta, State.drbg_delta, State.metaWrite_delta, State.metaWrite_delta]; rfl

end

theorem State.kekInstall_installed {k : BitVec 256} {v : Nat} (hready : s.drbgReady = true)
    (hcheck : s.kekCheck f (padTo 4096 (s.fn f).stage) = .ok (k, v)) (st : Stamp) :
    s.kekInstall f st = (s.kekInstalled f k v st, {}) := by
  have hversion : ((((s.updFn f fun x => { x with kek := some k, kekVersion := v }).metaWrite 0).drbg.updFn f fun x =>
      { x with nonce := Config.drbg64 s.free, stage := [] }).fn f).kekVersion = v := by
    rw [State.fn_updFn, if_pos rfl, State.fn_kekTaken]
  have hfree : ((s.updFn f fun x => { x with kek := some k, kekVersion := v }).metaWrite 0).free = s.free := State.metaWrite_free ..
  rw [State.kekInstall, if_neg (by simp [hready])]
  simp only [hcheck, hfree, hversion]
  rfl

/-! ## KEY_PAGE_RETIRE (R289) -/

section
variable {p : KeyPage} (hpage : page ≤ 255) (hp : s.keyPage? page = some p) (hown : p.owner = f)
include hpage hp hown

theorem State.pageRetire_previous {g : Generation} (hg : p.previous = some g) (hleft : s.sweepLeft page = 0) (hw : s.works = []) (st : Stamp) :
    s.pageRetire f page st = ((((if p.sweep then s.sweepDone page p else s).updPage page fun p =>
      { p with previous := none, sweep := false }).metaWrite 0).pageEvent f page g.number 2 st, {}) := by
  simp only [State.pageRetire, hp, hg, hleft, hw]
  rw [if_neg (by omega), if_neg (by simp [hown]), if_neg (by simp)]

theorem State.pageRetire_freed (hg : p.previous = none) (hn : s.pageNamespaces page = 0) (st : Stamp) : s.pageRetire f page st =
    (((s.updGorge fun g => { g with pages := mapErase g.pages page }).metaWrite 0).pageEvent f page p.current.number 3 st, {}) := by
  simp only [State.pageRetire, hp, hg]
  rw [if_neg (by omega), if_neg (by simp [hown]), if_neg (by simp [hn])]

theorem State.pageRetire_named (hg : p.previous = none) (hn : s.pageNamespaces page ≠ 0) (st : Stamp) :
    s.pageRetire f page st = (s, { status := .conditionFailed }) := by
  simp only [State.pageRetire, hp, hg]
  rw [if_neg (by omega), if_neg (by simp [hown]), if_pos hn]

end

/-! ## RECORD_CLEAR (R354, R355) -/

/-- Every outcome of a token's checks replaces the nonce (R354). -/
def State.nonceRedrawn (s : State) : State := s.drbg.updTerrace fun x => { x with clearNonce := Config.drbg64 s.free }

/-- The recorder area behind a clear: the pages go, and the sealed slots that a full area held back are flushed. -/
def State.cleared (s : State) (t : Bytes) : State :=
  let v := s.updTerrace fun x => { x with pages := x.pages.drop (field t 0x10 4), ring := field t 4 1 = 1, notKept := 0 }
  if Config.recorderPages ≤ s.terrace.pages.length ∧ s.recorderWrites = true then v.flushSealed else v

section
variable {tok : Bytes} (hc : w.carrier = .admin 0) (hb : w.block 144 = .ok tok)
include hc hb

theorem State.recordClear_refused {fail : Fail} (hf : s.clearFail tok = some fail) : s.recordClear w =
    (s.nonceRedrawn.raise 211 0 w.stamp 5 (eventData [(2, fail.1.code), (4, 0)])).deliver w
      { status := fail.1, detail := fail.2, commit := w.stamp } := by
  simp only [State.recordClear, hb, hf, State.fails_eq]
  rw [if_neg (by simp [hc])]
  rfl

theorem State.recordClear_cleared {gone : List RecPage} (hf : s.clearFail tok = none)
    (hgone : gone = s.nonceRedrawn.terrace.pages.take (field tok 0x10 4)) : s.recordClear w =
    (((s.nonceRedrawn.cleared tok).raiseOnly 211 0 w.stamp (eventData [(2, 0), (4, gone.length)])).record 3 w.stamp (clearPayload gone tok)).deliver w
      { commit := w.stamp, length := (gone.map fun p => p.recs.length).sum } := by
  subst hgone
  simp only [State.recordClear, hb, hf, State.cleared, ← State.nonceRedrawn.eq_1, Bool.and_eq_true, decide_eq_true_eq]
  rw [if_neg (by simp [hc])]
  rfl

end

/-! ## The commands' rows -/

theorem executes_keyPageLoad {v : Nat} (hi : exec i s = s.command (withOpcode 0x90 (withParam 0x22 v c)) true)
    (h : Alone s (withOpcode 0x90 (withParam 0x22 v c)) b w) (ht : b.keyPageLoad w = t) : Executes i s t :=
  executes_of_adminRun hi h rfl (by rwa [State.adminRun, op_of_alone h rfl])

/-- The operation that a KEY_PAGE_LOAD row names. -/
theorem loadOperation_of_alone {v : Nat} (h : Alone s (withOpcode 0x90 (withParam 0x22 v c)) b w) : w.desc.param 0x22 1 = v % 256 := by
  rw [desc_of_alone h rfl, withOpcode_param, withParam_param v c (by norm_num) (by norm_num)]

section
variable {u : State} {r : Result} (hu : t.deliver w { r with commit := w.stamp } = u)
include hu

theorem executes_load (hi : exec i s = s.command (withOpcode 0x90 (withParam 0x22 0 c)) true)
    (h : Alone s (withOpcode 0x90 (withParam 0x22 0 c)) b w) (ht : b.pageLoad w.fn (w.desc.param 0x20 2) w.stamp = (t, r)) : Executes i s u :=
  executes_keyPageLoad hi h (by simp only [State.keyPageLoad, loadOperation_of_alone h, ht]; exact hu)

theorem executes_kek (hi : exec i s = s.command (withOpcode 0x90 (withParam 0x22 1 c)) true)
    (h : Alone s (withOpcode 0x90 (withParam 0x22 1 c)) b w) (ht : b.kekInstall w.fn w.stamp = (t, r)) : Executes i s u :=
  executes_keyPageLoad hi h (by simp only [State.keyPageLoad, loadOperation_of_alone h, ht]; exact hu)

theorem executes_keyPageRetire (hi : exec i s = s.command (withOpcode 0x91 c) true) (h : Alone s (withOpcode 0x91 c) b w)
    (ht : b.pageRetire w.fn (w.desc.param 0x20 2) w.stamp = (t, r)) : Executes i s u :=
  executes_of_adminRun hi h rfl (by simp only [State.adminRun, op_of_alone h rfl, State.keyPageRetire, ht]; exact hu)

end

theorem executes_recordClear (hi : exec i s = s.command (withOpcode 0xA9 c) true) (h : Alone s (withOpcode 0xA9 c) b w)
    (ht : b.recordClear w = t) : Executes i s t :=
  executes_of_adminRun hi h rfl (by rwa [State.adminRun, op_of_alone h rfl])

end

end Sys2Proof.Machine

namespace Sys2Proof

open Machine

/-- Settles O26: each row is alone in its grain, so it leaves what its command's meaning leaves (`executes_of_adminRun`); a load and a KEK
leave `State.pageLoaded` and `State.kekInstalled`, whose frames name what they change. -/
theorem keyCommands : Obligations.KeyCommands := by
  rintro s b c w _ _ m rfl rfl hm
  refine ⟨?load, fun h hkek hpage hfree => executes_load rfl rfl h (State.pageLoad_noKek hkek hpage hfree w.stamp), ?kek,
    fun h hready => executes_kek rfl rfl h (State.kekInstall_notReady hready w.fn w.stamp), ?retire, ?refused, ?cleared⟩
  case load =>
    intro key gen h hpage hkey hlow hhigh hz hready hk hsalt huses hwarned hlimit hforce hkept
    obtain ⟨number, key', salt, uses, limit, force, kept, warned⟩ := gen
    obtain ⟨rfl, rfl, rfl, rfl, rfl, rfl, rfl⟩ : key' = key ∧ salt = Config.drbg32 b.free ∧ uses = 0 ∧ warned = false ∧ limit = field m 0x28 1 ∧
      force = limit ∧ kept = limit := ⟨hk, hsalt, huses, hwarned, hlimit, hforce, hkept⟩
    refine ⟨fun hfree hnumber => ?first, fun p hp hown hprev hnumber => ?next⟩
    case first =>
      obtain rfl : number = 1 := hnumber
      have hload := State.pageLoad_loaded hm hpage hkey hlow hhigh hz hready (by simp [hfree]) (gen := _) rfl w.stamp
      rw [hfree] at hload
      refine ⟨_, executes_load rfl rfl h hload, ?_⟩
      refine ⟨(State.pageLoaded_keyPage? ..).trans (if_pos rfl), ?_, State.pageLoaded_free .., fun g hg => (State.pageLoaded_fn ..).trans (if_neg hg),
        fun q hq => (State.pageLoaded_keyPage? ..).trans (if_neg hq), State.pageLoaded_delta .., (State.pageLoaded_keyWork ..).eq⟩
      rw [State.pageLoaded_fn, if_pos rfl]
    case next =>
      have hload := State.pageLoad_loaded hm hpage hkey hlow hhigh hz hready (fun q hq => by
        rw [hp, Option.some.injEq] at hq; subst hq; exact ⟨hown, hprev⟩) (gen := _) rfl w.stamp
      obtain rfl : number = nextNumber (some p) := hnumber
      rw [hp] at hload
      refine ⟨_, executes_load rfl rfl h hload, (State.pageLoaded_keyPage? ..).trans (if_pos rfl), ?_⟩
      rw [State.pageLoaded_fn, if_pos rfl]
  case kek =>
    intro k v h hready hcheck
    rw [hm] at hcheck
    exact ⟨_, executes_kek rfl rfl h (State.kekInstall_installed hready hcheck w.stamp), State.kekInstalled_fn .., State.kekInstalled_free ..,
      State.kekInstalled_delta .., (State.kekInstalled_keyWork ..).eq⟩
  case retire =>
    intro p h hpage hp hown
    exact ⟨fun g hg hleft hw => executes_keyPageRetire rfl rfl h (State.pageRetire_previous hpage hp hown hg hleft hw w.stamp),
      fun hg hn => executes_keyPageRetire rfl rfl h (State.pageRetire_freed hpage hp hown hg hn w.stamp),
      fun hg hn => executes_keyPageRetire rfl rfl h (State.pageRetire_named hpage hp hown hg hn w.stamp)⟩
  case refused =>
    rintro t fail _ h hc hb hf rfl
    exact executes_recordClear rfl h (State.recordClear_refused hc hb hf)
  case cleared =>
    rintro t _ _ _ gone h hc hb hf rfl hgone rfl rfl
    exact executes_recordClear rfl h (State.recordClear_cleared hc hb hf hgone)

end Sys2Proof
end

section
/-! The messages of a peer to a target pair (R311 to R316): which of them the pair takes, and which start as the commands that they are. -/

namespace Sys2Proof.Machine

section
variable {s b t : State} {c : Submission} {w : Work} {i : Instr} {p : Pair}

/-- A command alone in its grain executes with its own descriptor, whichever checks it passes. -/
theorem desc_of_alone_any (h : Alone s c b w) : w.desc = c.desc := by
  cases hop : isAdminOp c.desc.opcode.toNat with
  | true => exact desc_of_alone h hop
  | false =>
    obtain ⟨a, rfl, _, _, _, _, hat⟩ := h.stamped
    exact (atStamp_data hat hop).2

/-- The kind that a pair message's row names. -/
theorem peerKind_of_alone {op v : Nat} (h : Alone s (withOpcode op (withParam 0x32 v c)) b w) : w.desc.peerKind = v % 256 := by
  rw [Descriptor.peerKind, desc_of_alone_any h, withOpcode_param, withParam_param v c (by norm_num) (by norm_num)]

/-! ## Where a pair's messages go (log entry 130) -/

/-- No cutover holds a message of the pair. -/
theorem State.cutHolds_peer (hp : b.peerPair w.carrier = some p) : b.cutHolds w = false := by simp [State.cutHolds, hp]

section
variable (hp : b.peerPair w.carrier = some p)
include hp

/-- COPY_DONE, PROPOSE and MARK act on the pair. -/
theorem State.dataCmd_targetMessage (hop : w.op = 0x22) (hfree : b.orderHeld w = false) : b.dataCmd w = (b.addWork w).targetMessage w p := by
  have hpair : (b.addWork w).peerPair w.carrier = some p := hp
  rw [State.dataCmd, if_neg (by simp [hop]), if_neg (by simp [State.cutHolds_peer hp]), State.beginData, hpair]
  exact if_pos (by simp [hop, State.orderHeld_addWork, hfree])

theorem executes_of_targetMessage {v : Nat} (hi : exec i s = s.command (withOpcode 0x22 (withParam 0x32 v c)) true)
    (h : Alone s (withOpcode 0x22 (withParam 0x32 v c)) b w) (ht : (b.addWork w).targetMessage w p = t) : Executes i s t :=
  executes_of_dataCmd hi h rfl ((State.dataCmd_targetMessage hp (op_of_alone_data h rfl) h.free).trans ht)

/-- APPLY and COMPARE start like the commands that they are. -/
theorem executes_of_peerStart (hi : exec i s = s.command c true) (h : Alone s c b w) (hop : isAdminOp c.desc.opcode.toNat = false)
    (hne : w.op ≠ 0x22) (hd : w.op = 0x13 → b.update.active = none) (ht : (b.addWork w).startData w = t) : Executes i s t :=
  executes_of_dataCmd hi h hop ((State.dataCmd_start (State.cutHolds_peer hp) hd (.inr hne)).trans ht)

end

/-! ## What the pair makes of a message (R313, R315, R316) -/

theorem State.targetMessage_copyDone (hk : w.desc.peerKind = 3) : s.targetMessage w p =
    (s.updPair p.number fun p => { p with copyDone := true }).deliver w { commit := w.stamp } := by
  simp only [State.targetMessage, hk, State.ok_eq]

section
variable {cut : Nat} (hcut : cut = grainOf (w.desc.param 0x38 8))
include hcut

theorem State.targetMessage_accepted (hk : w.desc.peerKind = 4) (hs : p.state = .copying) (h2 : p.kind ≠ 2) (hlead : grainOf w.stamp + 2 ≤ cut)
    (hq : s.time.quality = .locked) : s.targetMessage w p =
    ((s.updPair p.number fun p => { p with state := .committed, cutover := cut }).metaWrite 0).deliver w { commit := w.stamp } := by
  simp only [State.targetMessage, hk, State.ok_eq, ← hcut]
  exact if_pos ⟨hs, h2, hlead, hq⟩

theorem State.targetMessage_notProposed (hk : w.desc.peerKind = 4)
    (h : p.state ≠ .copying ∨ p.kind = 2 ∨ cut < grainOf w.stamp + 2 ∨ s.time.quality ≠ .locked) :
    s.targetMessage w p = s.deliver w { status := .conditionFailed, commit := w.stamp } := by
  simp only [State.targetMessage, hk, State.refuse_eq, ← hcut]
  refine if_neg fun ⟨hs, h2, hlead, hq⟩ => ?_
  rcases h with h | h | h | h
  · exact h hs
  · exact h2 h
  · omega
  · exact h hq

theorem State.targetMessage_mark (hk : w.desc.peerKind = 5) (hs : p.state = .committed) (hc : p.cutover = cut) :
    s.targetMessage w p = ((s.deliver w { commit := w.stamp }).cutover p w.stamp).metaWrite 0 := by
  simp only [State.targetMessage, hk, State.ok_eq, ← hcut]
  exact if_pos ⟨hs, hc⟩

theorem State.targetMessage_notMarked (hk : w.desc.peerKind = 5) (h : p.state ≠ .committed ∨ p.cutover ≠ cut) :
    s.targetMessage w p = s.deliver w { status := .conditionFailed, commit := w.stamp } := by
  simp only [State.targetMessage, hk, State.refuse_eq, ← hcut]
  exact if_neg fun ⟨hs, hc⟩ => h.elim (· hs) (· hc)

end

end

end Sys2Proof.Machine

namespace Sys2Proof

open Machine

/-- Settles O32: COPY_DONE, PROPOSE and MARK act on their pair (`executes_of_targetMessage`), APPLY and COMPARE start as the write and the read
that they are (`executes_of_peerStart`). -/
theorem pairMessages : Obligations.PairMessages := by
  rintro s b c w p _ cut hp rfl hcut
  refine ⟨fun h => executes_of_targetMessage hp rfl h (State.targetMessage_copyDone (peerKind_of_alone h)), fun h => ?propose, fun h => ?mark,
    fun h => ?compare, fun op hop hw hd h => ?apply⟩
  case propose =>
    have hk : w.desc.peerKind = 4 := peerKind_of_alone h
    exact ⟨fun hs h2 hlead hq => executes_of_targetMessage hp rfl h (State.targetMessage_accepted hcut hk hs h2 hlead hq),
      fun hno => executes_of_targetMessage hp rfl h (State.targetMessage_notProposed hcut hk hno)⟩
  case mark =>
    have hk : w.desc.peerKind = 5 := peerKind_of_alone h
    exact ⟨fun hs hc => executes_of_targetMessage hp rfl h (State.targetMessage_mark hcut hk hs hc),
      fun hno => executes_of_targetMessage hp rfl h (State.targetMessage_notMarked hcut hk hno)⟩
  case compare =>
    have hop : w.op = 0x02 := op_of_alone_data h rfl
    have hread : isReadOp w.op = true := by rw [hop]; rfl
    exact executes_of_peerStart hp rfl h rfl (by omega) (by omega) (State.startData_read hread)
  case apply =>
    subst hw
    have hwrite : isWriteOp w.op = true ∧ isAdminOp w.op = false ∧ w.op ≠ 0x22 := by
      simp only [List.mem_cons, List.not_mem_nil, or_false] at hop
      obtain hop | hop | hop | hop := hop <;> rw [hop] <;> decide
    obtain ⟨hwrite, hadmin, hne⟩ := hwrite
    rw [Work.op, desc_of_alone_any h] at hadmin
    exact executes_of_peerStart hp rfl h hadmin hne hd (State.startData_write hwrite)

end Sys2Proof
end

section
/-! The end of a link test (R383) is measured on the local clock: a state in which the grains have passed and the local time has not refutes
a statement that measures it in grains. -/

namespace Sys2Proof.Machine

/-- R383: a test whose duration has not passed on the local clock goes on. -/
theorem State.linkTestEnd_early {s : State} {r : TestRun} (hr : s.test.run = some r) (h : s.localUs < r.startUs + 1000 * r.duration)
    (l : List TestResult) : s.linkTestEnd l = s := by
  simp only [State.linkTestEnd, hr]
  exact if_neg fun ⟨_, hdone, _⟩ => Nat.not_le.2 h hdone

/-- A NAND test on no channel, of duration 0: it started in grain 0, at local time 1 µs. -/
def nandTest : TestRun := { block := [], stamp := some 9, startUs := 1, quiesced := true, kind := 2 }

/-- The LINK_TEST that the test answers: stamped 9 on the admin ring of the physical function, with no room for results. -/
def linkTestWork : Work :=
  { stamp := 9, carrier := .admin 0, fn := 0, area := [], phase := .admin
    desc := { opcode := 0xC0, flags := 0, tag := 0, ns := 0, keyLen := 0, valLen := 0, timeout := 0, aux := 0, stampArg := 0, valAddr := 0,
              keyField := 0 } }

/-- A device in MAINTENANCE whose clocks stand at 0, with that test under way. -/
def nandTesting : State := { State.reset with mode := .maintenance, works := [linkTestWork], test := { run := some nandTest } }

/-- The state in which a statement has the test ended and its mode and event behind it. -/
def nandTested : State :=
  (({ nandTesting with test := { nandTesting.test with run := none, result := nandTest.results 0 [], done := true } }).enterMode .service).raiseOnly
    224 0 0 (eventData [(1, 2), (2, 0), (2, 0)])

theorem nandTested_work? : nandTested.work? 9 = some linkTestWork := by decide

/-- Its completion leaves no test and a clock that stands. -/
theorem nandTested_returns : (nandTested.returns linkTestWork (nandTest.results 0 []) { length := (nandTest.results 0 []).length }).test.run = none ∧
    (nandTested.returns linkTestWork (nandTest.results 0 []) { length := (nandTest.results 0 []).length }).time.running = false := by decide

/-- The row leaves the test under way: its local time has not come. -/
theorem not_acts_linkTestEnd {u : State} (hu : u.time.running = false) (hrun : u.test.run = none) : ¬ Acts (.linkTestEnd []) nandTesting u := by
  intro h
  have hearly : nandTesting.linkTestEnd [] = nandTesting := State.linkTestEnd_early rfl (by decide) []
  have hcored : nandTesting.cored = true := rfl
  have hacts : Acts (.linkTestEnd []) nandTesting nandTesting := acts_of_act hcored (exec_linkTestEnd [] _) hearly
  rw [Acts, State.finish_of_stopped _ hu] at h
  rw [Acts, h, State.finish_of_stopped _ rfl] at hacts
  have hgone : u.test.run = some nandTest := congrArg (fun v : State => v.test.run) (Host.Outcome.next.inj hacts)
  rw [hrun] at hgone
  cases hgone

end Sys2Proof.Machine

namespace Sys2Proof

open Machine

/-- Refutes O31: it ends a link test once its duration has passed in grains, where the model waits for the local clock. A test of duration 0
whose local time of start lies ahead is still under way at the grain in which it started. -/
theorem not_pairStartAndLinkTest : ¬ Obligations.PairStartAndLinkTest := by
  intro ⟨_, h⟩
  obtain ⟨_, _, hend⟩ := h nandTesting nandTest rfl rfl
  obtain ⟨hgone, hstopped⟩ := nandTested_returns
  exact not_acts_linkTestEnd hstopped hgone (hend [] 9 linkTestWork _ nandTested rfl (by decide) rfl rfl rfl nandTested_work?)

end Sys2Proof
end

section
/-! Map datagrams (R306 to R310): what a worker makes of each, a whole map's adoption, the manager's answers and its publication, and the two
timers of a worker. -/

namespace Sys2Proof.Machine

section
variable {s t : State} {d : MapDatagram} {id : Identity}

theorem State.powered_of_coredRow (h : s.cored = true) : s.powered = true := (Bool.and_eq_true_iff.1 h).1

/-! ## A grain behind one arrival, its clock running or not -/

/-- A stamped row that brings one event to a quiet intake, and changes the cluster alone beside it: its step leaves what the event leaves at the
grain's first stamp. -/
theorem executes_of_clusterArrive {i : Instr} {ok : Bool} {f : State → State} {c : Cluster} {e : Event} (hok : ok = true) (hp : s.powered = true)
    (hq : s.quiet = true) (hg : s.nextGrain < Config.maxGrain) (hi : exec i s = s.stamped ok true f)
    (hf : f s = ({ s with cluster := c } : State).arrive e)
    (ht : ({ atSlotZero s with cluster := c } : State).applyEvent e (stampOf s.grain 0) = t) : Executes i s t := by
  have hedge : (({ s with cluster := c } : State).arrive e).grainEdge = restOfGrain s.grain t := by
    rw [← ht]
    exact State.grainEdge_arrive (s := { s with cluster := c }) hq hp e
  rw [Executes, hi, State.stamped_edge hok hg, hf, hedge]

/-! ## A discard (R310, R377) -/

theorem State.mapDiscard_cluster (s : State) (cause : Nat) (d : MapDatagram) (v6 : Bool) :
    (s.mapDiscard cause d v6).cluster = { s.cluster with discards := bump s.cluster.discards cause } := by
  obtain ⟨e, x, h⟩ := State.raiseLimited_frame (s.updCluster fun c => { c with discards := bump c.discards cause }) 195 0 0 0 (some 0x800) _
  rw [State.mapDiscard, h]
  rfl

theorem State.mapDiscard_frame (s : State) (cause : Nat) (d : MapDatagram) (v6 : Bool) : s.mapDiscard cause d v6 = { s with
    cluster := { s.cluster with discards := (s.mapDiscard cause d v6).cluster.discards }
    events := (s.mapDiscard cause d v6).events, terrace := (s.mapDiscard cause d v6).terrace } := by
  obtain ⟨e, x, h⟩ := State.raiseLimited_frame (s.updCluster fun c => { c with discards := bump c.discards cause }) 195 0 0 0 (some 0x800) _
  rw [State.mapDiscard, h]
  rfl

/-! ## A worker's reception (R310) -/

section
variable (hid : s.cluster.identity = some id)
include hid

theorem State.mapReceive_notForIt (h : s.cluster.role ≠ .worker ∨ d.type = 2) : s.mapReceive d = (s, false) := by
  simp only [State.mapReceive, hid]
  exact if_pos h

variable (hrole : s.cluster.role = .worker) (htype : d.type ≠ 2)
include hrole htype

theorem State.mapReceive_badCrc (hcrc : d.crcOk = false) : s.mapReceive d = (s.mapDiscard 1 d id.v6, false) := by
  simp [State.mapReceive, hid, hrole, htype, hcrc]

variable (hcrc : d.crcOk = true)
include hcrc

theorem State.mapReceive_badFields (h : (d.type ≠ 1 ∧ d.type ≠ 3) ∨ mapDatagramGood d = false) :
    s.mapReceive d = (s.mapDiscard 2 d id.v6, false) := by
  simp only [State.mapReceive, hid]
  rw [if_neg (by simp [hrole, htype]), if_neg (by simp [hcrc]), if_pos (h.imp (by simp) (by simp [·]))]

variable (hkind : d.type = 1 ∨ d.type = 3) (hgood : mapDatagramGood d = true)
include hkind hgood

omit hid in
/-- What the last checks decide, behind those of the CRC and of the fields. -/
theorem State.mapReceive_wellFormed : ¬(s.cluster.role ≠ .worker ∨ d.type = 2) ∧ ¬((!d.crcOk) = true) ∧
    ¬((!decide (d.type = 1 ∨ d.type = 3)) = true ∨ (!mapDatagramGood d) = true) :=
  ⟨by simp [hrole, htype], by simp [hcrc], by simp [hkind, hgood]⟩

theorem State.mapReceive_stranger (h : d.srcIp ≠ id.address ∨ d.manager ≠ id.manager) :
    s.mapReceive d = (s.mapDiscard 3 d id.v6, false) := by
  obtain ⟨hfor, hc, hf⟩ := State.mapReceive_wellFormed hrole htype hcrc hkind hgood
  simp only [State.mapReceive, hid]
  rw [if_neg hfor, if_neg hc, if_neg hf, if_pos h]

variable (hsrc : d.srcIp = id.address) (hman : d.manager = id.manager)
include hsrc hman

theorem State.mapReceive_stale (h : d.epoch < s.cluster.epoch) : s.mapReceive d = (s.mapDiscard 4 d id.v6, false) := by
  obtain ⟨hfor, hc, hf⟩ := State.mapReceive_wellFormed hrole htype hcrc hkind hgood
  simp only [State.mapReceive, hid]
  rw [if_neg hfor, if_neg hc, if_neg hf, if_neg (by simp [hsrc, hman]), if_pos h]

theorem State.mapReceive_refresh (h : d.epoch = s.cluster.epoch) :
    s.mapReceive d = ({ s with cluster := { s.cluster with refreshed := s.localUs, silent := false } }, false) := by
  obtain ⟨hfor, hc, hf⟩ := State.mapReceive_wellFormed hrole htype hcrc hkind hgood
  conv_lhs => simp only [State.mapReceive, hid]
  rw [if_neg hfor, if_neg hc, if_neg hf, if_neg (by simp [hsrc, hman]), if_neg (by omega), if_pos (.inl h), if_pos h]
  rfl

omit hid hrole htype hcrc hkind hgood hsrc hman in
/-- The cluster of a worker that has gathered a whole map. -/
def State.mapWhole (s : State) (d : MapDatagram) (held : NatMap Bytes) : Cluster :=
  { s.cluster with gatherEpoch := 0, gatherAt := 0, gatherStamp := 0, gathered := [], whole := some (d.epoch, d.mapStamp, held) }

/-- A fragment of the epoch that is gathered joins what is held; with the last one the map is whole. -/
theorem State.mapReceive_fragment (hnew : s.cluster.epoch < d.epoch) (hcount : d.count ≠ 0) (hgather : d.epoch = s.cluster.gatherEpoch)
    {held : NatMap Bytes} (hheld : held = mapSet s.cluster.gathered d.fragment d.payload) : s.mapReceive d =
    if held.length = 64 then ({ s with cluster := s.mapWhole d held }, true)
    else ({ s with cluster := { s.cluster with gatherStamp := d.mapStamp, gathered := held } }, false) := by
  obtain ⟨hfor, hc, hf⟩ := State.mapReceive_wellFormed hrole htype hcrc hkind hgood
  have hfresh : decide (s.cluster.gatherEpoch < d.epoch) = false := by rw [hgather]; simp
  subst hheld
  conv_lhs => simp only [State.mapReceive, hid, hfresh]
  rw [if_neg hfor, if_neg hc, if_neg hf, if_neg (by simp [hsrc, hman]), if_neg (by omega), if_neg (by simp [hcount]; omega), if_neg (by omega)]
  conv_lhs => rw [hgather]
  conv_rhs => rw [State.mapWhole, hgather]
  rfl

end

theorem State.mapIn_taken (h : s.mapReceive d = (t, false)) : s.mapIn d = t := by rw [State.mapIn, h]

theorem State.mapIn_whole (h : s.mapReceive d = (t, true)) : s.mapIn d = t.arrive (.mapAdopt d.epoch) := by rw [State.mapIn, h]

/-! ## The adoption of a whole map (R308, R310) -/

/-- A worker's newer map takes effect at its adoption's stamp, under source 192. -/
theorem State.mapAdopt_taken {epoch ms : Nat} {held : NatMap Bytes} (hw : s.cluster.whole = some (epoch, ms, held)) (he : s.cluster.epoch < epoch)
    (hrole : s.cluster.role = .worker) (st : Stamp) : s.mapAdopt epoch st =
    (((s.installMap (zeros 0x40 ++ held.flatMap Prod.snd) epoch ms st).updCluster fun c => { c with whole := none }).metaWrite 0).mapEvent 1 epoch
      ((s.cluster.identity.map Identity.manager).getD 0) st := by
  simp only [State.mapAdopt, hw]
  rw [if_neg (by simp [hrole, he])]
  rfl

theorem State.installMap_owners (s : State) (block : Bytes) (epoch ms : Nat) (st : Stamp) :
    (s.installMap block epoch ms st).cluster.owners = (sliceWords block).zipIdx.map fun x => (x.2, x.1 % 1024) := by
  simp only [State.installMap, State.updCluster_cluster]

theorem State.mapEvent_cluster (s : State) (op epoch manager : Nat) (st : Stamp) : (s.mapEvent op epoch manager st).cluster = s.cluster := by
  obtain ⟨e, x, h⟩ := s.raise_frame 192 0 st 0x800 (eventData [(1, op), (4, epoch), (2, manager)])
  rw [State.mapEvent, h]

/-! ## The manager (R309) -/

section
variable (hid : s.cluster.identity = some id) (hrole : s.cluster.role = .manager)
include hid hrole

theorem State.mapRequest_badCrc (hcrc : d.crcOk = false) : s.mapRequest d = s.mapDiscard 1 d id.v6 := by
  simp [State.mapRequest, hid, hrole, hcrc]

/-- A REQUEST within the second of the last limit's start, its fields as R309 lays them out. -/
theorem State.mapRequest_good (hcrc : d.crcOk = true) (hmagic : d.magic = 0x4C4D) (hver : d.version = 1) (htype : d.type = 2) (hcount : d.count = 0)
    (hfrag : d.fragment = 0) (hlen : d.payLen = 0) (hms : d.mapStamp = 0) (hres : d.reserved = 0) (hsec : s.localUs < s.cluster.reqAt + 1000000)
    {u : State} (hu : u = { s with
      cluster := { s.cluster with reqs := bump s.cluster.reqs d.port, answered := inc64 s.cluster.answered } }) {mac : BitVec 48}
    (hmac : mac = ((s.wire.neighbours.find? fun e => e.1 = d.srcIp).map Prod.snd).getD 0) : s.mapRequest d =
    if 100 ≤ mapGet 0 s.cluster.reqs d.port then { s with cluster := { s.cluster with dropped := inc64 s.cluster.dropped } }
    else if d.epoch = s.cluster.epoch then
      u.sendMap id mac (d.srcIp, d.srcPort.toNat) 0 (mapDatagram 3 s.cluster.epoch id.device 0 0 s.cluster.mapStamp [])
    else u.sendFragments id 3 mac (d.srcIp, d.srcPort.toNat) 0 := by
  subst hu hmac
  have hfresh : decide (s.cluster.reqAt + 1000000 ≤ s.localUs) = false := by simpa using hsec
  conv_lhs => simp only [State.mapRequest, hid, hfresh]
  rw [if_neg (by simp [hrole]), if_neg (by simp [hcrc]), if_neg (by simp [hmagic, hver, htype, hcount, hfrag, hlen, hms, hres])]
  generalize hx : s.updCluster _ = x
  obtain rfl : s = x := hx
  rfl

omit hid hrole in
theorem State.publishTurn_early (h : s.localUs < s.cluster.publishedAt + 1000000) : s.publishTurn = s := if_neg (Nat.not_le.2 h)

theorem State.publishTurn_due (h : s.cluster.publishedAt + 1000000 ≤ s.localUs) (he : s.cluster.epoch ≠ 0) : s.publishTurn =
    (s.sendFragments id 1 (groupMac id.v6 id.group) (id.group, id.udp) 1).updCluster fun c => { c with publishedAt := s.localUs } := by
  rw [State.publishTurn, if_pos h, State.publish, hid]
  exact if_pos ⟨hrole, he⟩

end

/-! ## A worker's timers (R310) -/

theorem State.mapGatherTimeout_early (h : s.cluster.gatherEpoch = 0 ∨ s.localUs < s.cluster.gatherAt + 2000000) : s.mapGatherTimeout = s :=
  if_neg fun ⟨h0, hlate⟩ => h.elim h0 (Nat.not_lt.2 hlate)

theorem State.mapGatherTimeout_due (h0 : s.cluster.gatherEpoch ≠ 0) (hlate : s.cluster.gatherAt + 2000000 ≤ s.localUs) :
    s.mapGatherTimeout.cluster =
      { s.cluster with discards := bump s.cluster.discards 5, gatherEpoch := 0, gatherStamp := 0, gatherAt := 0, gathered := [] } := by
  rw [State.mapGatherTimeout, if_pos ⟨h0, hlate⟩, State.updCluster_cluster, State.mapDiscard_cluster]

section
variable (hrole : s.cluster.role = .worker) (he : s.cluster.epoch ≠ 0) (hlate : s.cluster.refreshed + 5000000 ≤ s.localUs)
include hrole he hlate

theorem State.mapSilence_first (hs : s.cluster.silent = false) : s.mapSilence =
    ({ s with cluster := { s.cluster with silent := true } }).raise 193 0 0 0x800 (eventData [(4, s.cluster.epoch)]) :=
  if_pos ⟨hrole, he, by simp [hs], hlate⟩

omit hrole he hlate in
theorem State.mapSilence_again (hs : s.cluster.silent = true) : s.mapSilence = s := if_neg (by simp [hs])

end

end

end Sys2Proof.Machine

namespace Sys2Proof

open Machine

/-- Settles O59: a worker's row is its reception (`State.mapReceive_…`), whose whole map takes effect at its adoption's stamp
(`State.mapAdopt_taken`); every other row leaves what the lemma of its operation spells. -/
theorem mapDatagrams : Obligations.MapDatagrams := by
  rintro s d id _ hc rfl hid
  have hp := State.powered_of_coredRow hc
  have arrives {t : State} (h : s.mapIn d = t) : Arrives (.mapPublishReceive d) s t :=
    arrives_of_effect hc (fun edge => exec_mapPublishReceive d edge s) h
  refine ⟨fun h => arrives (State.mapIn_taken (State.mapReceive_notForIt hid h)), fun hrole htype => ⟨fun cause hcause => ?discard,
    fun hcrc hkind hgood hsrc hman => ⟨fun he => ?refresh, ?fragment⟩⟩, fun hrole => ?manager,
    fun h => acts_of_act hc (exec_mapGatherTimeout s) (State.mapGatherTimeout_early h),
    fun h0 hlate => ⟨_, acts_of_act hc (exec_mapGatherTimeout s) rfl, State.mapGatherTimeout_due h0 hlate⟩,
    fun hrole he hlate => ⟨fun hs => acts_of_act hc (exec_mapSilenceTimeout s) (State.mapSilence_first hrole he hlate hs),
      fun hs => acts_of_act hc (exec_mapSilenceTimeout s) (State.mapSilence_again hs)⟩⟩
  case discard =>
    have discarded (h : s.mapReceive d = (s.mapDiscard cause d id.v6, false)) : ∃ t : State, Arrives (.mapPublishReceive d) s t ∧
        t.cluster.discards = bump s.cluster.discards cause ∧
        t = { s with cluster := { s.cluster with discards := t.cluster.discards }, events := t.events, terrace := t.terrace } :=
      ⟨_, arrives (State.mapIn_taken h), by rw [State.mapDiscard_cluster], s.mapDiscard_frame cause d id.v6⟩
    obtain ⟨hcrc, rfl⟩ | ⟨hcrc, hbad, rfl⟩ | ⟨hcrc, hkind, hgood, hother, rfl⟩ | ⟨hcrc, hkind, hgood, hsrc, hman, hold, rfl⟩ := hcause
    · exact discarded (State.mapReceive_badCrc hid hrole htype hcrc)
    · exact discarded (State.mapReceive_badFields hid hrole htype hcrc hbad)
    · exact discarded (State.mapReceive_stranger hid hrole htype hcrc hkind hgood hother)
    · exact discarded (State.mapReceive_stale hid hrole htype hcrc hkind hgood hsrc hman hold)
  case refresh => exact arrives (State.mapIn_taken (State.mapReceive_refresh hid hrole htype hcrc hkind hgood hsrc hman he))
  case fragment =>
    intro hnew hcount hgather held hheld
    have hfrag := State.mapReceive_fragment hid hrole htype hcrc hkind hgood hsrc hman hnew hcount hgather hheld
    refine ⟨fun h64 => arrives (State.mapIn_taken (hfrag.trans (if_neg h64))), fun h64 => arrives (State.mapIn_whole (hfrag.trans (if_pos h64))),
      fun h64 hq hg => ?adopt⟩
    have hin := State.mapIn_whole (hfrag.trans (if_pos h64))
    have hadopt := State.mapAdopt_taken (s := { atSlotZero s with cluster := s.mapWhole d held }) rfl hnew hrole (stampOf s.grain 0)
    refine ⟨_, executes_of_clusterArrive hc hp hq hg (exec_mapPublishReceive d true s) hin hadopt, ?_⟩
    have hmanager : (s.cluster.identity.map Identity.manager).getD 0 = id.manager := by rw [hid]; rfl
    rw [State.mapEvent_cluster, State.metaWrite_cluster]
    refine ⟨rfl, rfl, rfl, rfl, rfl, ?_, ?_⟩
    · rw [State.updCluster_cluster, State.installMap_owners]
    rw [← hmanager]
    exact State.raise_mem ..
  case manager =>
    refine ⟨fun hcrc => acts_of_act hc (exec_mapRequestReceive d s) (State.mapRequest_badCrc hid hrole hcrc), ?request,
      fun h => acts_of_act hc (exec_mapPublishTimer s) (State.publishTurn_early h),
      fun h he => acts_of_act hc (exec_mapPublishTimer s) (State.publishTurn_due hid hrole h he)⟩
    intro hcrc hmagic hver htype hcount hfrag hlen hms hres hsec
    have answer := State.mapRequest_good hid hrole hcrc hmagic hver htype hcount hfrag hlen hms hres hsec rfl rfl
    have acts {t : State} (h : s.mapRequest d = t) : Acts (.mapRequestReceive d) s t := acts_of_act hc (exec_mapRequestReceive d s) h
    exact ⟨fun hfull => acts (answer.trans (if_pos hfull)),
      fun hroom he => acts (answer.trans ((if_neg (Nat.not_le.2 hroom)).trans (if_pos he))),
      fun hroom he => acts (answer.trans ((if_neg (Nat.not_le.2 hroom)).trans (if_neg he)))⟩

end Sys2Proof
end

section
/-! A firmware activation (R361 to R368): preparation and its acceptance, the quiesce and its bound, the restart, a BOOT hold's second run of
the ROM, and half the trial's window. -/

namespace Sys2Proof.Machine

section
variable {s t u : State} {w : Work} {rom : RomFindings}

/-! ## Preparation (R361, R362) -/

/-- A slot's writing changes the bytes of the SPI NOR alone. -/
theorem State.prepareSlot_frame (s : State) : ∃ m, s.prepareSlot = { s with spi := { s.spi with mem := m } } := ⟨_, rfl⟩

theorem State.prepareDone_due (hc : s.cored = true) (hp : s.update.preparing = true) (hq : s.prepareQuiet = true) (hless : s.update.progress < 100) :
    s.prepareDone = (s.prepareSlot.updUpdate fun u => { u with progress := 100 }).arrive .prepared := by
  have hpower : s.pins.pwrFail = false := by simpa [State.powered] using (State.cored_iff.1 hc).1
  exact if_pos ⟨hp, hq, by simp [hpower], hless⟩

theorem State.prepareDone_not (h : s.update.preparing = false ∨ s.prepareQuiet = false ∨ 100 ≤ s.update.progress) : s.prepareDone = s := by
  refine if_neg fun ⟨hp, hq, _, hless⟩ => ?_
  rcases h with h | h | h
  · simp [h] at hp
  · simp [h] at hq
  · omega

theorem State.preparedApply_accepted {st : Stamp} (ha : s.update.active = some st) (hw : s.work? st = some w) (hr : s.activateRefusal = none) :
    s.preparedApply = (s.updUpdate fun u => { u with window := s.inForce.window }).beginQuiesce := by
  simp only [State.preparedApply, ha, Option.bind_some, hw, hr]

theorem State.preparedApply_refused {st : Stamp} {r : Nat} (ha : s.update.active = some st) (hw : s.work? st = some w)
    (hr : s.activateRefusal = some r) :
    s.preparedApply = (s.updUpdate fun u => { u with active := none, preparing := false, progress := 0 }).activateRefused w r := by
  simp only [State.preparedApply, ha, Option.bind_some, hw, hr]

/-! ## The quiesce (R363) -/

/-- A quiesce begins: the mode is MAINTENANCE, and the update notes the moment. -/
theorem State.beginQuiesce_frame (s : State) : ∃ p e x, s.beginQuiesce = { s with
    mode := .maintenance, pins := p, events := e, terrace := x
    update := { s.update with quiesce := 1, quiesceAt := s.localUs, preparing := false } } := by
  rw [State.beginQuiesce]
  dsimp only
  split
  case isTrue hm =>
    have hm : s.mode = .maintenance := hm
    rw [← hm]
    exact ⟨_, _, _, rfl⟩
  case isFalse =>
    obtain ⟨p, e, x, h⟩ := State.enterMode_frame
      (s.updUpdate fun u => { u with quiesce := 1, quiesceAt := s.localUs, preparing := false }) (m := .maintenance) rfl
    exact ⟨p, e, x, h⟩

theorem State.quiesceTimeout_early (h : s.update.quiesce ≠ 1 ∨ s.localUs < s.update.quiesceAt + 300000) : s.quiesceTimeout = s :=
  if_neg fun ⟨h1, hlate⟩ => h.elim (· h1) (Nat.not_lt.2 hlate)

section
variable (h1 : s.update.quiesce = 1) (hlate : s.update.quiesceAt + 300000 ≤ s.localUs) (hw : s.works = [w])
include h1 hlate hw

theorem State.quiesceTimeout_caught {r : Nat} (h : s.quiesceCaught w = true) (hr : s.retryAfter 1000 = (u, r)) :
    s.quiesceTimeout = u.endWithout w { status := .busyRetry, detail := r, commit := w.stamp } := by
  rw [State.quiesceTimeout, if_pos ⟨h1, hlate⟩, State.catchWaiting, hw, List.filter_cons_of_pos h, List.filter_nil, List.foldl_cons, List.foldl_nil,
    hr]
  rfl

theorem State.quiesceTimeout_kept (h : s.quiesceCaught w = false) : s.quiesceTimeout = s := by
  rw [State.quiesceTimeout, if_pos ⟨h1, hlate⟩, State.catchWaiting, hw, List.filter_cons_of_neg (by simp [h])]
  rfl

end

theorem State.restartDue_iff : s.restartDue = true ↔ s.update.quiesce = 1 ∧ s.quiesced = true ∧ s.quiet = true ∧
    (∀ k ∈ s.delta.steps, k.handle = none) ∧ s.powered = true := by
  simp [State.restartDue, State.powered, and_assoc]

/-! ## Programming all that is open (R363 step 5) -/

/-- `t` is `s` but for the intake, the write sequence, the buffers, the media, the events and the recorder. -/
def Programmed (s t : State) : Prop :=
  ∃ c i b d e x, t = { s with col := c, index := i, basin := b, delta := d, events := e, terrace := x }

theorem Programmed.refl (s : State) : Programmed s s := ⟨_, _, _, _, _, _, rfl⟩

theorem Programmed.trans (h : Programmed s t) (h' : Programmed t u) : Programmed s u := by
  obtain ⟨_, _, _, _, _, _, rfl⟩ := h
  obtain ⟨_, _, _, _, _, _, rfl⟩ := h'
  exact ⟨_, _, _, _, _, _, rfl⟩

/-- A fold of steps that each only program. -/
theorem Programmed.foldl {α : Type} {f : State → α → State} (hf : ∀ s a, Programmed s (f s a)) (l : List α) (s : State) :
    Programmed s (l.foldl f s) := by
  induction l generalizing s with
  | nil => exact .refl s
  | cons a l ih => exact (hf s a).trans (ih _)

section
variable (s : State)

theorem State.updDelta_programmed (f : Delta → Delta) : Programmed s (s.updDelta f) := ⟨_, _, _, _, _, _, rfl⟩
theorem State.updSegment_programmed (n : Nat) (f : Segment → Segment) : Programmed s (s.updSegment n f) := ⟨_, _, _, _, _, _, rfl⟩

theorem State.metaWrite_programmed (n : Nat) : Programmed s (s.metaWrite n) := by
  obtain ⟨d, h⟩ := s.metaWrite_frame n
  exact ⟨_, _, _, _, _, _, h⟩

theorem State.raise_programmed (source fn : Nat) (st : Stamp) (type : Nat) (data : BitVec 128) :
    Programmed s (s.raise source fn st type data) := by
  obtain ⟨e, x, h⟩ := s.raise_frame source fn st type data
  exact ⟨_, _, _, _, _, _, h⟩

theorem State.presentRelease_programmed (h : Handle) (o : OwnerTag) (place : Nat) : Programmed s (s.presentRelease h o place) := by
  obtain ⟨b, hz⟩ := s.zeroBuffer_frame h o
  rw [State.presentRelease, hz]
  exact ⟨_, _, _, _, _, _, rfl⟩

theorem State.takeSeq_programmed (n : Nat) : Programmed s (s.takeSeq n).1 := by
  rw [State.takeSeq]
  split
  · exact ⟨_, _, _, _, _, _, rfl⟩
  · exact Programmed.trans ⟨_, _, _, _, _, _, rfl⟩ (State.metaWrite_programmed ..)

theorem State.wearEvents_programmed : Programmed s s.wearEvents := by
  rw [State.wearEvents]
  dsimp only
  split
  · exact s.updDelta_programmed _
  · exact (s.updDelta_programmed _).trans (State.raise_programmed ..)

/-- The opened segment's media, with their wear's event where blocks were erased for it. -/
theorem State.opened_programmed (f : Delta → Delta) (c : Prop) [Decidable c] :
    Programmed s (if c then (s.updDelta f).metaWrite 16 else ((s.updDelta f).metaWrite 16).wearEvents) := by
  have hopened := (s.updDelta_programmed f).trans (State.metaWrite_programmed _ 16)
  split
  · exact hopened
  · exact hopened.trans (State.wearEvents_programmed _)

theorem State.openSegment_programmed {slot stream group n : Nat} {slc : Bool} (h : s.openSegment slot stream group slc = some (t, n)) :
    Programmed s t := by
  rw [State.openSegment] at h
  dsimp only at h
  split at h
  case h_1 => cases h
  case h_2 =>
    split at h
    case isTrue => cases h
    case isFalse =>
      split at h
      case h_1 => cases h
      case h_2 =>
        injection h with h
        injection h with ht
        exact ht ▸ s.opened_programmed _ _

theorem State.closeAt_programmed (n : Nat) (upTo : Segment → Nat) : Programmed s (s.closeAt n upTo) := by
  rw [State.closeAt]
  split
  · exact .refl s
  · exact ⟨_, _, _, _, _, _, rfl⟩

theorem State.ckptSegment_programmed {units n : Nat} (h : s.ckptSegment units = some (t, n)) : Programmed s t := by
  rw [State.ckptSegment] at h
  dsimp only at h
  split at h
  case h_1 => exact State.openSegment_programmed _ h
  case h_2 =>
    split at h
    · cases h
      exact .refl _
    · exact ((s.closeAt_programmed _ _).trans (State.updDelta_programmed ..)).trans (State.openSegment_programmed _ h)

theorem State.writeFilter_programmed (n : Nat) : Programmed s (s.writeFilter n) := by
  rw [State.writeFilter]
  split
  case isTrue =>
    split
    case h_1 => exact .refl s
    case h_2 h => exact (State.ckptSegment_programmed _ h).trans (State.updSegment_programmed ..)
  case isFalse => exact .refl s

theorem State.closeEarly_programmed (n : Nat) : Programmed s (s.closeEarly n) :=
  (s.closeAt_programmed n s.openEnd).trans (State.writeFilter_programmed ..)

theorem State.journalOpen_programmed {n : Nat} (h : s.journalOpen = some (t, n)) : Programmed s t := by
  rw [State.journalOpen] at h
  split at h
  · cases h
    exact .refl _
  · exact State.openSegment_programmed _ h

theorem State.programJournal_programmed : Programmed s s.programJournal := by
  rw [State.programJournal]
  dsimp only
  split
  case isTrue => exact .refl s
  case isFalse =>
    split
    case h_1 => exact .refl s
    case h_2 hopen =>
      refine ((State.journalOpen_programmed _ hopen).trans (State.takeSeq_programmed _ 1)).trans ?_
      split
      · exact ((State.updSegment_programmed ..).trans (State.updDelta_programmed ..)).trans
          ((State.updDelta_programmed ..).trans (State.closeEarly_programmed ..))
      · exact (State.updSegment_programmed ..).trans (State.updDelta_programmed ..)

theorem State.dropSteps_programmed : Programmed s s.dropSteps := by
  refine Programmed.trans ⟨_, _, _, _, _, _, rfl⟩ (Programmed.foldl (fun t k => ?_) s.delta.steps _)
  split
  · exact t.presentRelease_programmed ..
  · exact .refl t

theorem State.programAll_programmed : Programmed s s.programAll := by
  have hjournal (t : State) : Programmed t (t.updDelta fun d => { d with jForced := true }).programJournal :=
    (t.updDelta_programmed _).trans (State.programJournal_programmed _)
  rw [State.programAll]
  dsimp only
  refine Programmed.trans ?_ (Programmed.foldl (fun t e => t.presentRelease_programmed ..) _ _)
  refine Programmed.trans ?_ (State.updDelta_programmed ..)
  refine Programmed.trans ?_ (Programmed.foldl (fun t _ => hjournal t) _ _)
  exact s.dropSteps_programmed.trans ((State.takeSeq_programmed ..).trans (State.updDelta_programmed ..))

theorem State.flushPage_programmed : Programmed s s.flushPage := by
  have hfill (t : State) : Programmed t t.recorderFill := by
    rw [State.recorderFill]
    split
    · exact t.raise_programmed ..
    · exact .refl t
  rw [State.flushPage]
  split
  · exact .refl s
  · dsimp only
    split
    · exact .refl s
    · split
      · exact ⟨_, _, _, _, _, _, rfl⟩
      · exact Programmed.trans ⟨_, _, _, _, _, _, rfl⟩ (hfill _)

/-- A flush of the recorder notes the anchor of the session in the SPI NOR. -/
theorem State.flushRecorder_frame : ∃ b t, Programmed s t ∧ s.flushRecorder = { t with spi := { t.spi with boots := b } } := by
  have hflush : Programmed s (s.sealSlot true).flushSealed := by
    obtain ⟨x, h⟩ := s.sealSlot_frame true
    rw [h]
    exact Programmed.trans ⟨_, _, _, _, _, _, rfl⟩ (Programmed.foldl (fun t _ => t.flushPage_programmed) _ _)
  rw [State.flushRecorder]
  dsimp only
  split
  · exact ⟨_, _, hflush, rfl⟩
  · exact ⟨_, _, hflush, rfl⟩

end

/-! ## The restart (R324, R363 steps 5 and 6) -/

/-- The device in BOOT as the ROM of a warm restart finds it. -/
def State.restarted (s : State) : State :=
  let s := s.programAll.flushRecorder
  let s := (s.updDelta fun d => { d with sumsSealed := true, imaging := [] }).updDram fun d => { d with sinceSeal := 0 }
  let s := s.writeUp fun u =>
    if s.update.revert then { u with state := .revertRequested }
    else { u with state := .applyPending, boots := 0, deadline := 0, window := s.update.window }
  let s := s.updUpdate fun u => { u with quiesce := 2, rebuilt := false, warm := true }
  (s.updLatches fun _ => []).enterMode .boot

theorem State.warmRestart_due (h1 : s.update.quiesce = 1) (hq : s.quiesced = true) (hp : s.powered = true) (rom : RomFindings) :
    s.warmRestart rom = s.restarted.runRom rom true false := if_pos ⟨h1, hq, by simpa [State.powered] using hp⟩

/-- What a restart leaves before the ROM runs: everything is programmed, the sums are sealed, and the update state is written. -/
theorem State.restarted_leaves (s : State) : s.restarted.mode = .boot ∧ s.restarted.update.quiesce = 2 ∧ s.restarted.update.warm = true ∧
    s.restarted.update.rebuilt = false ∧ s.restarted.delta.sumsSealed = true ∧ s.restarted.dram.sinceSeal = 0 ∧ s.restarted.delta.imaging = [] ∧
    s.restarted.latches = [] ∧ s.restarted.time = s.time ∧ s.restarted.works = s.works ∧ s.restarted.wire = s.wire ∧
    s.restarted.host = s.host ∧
    (s.update.revert = true → s.restarted.spi.up = { s.spi.up with state := .revertRequested, seqNo := s.spi.up.seqNo + 1 }) ∧
    (s.update.revert = false → s.restarted.spi.up = { s.spi.up with
      state := .applyPending, boots := 0, deadline := 0, window := s.update.window, seqNo := s.spi.up.seqNo + 1 }) := by
  obtain ⟨b, t, hflush, hspi⟩ := s.programAll.flushRecorder_frame
  obtain ⟨c, i, a, d, e, x, rfl⟩ := s.programAll_programmed.trans hflush
  rw [State.restarted, hspi]
  refine ⟨rfl, rfl, rfl, rfl, rfl, rfl, rfl, rfl, rfl, rfl, rfl, rfl, fun h => ?_, fun h => ?_⟩
  · show ({ (if s.update.revert then _ else _ : UpRecord) with seqNo := _ } : UpRecord) = _
    rw [if_pos h]
    rfl
  · show ({ (if s.update.revert then _ else _ : UpRecord) with seqNo := _ } : UpRecord) = _
    rw [if_neg (by simp [h])]
    rfl

theorem State.romRerun_none (h : s.update.activeBy = none) : s.romRerun rom = s := by rw [State.romRerun, h]

theorem State.romRerun_some {c : Submission} (h : s.update.activeBy = some c)
    (hu : u = ({ s with update := { s.update with activeBy := none } }).runRom rom s.update.warm true) : s.romRerun rom =
    u.romAnswer (c.work 0 0 .admin) (if u.inTrial ∧ u.mode ≠ .boot then {} else { status := .conditionFailed, detail := u.update.outcome }) [] := by
  rw [State.romRerun, h, hu]
  rfl

/-! ## The trial's window (R368) -/

theorem State.trialHalf_due (ht : s.inTrial = true) (h0 : s.spi.up.deadline ≠ 0) (hh : s.update.halfRaised = false)
    (hd : s.spi.up.deadline ≤ s.grain + 500000 * s.spi.up.window) (hm : s.mode.running = true) : s.trialHalf =
    ({ s with update := { s.update with halfRaised := true } }).raise 213 0 0 0xC01
      (eventData [(8, s.spi.up.deadline), (1, s.update.running)]) := if_pos ⟨ht, h0, by simp [hh], hd, hm⟩

theorem State.trialHalf_raised (h : s.update.halfRaised = true) : s.trialHalf = s := if_neg (by simp [h])

/-- The second check passes: the device goes to MAINTENANCE, and the activation is on its way. -/
theorem State.preparedApply_leaves {st : Stamp} (ha : s.update.active = some st) (hw : s.work? st = some w) (hr : s.activateRefusal = none) :
    s.preparedApply.mode = .maintenance ∧ s.preparedApply.update.quiesce = 1 ∧ s.preparedApply.update.quiesceAt = s.localUs ∧
    s.preparedApply.update.window = s.inForce.window ∧ s.preparedApply.update.active = some st ∧ s.preparedApply.works = s.works ∧
    s.preparedApply.spi = s.spi := by
  rw [State.preparedApply_accepted ha hw hr]
  obtain ⟨p, e, x, h⟩ := (s.updUpdate fun u => { u with window := s.inForce.window }).beginQuiesce_frame
  rw [h]
  exact ⟨rfl, rfl, rfl, rfl, ha, rfl, rfl⟩

/-! ## Rows that Col stamps -/

/-- A row whose grain's edge is still to come leaves what its effect leaves. -/
theorem acts_of_stamped {c : Instr} {ok : Bool} {f : State → State} (hok : ok = true) (hi : exec c s = s.stamped ok false f) (h : f s = t) :
    Acts c s t := by
  rw [Acts, hi, State.stamped_wait hok, h]

/-- A row that brings one event to a quiet intake, whether the time runs or not: its step leaves what the event leaves at the grain's first
stamp. -/
theorem executes_of_poweredArrive {i : Instr} {ok : Bool} {e : Event} (hok : ok = true) (hp : s.powered = true) (hq : s.quiet = true)
    (hg : s.nextGrain < Config.maxGrain) (hi : exec i s = s.stamped ok true fun s => s.arrive e)
    (ht : (atSlotZero s).applyEvent e (stampOf s.grain 0) = t) : Executes i s t := by
  rw [Executes, hi, State.stamped_edge hok hg, State.grainEdge_arrive hq hp, ht]

end

end Sys2Proof.Machine

namespace Sys2Proof

open Machine

/-- Settles O51: preparation's end (`State.prepareDone_due`) and its acceptance (`State.beginQuiesce_frame`), what a restart leaves
(`State.restarted_leaves`), and the single rows' own lemmas. -/
theorem activationProceeds : Obligations.ActivationProceeds := by
  intro s
  refine ⟨?prepared, fun hc h => acts_of_stamped hc (exec_activationPreparationDone false s) (State.prepareDone_not h),
    fun hc h => acts_of_act hc (exec_quiesceTimeout s) (State.quiesceTimeout_early h), ?caught, ?waits, State.restartDue_iff, ?restart, ?rerun,
    ?half⟩
  case prepared =>
    intro hc hp hprep hless y hy
    have hdone := State.prepareDone_due hc hp hprep hless
    rw [← hy] at hdone
    obtain ⟨m, hm⟩ := s.prepareSlot_frame
    rw [hm] at hy
    refine ⟨acts_of_stamped hc (exec_activationPreparationDone false s) hdone, fun hclock hq hg st w ha hw => ?_⟩
    have executes {t : State} (h : (atSlotZero y).preparedApply = t) : Executes (.activationPreparationDone true) s t := by
      subst hy
      exact executes_of_stamped hclock hq hg hc (exec_activationPreparationDone true s) hdone rfl rfl rfl h
    subst hy
    refine ⟨fun hr => ⟨_, executes rfl, State.preparedApply_leaves ha hw hr⟩, fun r hr => ⟨_, executes (State.preparedApply_refused ha hw hr), rfl⟩⟩
  case caught =>
    intro hc h1 hlate w u r hw
    refine ⟨fun hcatch hwait hr => acts_of_act hc (exec_quiesceTimeout s) (State.quiesceTimeout_caught h1 hlate hw ?_ hr),
      fun h => acts_of_act hc (exec_quiesceTimeout s) (State.quiesceTimeout_kept h1 hlate hw ?_)⟩
    · simpa [State.quiesceCaught, hcatch] using hwait
    · rcases h with h | ⟨h, hphase⟩
      · simp [State.quiesceCaught, h]
      · simp [State.quiesceCaught, h, hphase]
  case waits =>
    intro hp hrom hdue rom
    rw [exec_warmRestart, execWarmRestart, if_neg (by simp [hrom]), State.stamped, if_pos (by simp [hdue])]
  case restart =>
    intro hrom hdue hg rom
    obtain ⟨h1, hquiesced, hquiet, -, hp⟩ := State.restartDue_iff.1 hdue
    refine ⟨(atSlotZero s).restarted, ?_, (atSlotZero s).restarted_leaves⟩
    refine executes_of_poweredArrive (e := .deviceReset rom) (by simp [hp, hdue] : (s.powered && s.restartDue) = true) hp hquiet hg ?_
      (State.warmRestart_due (s := atSlotZero s) h1 hquiesced hp rom)
    rw [exec_warmRestart, execWarmRestart, if_neg (by simp [hrom])]
  case rerun =>
    intro hp hrom rom
    have hrow : exec (.warmRestart rom) s = s.act s.powered fun s => s.romRerun rom := by rw [exec_warmRestart, execWarmRestart, if_pos hrom]
    refine ⟨fun h => acts_of_act hp hrow (State.romRerun_none h), fun c u h hu => ?_⟩
    have hrerun := State.romRerun_some h hu
    refine ⟨fun ht hm => acts_of_act hp hrow (hrerun.trans ?_), fun h => acts_of_act hp hrow (hrerun.trans ?_)⟩
    · rw [if_pos ⟨ht, hm⟩]
      rfl
    · rw [if_neg (by rintro ⟨ht, hm⟩; rcases h with h | h <;> simp_all)]
      rfl
  case half =>
    intro hc ht h0 hd
    exact ⟨fun hh => acts_of_act hc (exec_trialHalfWindow s) (State.trialHalf_due ht h0 hh hd (State.cored_iff.1 hc).2),
      fun hh => acts_of_act hc (exec_trialHalfWindow s) (State.trialHalf_raised hh)⟩

end Sys2Proof
end

section
/-! The source's side of a mirror pair (R311 to R318): the cutover that a proposal sets where two pairs share a number. -/

namespace Sys2Proof.Machine

/-- A source's pair that has copied all and waits for credit, with a lead. -/
def sharedPair (lead : Nat) : Pair :=
  { number := 1, kind := 1, target := false, peer := 2, session := 0, slices := [], copyDone := true, lead := lead, nextSeq := 1 }

/-- A device whose time stands still, LOCKED, with two pairs under one number and unequal leads. -/
def sharedNumber : State :=
  { mode := .paired, time := { quality := .locked }, cluster := { pairs := [sharedPair 10, sharedPair 20] } }

/-- The cutovers of the pairs that a step leaves. -/
def cutovers : Host.Outcome State Fault Refusal → List Nat
  | .next s => s.cluster.pairs.map Pair.cutover
  | _ => []

/-- The model proposes the first pair's cutover for every pair of the number. -/
theorem cutovers_proposeSend_sharedNumber : cutovers (exec (.proposeSend 1) sharedNumber) = [10, 10] := by decide

end Sys2Proof.Machine

namespace Sys2Proof

open Machine

/-- Refutes O60: the statement gives each pair of the number the grain of its own lead, where the model gives all of them that of the pair it
found; `Machine.sharedNumber` holds two pairs under the number 1, with the leads 10 and 20. -/
theorem not_pairSource : ¬ Obligations.PairSource := by
  intro h
  obtain ⟨-, -, -, hpropose, -⟩ := h sharedNumber 1 (sharedPair 10) rfl rfl
  have hacts := hpropose rfl (by decide) rfl rfl (by decide) rfl
  have hstated := (congrArg cutovers hacts).symm.trans cutovers_proposeSend_sharedNumber
  exact absurd hstated (by decide)

end Sys2Proof
end

section
/-! Codeword reads and XOR rebuilds of commands (R236, R238): where two commands stand under one stamp, each goes on by its own record. -/

namespace Sys2Proof.Machine

/-- A GET under stamp 1 whose page has been rebuilt, with the other pages of its row read: its record begins in the last unit of its page, and
it returns the version of a stamp. -/
def rebuildingGet (version : Stamp) : Work :=
  { stamp := 1, carrier := .mgmt, fn := 0, area := [], phase := .media, loc := some { segment := 0, unit := 63 }, left := 1
    result := { version := version }
    desc := { opcode := 1, flags := 0, tag := 0, ns := 0, keyLen := 0, valLen := 0, timeout := 0, aux := 0, stampArg := 0, valAddr := 0,
              keyField := 0 } }

/-- A device whose time runs, with two GETs under one stamp: the first finds no version, and its record counts as one unit; the record of the
second has two, and its last lies on the next page. -/
def sharedStamp : State := { State.reset with
  mode := .service, time := { State.reset.time with running := true }, works := [rebuildingGet 0, rebuildingGet 7]
  index := { State.reset.index with keys := [{ ns := 0, fp := 0, key := [], versions := [{ stamp := 7, value := List.replicate 200 0 }] }] } }

/-- The phases of the commands that a step leaves in flight. -/
def phases : Host.Outcome State Fault Refusal → List Phase
  | .next s => s.works.map Work.phase
  | _ => []

/-- The model sends the first GET to the cipher, and has the second read its next page. -/
theorem phases_xorRebuild_sharedStamp : phases (exec (.xorRebuild 1 true) sharedStamp) = [.cipher, .media] := by decide +kernel

end Sys2Proof.Machine

namespace Sys2Proof

open Machine

/-- Refutes O53: it has an XOR rebuild move every command of the stamp on by the record of the first, where the model takes the record of each;
`Machine.sharedStamp` holds two GETs under the stamp 1, the record of one on the rebuilt page and that of the other reaching into the next. Col
gives no stamp twice (R30), but the statement speaks of every state. -/
theorem not_mediaReadsAndPrograms : ¬ Obligations.MediaReadsAndPrograms := by
  intro ⟨hreads, _⟩
  obtain ⟨_, _, _, _, hxor⟩ := hreads sharedStamp _ rfl rfl rfl (by decide) rfl
  obtain ⟨_, hrebuilt⟩ := hxor 1 (rebuildingGet 0) { segment := 0, unit := 63 } 3 1 0 1 1 _ rfl rfl rfl
  have hexec := hrebuilt (by decide) rfl rfl rfl rfl
  have hphases := (congrArg phases hexec).symm.trans phases_xorRebuild_sharedStamp
  exact absurd hphases (by decide +kernel)

end Sys2Proof
end

section
/-! Copying in the background (R229, R230, R236, R255, R256, R274): the request of a step, its end, what it has read, and its effect. -/

namespace Sys2Proof.Machine

section
variable {s t u : State}

/-! ## The end of a step at its stamp -/

/-- The edge that stamps the only event of a grain leaves what the event leaves. -/
theorem eventGives_of_applyEvent {e : Event} (hc : s.clocked = true) (hq : s.quiet = true) (hg : s.nextGrain < Config.maxGrain)
    (h : (atSlotZero s).applyEvent e (stampOf s.grain 0) = t) : EventGives s e t := by
  have hedge := State.grainEdge_arrive hq (State.clocked_iff.1 hc).1 e
  rw [h] at hedge
  have hclocked : (s.arrive e).clocked = true := hc
  have hroom : ¬ Config.maxGrain ≤ (s.arrive e).nextGrain + 0 := Nat.not_le.2 hg
  rw [EventGives, exec_grainEdge, execGrainEdge, hclocked, if_neg (by simp), if_neg hroom, State.idleGrains, hedge]
  rfl

/-- `t` is `s` but for the media, the events and the recorder. -/
def MediaRead (s t : State) : Prop := ∃ d e x, t = { s with delta := d, events := e, terrace := x }

theorem MediaRead.refl (s : State) : MediaRead s s := ⟨_, _, _, rfl⟩

theorem MediaRead.trans (h : MediaRead s t) (h' : MediaRead t u) : MediaRead s u := by
  obtain ⟨_, _, _, rfl⟩ := h
  obtain ⟨_, _, _, rfl⟩ := h'
  exact ⟨_, _, _, rfl⟩

theorem MediaRead.ite {c : Prop} [Decidable c] (h : MediaRead s t) (h' : MediaRead s u) : MediaRead s (if c then t else u) := by
  split
  · exact h
  · exact h'

/-- A fold of steps that each only read. -/
theorem MediaRead.foldl {α : Type} {f : State → α → State} (hf : ∀ s a, MediaRead s (f s a)) (l : List α) (s : State) :
    MediaRead s (l.foldl f s) := by
  induction l generalizing s with
  | nil => exact .refl s
  | cons a l ih => exact (hf s a).trans (ih _)

section
variable (s : State)

theorem State.updDelta_mediaRead (f : Delta → Delta) : MediaRead s (s.updDelta f) := ⟨_, _, _, rfl⟩

theorem State.raise_mediaRead (source fn : Nat) (st : Stamp) (type : Nat) (data : BitVec 128) : MediaRead s (s.raise source fn st type data) := by
  obtain ⟨e, x, h⟩ := s.raise_frame source fn st type data
  exact ⟨_, _, _, h⟩

theorem State.raiseLimited_mediaRead (source sub fn : Nat) (st : Stamp) (type : Option Nat) (data : Nat → BitVec 128) :
    MediaRead s (s.raiseLimited source sub fn st type data) := by
  obtain ⟨e, x, h⟩ := s.raiseLimited_frame source sub fn st type data
  exact ⟨_, _, _, h⟩

theorem State.countCodeword_mediaRead (c soft senses : Nat) : MediaRead s (s.countCodeword c soft senses) := s.updDelta_mediaRead _
theorem State.updDie_mediaRead (c d : Nat) (f : Die → Die) : MediaRead s (s.updDie c d f) := s.updDelta_mediaRead _

theorem State.setLevel_mediaRead (c d m j : Nat) : MediaRead s (s.setLevel c d m j) := by
  obtain ⟨e, x, h⟩ := State.record_frame _ _ _ _
  exact (s.updDie_mediaRead c d _).trans (.ite (State.raise_mediaRead ..) ⟨_, _, _, h⟩)

theorem State.retried_mediaRead (c d m j : Nat) : MediaRead s (s.retried c d m j) :=
  (s.updDie_mediaRead c d _).trans (.ite (State.setLevel_mediaRead ..) (.refl _))

theorem State.goodRead_mediaRead (c d m level : Nat) : MediaRead s (s.goodRead c d m level) :=
  .ite (s.updDie_mediaRead ..) (s.updDie_mediaRead ..)

/-- A codeword that has been read counts, and may move its die's start level. -/
theorem State.codewordRead_mediaRead (c d m : Nat) (o : CodewordOutcome) : MediaRead s (s.codewordRead c d m o) := by
  have hstart (b : Bool) (f : Die → Die) : MediaRead s (if b = true then s.updDie c d f else s) := .ite (s.updDie_mediaRead ..) (.refl s)
  cases o with
  | hard j bits =>
    exact (hstart _ _).trans ((State.countCodeword_mediaRead ..).trans (.ite (.refl _) (.ite (State.setLevel_mediaRead ..)
      (.ite (.ite (State.goodRead_mediaRead ..) (State.updDie_mediaRead ..)) (State.retried_mediaRead ..)))))
  | soft j =>
    exact (hstart _ _).trans ((State.countCodeword_mediaRead ..).trans (.ite (.refl _)
      (.ite (State.updDie_mediaRead ..) (State.retried_mediaRead ..))))
  | failed => exact (hstart _ _).trans ((State.countCodeword_mediaRead ..).trans (State.updDie_mediaRead ..))

theorem State.queueRefresh_mediaRead (n cause : Nat) : MediaRead s (s.queueRefresh n cause) := by
  rw [State.queueRefresh]
  split
  · exact .refl s
  · exact .ite (.refl s) ((s.updDelta_mediaRead _).trans (State.raiseLimited_mediaRead ..))

theorem State.rebuilt_mediaRead (l : Loc) (c : Nat) : MediaRead s (s.rebuilt l c) :=
  (s.updDelta_mediaRead _).trans ((State.raiseLimited_mediaRead ..).trans (State.queueRefresh_mediaRead ..))

theorem State.sourceRead_mediaRead (l : Loc) (reads : List CodewordOutcome) (lost : Bool) : MediaRead s (s.sourceRead l reads lost) := by
  rw [State.sourceRead]
  split
  · exact .refl s
  · exact MediaRead.foldl (fun t e => (t.codewordRead_mediaRead ..).trans (.ite (State.rebuilt_mediaRead ..) (.refl _))) _ s

/-- What a step has read leaves all but the media, the events and the recorder. -/
theorem State.stepRead_mediaRead (k : StepRun) : MediaRead s (s.stepRead k) := by
  rw [State.stepRead]
  split
  · exact .refl s
  · exact .ite (.refl s) (State.sourceRead_mediaRead ..)

end

/-! ## What a step has read (R236, R255) -/

section
variable {k : StepRun} {n : Nat} {p : Placed} {g : Segment} (ht : k.target = some (n, p))
include ht

/-- A record held in Basin, and a step that reads no codeword, leave everything as it was. -/
theorem State.stepRead_nothing (h : s.inBasin { segment := n, unit := p.unit } p.units = true ∨ k.reads = []) : s.stepRead k = s := by
  simp only [State.stepRead, ht]
  split
  · rfl
  · next hb =>
    rw [h.resolve_left hb, State.sourceRead]
    split <;> rfl

theorem State.stepRead_one (hg : s.segment? n = some g) (hb : s.inBasin { segment := n, unit := p.unit } p.units = false)
    {o : CodewordOutcome} (hr : k.reads = [o]) {ch : Nat} (hch : ch = codewordChannel n (s.delta.kOf g.slc) (codewordOf p.unit))
    (hy : t = s.codewordRead ch (s.delta.dieIndex g.group) (b2n !g.slc) o) :
    s.stepRead k = if o = .failed ∧ (!k.step.lost) = true then t.rebuilt { segment := n, unit := p.unit } ch else t := by
  subst hch hy
  simp only [State.stepRead, ht]
  rw [if_neg (by simp [hb]), State.sourceRead, hg, hr]
  rfl

end

theorem MediaRead.handlePoisoned (h : MediaRead s t) (x : Handle) : t.handlePoisoned x = s.handlePoisoned x := by
  obtain ⟨_, _, _, rfl⟩ := h
  rfl

theorem MediaRead.live (h : MediaRead s t) (p : Placed) (n : Nat) : t.live p n = s.live p n := by
  obtain ⟨_, _, _, rfl⟩ := h
  rfl

/-- The state in which a step's die is free and its record has been read. -/
def State.stepEnded (s : State) (k : StepRun) : State :=
  (s.updDelta fun d => { d with
    running := d.running.filter fun e => e.2 != .step k.id, steps := d.steps.filter fun z => z.id != k.id }).stepRead k

theorem State.stepEnded_mediaRead (s : State) (k : StepRun) : MediaRead s (s.stepEnded k) :=
  (s.updDelta_mediaRead _).trans (State.stepRead_mediaRead ..)

section
variable {k : StepRun} {h : Handle} (hk : s.step? k.id = some k) (hh : k.handle = some h)
include hk hh

/-- A poisoned buffer ends a step without its effect (R274). -/
theorem State.stepDoneApply_poisoned (hp : s.handlePoisoned h = true) :
    s.stepDoneApply k.id = ((s.stepEnded k).poisonUsed (handleWord h) 7 0).presentRelease h k.step.owner 0 := by
  have hpoison := ((s.stepEnded_mediaRead k).handlePoisoned h).trans hp
  simp only [State.stepDoneApply, hk, hh]
  exact congrArg (State.presentRelease · h k.step.owner 0) (if_pos hpoison)

section
variable (hp : s.handlePoisoned h = false)
include hp

theorem State.stepDoneApply_runs (ht : k.target = none ∨ ∃ n p, k.target = some (n, p) ∧ s.live p n = true) :
    s.stepDoneApply k.id = ((s.stepEnded k).stepRun k.step).presentRelease h k.step.owner 0 := by
  have hgood : ¬ (s.stepEnded k).handlePoisoned h = true := by rw [(s.stepEnded_mediaRead k).handlePoisoned, hp]; simp
  obtain ht | ⟨n, p, ht, hl⟩ := ht
  · simp only [State.stepDoneApply, hk, hh, ht]
    exact congrArg (State.presentRelease · h k.step.owner 0) (if_neg hgood)
  · have hlive := ((s.stepEnded_mediaRead k).live p n).trans hl
    simp only [State.stepDoneApply, hk, hh, ht]
    exact congrArg (State.presentRelease · h k.step.owner 0) ((if_neg hgood).trans (if_pos hlive))

theorem State.stepDoneApply_dead {n : Nat} {p : Placed} {lost : Bool} (ht : k.target = some (n, p)) (hl : s.live p n = false)
    (hstep : k.step = .gc lost) : s.stepDoneApply k.id = ((s.stepEnded k).deadCopy 3 p.units).presentRelease h k.step.owner 0 := by
  have hgood : ¬ (s.stepEnded k).handlePoisoned h = true := by rw [(s.stepEnded_mediaRead k).handlePoisoned, hp]; simp
  have hdead : ¬ (s.stepEnded k).live p n = true := by rw [(s.stepEnded_mediaRead k).live, hl]; simp
  simp only [State.stepDoneApply, hk, hh, ht, hstep]
  exact congrArg (State.presentRelease · h _ 0) ((if_neg hgood).trans (if_neg hdead))

end

end

/-! ## Which segment a step takes (R229, R230, R256) -/

theorem State.stepRun_gc_stopped (hc : s.copies = false) (lost : Bool) : s.stepRun (.gc lost) = s := by
  show s.gcStep lost = s
  rw [State.gcStep]
  split
  · exact if_neg (by simp [hc])
  · rfl

theorem State.stepRun_fold_stopped (hc : s.copies = false) (lost : Bool) : s.stepRun (.fold lost) = s := by
  show s.foldStep lost = s
  rw [State.foldStep]
  split
  · exact if_neg (by simp [hc])
  · rfl

theorem State.stepRun_refresh_stopped (hc : s.copies = false) (lost : Bool) : s.stepRun (.refresh lost) = s := if_pos (by simp [hc])

section
variable (h : ∀ e ∈ s.delta.segments, e.2.settled = false) (lost : Bool)
include h

theorem State.stepRun_gc_unsettled : s.stepRun (.gc lost) = s := by
  have hnone : s.gcVictim = none := by
    rw [State.gcVictim, List.filter_eq_nil_iff.2 fun e he => by simp [h e he]]
    rfl
  show s.gcStep lost = s
  rw [State.gcStep, hnone]

theorem State.stepRun_fold_unsettled : s.stepRun (.fold lost) = s := by
  have hnone : s.foldVictim = none := by
    simp only [State.foldVictim]
    rw [List.filter_eq_nil_iff.2 fun e he => by simp [h e he]]
    rfl
  show s.foldStep lost = s
  rw [State.foldStep, hnone]

theorem State.stepRun_refresh_unsettled : s.stepRun (.refresh lost) = s := by
  have hnone : s.refreshVictim = none := by
    rw [State.refreshVictim, List.filter_eq_nil_iff.2 fun e he => by simp [h e he]]
    rfl
  show s.refreshStep lost = s
  simp only [State.refreshStep, hnone]
  exact ite_self s

end

section
variable {n : Nat} {g : Segment} (hc : s.copies = true) (hs : s.delta.segments = [(n, g)]) (hg : g.settled = true) (lost : Bool)
include hc hs hg

/-- The only segment, settled and of a native stream, is GC's victim. -/
theorem State.stepRun_gc_reclaims (h1 : 1 ≤ g.stream) (h3 : g.stream ≤ 3) : s.stepRun (.gc lost) = s.reclaim n 3 lost false := by
  have hvictim : s.gcVictim = some (n, g) := by
    rw [State.gcVictim, hs, List.filter_cons_of_pos (by simp [hg, h1, h3])]
    rfl
  show s.gcStep lost = _
  rw [State.gcStep, hvictim]
  exact if_pos hc

/-- The only segment, settled, is folded while the SLC budget is passed. -/
theorem State.stepRun_fold_reclaims (h0 : g.stream = 0) (hb : s.slcBudget < s.delta.slcInUse) :
    s.stepRun (.fold lost) = s.reclaim n 1 lost true := by
  have hvictim : s.foldVictim = some (n, g) := by
    simp only [State.foldVictim]
    rw [hs, List.filter_cons_of_pos (by simp [hg, h0, hb])]
    rfl
  show s.foldStep lost = _
  rw [State.foldStep, hvictim]
  exact if_pos hc

/-- The only segment, settled and queued, is refreshed as GC copies. -/
theorem State.stepRun_refresh_reclaims (h1 : 1 ≤ g.stream) (h3 : g.stream ≤ 3) (hr : g.refresh = true) (hf : g.failed = false) :
    s.stepRun (.refresh lost) = s.reclaim n 3 lost false := by
  have hvictim : s.refreshVictim = some (n, g) := by
    rw [State.refreshVictim, hs, List.filter_cons_of_pos (by simp [hg, hr, hf])]
    rfl
  show s.refreshStep lost = _
  simp only [State.refreshStep, hvictim]
  rw [if_neg (by simp [hc]), if_neg (by omega), if_pos h3]

end

/-! ## The next record of a segment, and its release (R230, R255) -/

section
variable {n : Nat} {g : Segment} (hg : s.segment? n = some g)
include hg

/-- A segment all of whose records are dead or in the lost-record list has none to take. -/
theorem State.nextLive_none (h : ∀ p ∈ g.recs, s.live p n = false ∨ (p.ns, p.fp, p.stamp) ∈ s.delta.lostList) : s.nextLive n = none := by
  rw [State.nextLive, hg, Option.bind_some, List.find?_eq_none]
  intro p hp
  obtain h | h := h p hp
  · simp [h]
  · have hlisted : (s.delta.lostList.any fun l => l.1 = p.ns && l.2.1 = p.fp && l.2.2 = p.stamp) = true :=
      List.any_eq_true.2 ⟨_, h, by simp⟩
    simp [hlisted]

theorem State.nextLive_one {p : Placed} (hr : g.recs = [p]) (hl : s.live p n = true) (hm : (p.ns, p.fp, p.stamp) ∉ s.delta.lostList) :
    s.nextLive n = some p := by
  have hlisted : (s.delta.lostList.any fun l => l.1 = p.ns && l.2.1 = p.fp && l.2.2 = p.stamp) = false := by
    rw [List.any_eq_false]
    rintro ⟨a, b, c⟩ he hsame
    simp only [Bool.and_eq_true, decide_eq_true_eq] at hsame
    obtain ⟨⟨rfl, rfl⟩, rfl⟩ := hsame
    exact hm he
  rw [State.nextLive, hg, Option.bind_some, hr, List.find?_cons_of_pos]
  simp [hl, hlisted]

theorem State.reclaimed_released (h : s.nextLive n = none) (hr : g.refresh = false) : s.reclaimed n = s.markFree n := by
  simp [State.reclaimed, h, hg, hr]

theorem State.reclaimed_refreshed (h : s.nextLive n = none) (hr : g.refresh = true) : s.reclaimed n = (s.updDelta fun d => { d with
    refreshes := inc64 d.refreshes, health := { d.health with refreshed := inc64 d.health.refreshed } }).markFree n := by
  simp [State.reclaimed, h, hg, hr]

end

theorem State.reclaim_done {n : Nat} (h : s.nextLive n = none) (stream : Nat) (lost fold : Bool) : s.reclaim n stream lost fold = s.reclaimed n := by
  rw [State.reclaim, h]

theorem State.segment?_updSegment (s : State) (m n : Nat) (f : Segment → Segment) :
    (s.updSegment m f).segment? n = if n = m then (s.segment? n).map f else s.segment? n := mapGet?_map_at ..

/-- A released segment waits for what was stamped up to now. -/
theorem State.markFree_freeAt {n : Nat} {g : Segment} (hg : s.segment? n = some g) :
    ((s.markFree n).segment? n).map Segment.freeAt = some (s.col.last + 1) := by
  rw [State.markFree, State.segment?_updSegment, if_pos rfl, hg]
  rfl

/-! ## A record that cannot be rebuilt (R255) -/

/-- A metadata write changes which logical blocks hold a log block. -/
theorem State.metaWrite_merges (s : State) (m : Nat) : ∃ l k, s.metaWrite m = { s with delta := { s.delta with merging := l, copyMerges := k } } := by
  rw [State.metaWrite]
  split <;> exact ⟨_, _, rfl⟩

section
variable {n : Nat} {p : Placed}

/-- The lost-record list takes a record, with source 130. -/
theorem State.loseRecord_listed (h : s.delta.lostList.length < Config.lostRecords) : ∃ t, s.loseRecord n p = (t, true) ∧
    t.delta.lostList = s.delta.lostList ++ [(p.ns, p.fp, p.stamp)] ∧ t.delta.segments = s.delta.segments ∧ t.index = s.index ∧ t.col = s.col ∧
    ({ fn := 0, source := 130, stamp := p.stamp, data := eventData [(8, s.locationWord { segment := n, unit := p.unit }),
      (8, p.fp.toNat)] } : Raise) ∈ t.events.raises := by
  obtain ⟨l, k, hmeta⟩ := s.metaWrite_merges 32
  rw [State.loseRecord, if_neg (Nat.not_le.2 h), hmeta]
  refine ⟨_, rfl, ?_, ?_, ?_, ?_, State.raise_mem ..⟩
  · rw [State.raise_delta]
    rfl
  · rw [State.raise_delta]
    rfl
  · rw [State.raise_index]
    rfl
  · obtain ⟨e, x, hraise⟩ := State.raise_frame _ 130 0 p.stamp 0x510 _
    rw [hraise]
    rfl

/-- A full lost-record list takes nothing: the record's segment is marked, with source 131 for the first one. -/
theorem State.loseRecord_full (h : Config.lostRecords ≤ s.delta.lostList.length) : ∃ t, s.loseRecord n p = (t, false) ∧
    t.delta.lostList = s.delta.lostList ∧ t.segment? n = (s.segment? n).map (fun g => { g with lost := true }) ∧
    (s.delta.lostFull = false →
      ({ fn := 0, source := 131, stamp := 0, data := eventData [(4, Config.lostRecords)] } : Raise) ∈ t.events.raises) := by
  have hmarked := (s.segment?_updSegment n n fun g => { g with lost := true }).trans (if_pos rfl)
  rw [State.loseRecord, if_pos h]
  refine ⟨_, rfl, ?_, ?_, fun hfirst => ?_⟩
  · split
    · rw [State.raise_delta]
      rfl
    · rfl
  · split
    · rw [State.segment?, State.raise_delta]
      exact hmarked
    · exact hmarked
  · rw [hfirst]
    exact State.raise_mem ..

section
variable {g : Segment} (hg : s.segment? n = some g)
include hg

/-- The lost-record list takes the only live record of a segment, which is released. -/
theorem State.reclaim_lost (hr : g.recs = [p]) (hf : g.refresh = false) (hl : s.live p n = true) (he : s.delta.lostList = []) (stream : Nat)
    (fold : Bool) : ∃ t, s.reclaim n stream true fold = t ∧ t.delta.lostList = [(p.ns, p.fp, p.stamp)] ∧
      (t.segment? n).map Segment.freeAt = some (s.col.last + 1) ∧
      ({ fn := 0, source := 130, stamp := p.stamp, data := eventData [(8, s.locationWord { segment := n, unit := p.unit }),
        (8, p.fp.toNat)] } : Raise) ∈ t.events.raises ∧ t.index = s.index := by
  have hnext := State.nextLive_one hg hr hl (by simp [he])
  obtain ⟨t, hlose, hlist, hsegs, hindex, hcol, hraised⟩ := State.loseRecord_listed (s := s) (n := n) (p := p) (by rw [he]; decide)
  rw [he, List.nil_append] at hlist
  have hgt : t.segment? n = some g := by rw [State.segment?, hsegs]; exact hg
  have hgone : t.nextLive n = none := State.nextLive_none hgt fun x hx => .inr (by simp_all)
  refine ⟨t.markFree n, ?_, hlist, ?_, hraised, hindex⟩
  · rw [State.reclaim, hnext]
    simp only [hlose, if_true]
    exact State.reclaimed_released hgt hgone hf
  · rw [State.markFree_freeAt hgt, hcol]

/-- A full list takes no record: its segment is kept. -/
theorem State.reclaim_listFull (hn : s.nextLive n = some p) (hfull : Config.lostRecords ≤ s.delta.lostList.length) (stream : Nat) (fold : Bool) :
    ∃ t, s.reclaim n stream true fold = t ∧ t.delta.lostList = s.delta.lostList ∧ (t.segment? n).map Segment.lost = some true ∧
      (t.segment? n).map Segment.freeAt = some g.freeAt ∧
      (s.delta.lostFull = false → ({ fn := 0, source := 131, stamp := 0, data := eventData [(4, Config.lostRecords)] } : Raise) ∈
        t.events.raises) := by
  obtain ⟨t, hlose, hlist, hseg, hraised⟩ := State.loseRecord_full (s := s) (n := n) (p := p) hfull
  rw [hg] at hseg
  refine ⟨t, ?_, hlist, ?_, ?_, hraised⟩
  · rw [State.reclaim, hn]
    simp only [hlose, if_true]
    rfl
  · rw [hseg]
    rfl
  · rw [hseg]
    rfl

end

end

/-! ## What placing a record keeps (R225, R226) -/

/-- The records of a segment. -/
def State.recsOf (s : State) (n : Nat) : Option (List Placed) := (s.segment? n).map Segment.recs

/-- What room taken for a record outside a segment leaves alone: the keys, the latest stamp, the journal buffer, the counts of what has been
copied, and the segment's own records. -/
structure PlacesBeside (n : Nat) (s t : State) : Prop where
  keys    : t.index.keys = s.index.keys
  last    : t.col.last = s.col.last
  journal : t.delta.journal = s.delta.journal
  copied  : t.delta.gcCopied = s.delta.gcCopied
  folded  : t.delta.foldCopied = s.delta.foldCopied
  recs    : ∀ l, s.recsOf n = some l → t.recsOf n = some l

section
variable {n : Nat}

theorem PlacesBeside.refl (s : State) : PlacesBeside n s s := ⟨rfl, rfl, rfl, rfl, rfl, fun _ h => h⟩

theorem PlacesBeside.trans (h : PlacesBeside n s t) (h' : PlacesBeside n t u) : PlacesBeside n s u :=
  ⟨h'.keys.trans h.keys, h'.last.trans h.last, h'.journal.trans h.journal, h'.copied.trans h.copied, h'.folded.trans h.folded,
    fun l hl => h'.recs l (h.recs l hl)⟩

section
variable (s : State)

theorem State.updSegment_beside {m : Nat} {f : Segment → Segment} (h : m ≠ n ∨ ∀ g, (f g).recs = g.recs) : PlacesBeside n s (s.updSegment m f) := by
  refine ⟨rfl, rfl, rfl, rfl, rfl, fun l hl => ?_⟩
  rw [State.recsOf, State.segment?_updSegment]
  split
  · next hm =>
    have hf := h.resolve_left (Ne.symm · hm |>.elim)
    rw [Option.map_map, ← hl]
    exact congrArg (Option.map · _) (funext hf)
  · exact hl

theorem State.updDelta_beside {f : Delta → Delta} (hsegs : ∀ d, (f d).segments = d.segments) (hj : ∀ d, (f d).journal = d.journal)
    (hc : ∀ d, (f d).gcCopied = d.gcCopied) (hf : ∀ d, (f d).foldCopied = d.foldCopied) : PlacesBeside n s (s.updDelta f) :=
  ⟨rfl, rfl, hj _, hc _, hf _, fun _ hl => (congrArg (fun m => (mapGet? m n).map Segment.recs) (hsegs _)).trans hl⟩

theorem State.updIndex_beside {f : Index → Index} (hk : ∀ i, (f i).keys = i.keys) : PlacesBeside n s (s.updIndex f) :=
  ⟨hk _, rfl, rfl, rfl, rfl, fun _ h => h⟩

theorem State.arrive_beside (e : Event) : PlacesBeside n s (s.arrive e) := ⟨rfl, rfl, rfl, rfl, rfl, fun _ h => h⟩

theorem State.raise_beside (source fn : Nat) (st : Stamp) (type : Nat) (data : BitVec 128) : PlacesBeside n s (s.raise source fn st type data) := by
  obtain ⟨e, x, h⟩ := s.raise_frame source fn st type data
  rw [h]
  exact ⟨rfl, rfl, rfl, rfl, rfl, fun _ h => h⟩

theorem State.metaWrite_beside (m : Nat) : PlacesBeside n s (s.metaWrite m) := by
  rw [State.metaWrite]
  split <;> exact s.updDelta_beside (fun _ => rfl) (fun _ => rfl) (fun _ => rfl) (fun _ => rfl)

theorem State.wearEvents_beside : PlacesBeside n s s.wearEvents := by
  rw [State.wearEvents]
  dsimp only
  have hworn (k : Nat) : PlacesBeside n s (s.updDelta fun d => { d with wearHigh := d.wearHigh ||| k }) :=
    s.updDelta_beside (fun _ => rfl) (fun _ => rfl) (fun _ => rfl) (fun _ => rfl)
  split
  · exact hworn _
  · exact (hworn _).trans (State.raise_beside ..)

theorem State.takeSeq_beside (k : Nat) : PlacesBeside n s (s.takeSeq k).1 := by
  rw [State.takeSeq]
  split
  · exact State.updIndex_beside (f := fun i => { i with wseq := s.index.wseq + k }) s fun _ => rfl
  · refine PlacesBeside.trans ?_ (State.metaWrite_beside _ 8)
    exact State.updIndex_beside _ fun _ => rfl

/-- Another segment under a number that no segment has. -/
theorem State.addSegment_beside {k : Nat} {g : Segment} {f : Delta → Delta} (hnew : s.segment? k = none)
    (hsegs : (f s.delta).segments = mapSet s.delta.segments k g) (hj : (f s.delta).journal = s.delta.journal)
    (hc : (f s.delta).gcCopied = s.delta.gcCopied) (hf : (f s.delta).foldCopied = s.delta.foldCopied) : PlacesBeside n s (s.updDelta f) := by
  refine ⟨rfl, rfl, hj, hc, hf, fun l hl => ?_⟩
  have hk : n ≠ k := by
    rintro rfl
    rw [State.recsOf, hnew] at hl
    cases hl
  have hget : mapGet? (f s.delta).segments n = s.segment? n := by rw [hsegs, mapGet?_mapSet, if_neg hk, State.segment?]
  exact (congrArg (Option.map Segment.recs) hget).trans hl

/-- A segment is opened under a number that no segment has. -/
theorem State.openSegment_beside {slot stream group m : Nat} {slc : Bool} (h : s.openSegment slot stream group slc = some (t, m)) :
    PlacesBeside n s t := by
  rw [State.openSegment] at h
  dsimp only at h
  split at h
  case h_1 => cases h
  case h_2 k hfree =>
    have hnew : mapGet? s.delta.segments k = none := by simpa using List.find?_some hfree
    split at h
    case isTrue => cases h
    case isFalse =>
      split at h
      case h_1 => cases h
      case h_2 =>
        injection h with h
        injection h with ht
        subst ht
        split
        · exact PlacesBeside.trans (s.addSegment_beside hnew rfl rfl rfl rfl) (State.metaWrite_beside _ 16)
        · refine PlacesBeside.trans (PlacesBeside.trans ?_ (State.metaWrite_beside _ 16)) (State.wearEvents_beside _)
          exact s.addSegment_beside hnew rfl rfl rfl rfl

theorem State.closeAt_beside (m : Nat) (upTo : Segment → Nat) : PlacesBeside n s (s.closeAt m upTo) := by
  rw [State.closeAt]
  split
  · exact .refl s
  · refine PlacesBeside.trans (t := s.updSegment m _) ?_ (State.updDelta_beside _ (fun _ => rfl) (fun _ => rfl) (fun _ => rfl) (fun _ => rfl))
    exact s.updSegment_beside (.inr fun _ => rfl)

theorem State.ckptSegment_beside {units m : Nat} (h : s.ckptSegment units = some (t, m)) : PlacesBeside n s t := by
  rw [State.ckptSegment] at h
  dsimp only at h
  split at h
  case h_1 => exact State.openSegment_beside _ h
  case h_2 =>
    split at h
    · cases h
      exact .refl _
    · have hturn {u : State} (f : Delta → NatMap Nat) : PlacesBeside n u (u.updDelta fun d => { d with turn := f d }) :=
        u.updDelta_beside (fun _ => rfl) (fun _ => rfl) (fun _ => rfl) (fun _ => rfl)
      exact ((s.closeAt_beside _ _).trans (hturn _)).trans (State.openSegment_beside _ h)

theorem State.writeFilter_beside (m : Nat) : PlacesBeside n s (s.writeFilter m) := by
  rw [State.writeFilter]
  split
  case isTrue =>
    split
    case h_1 => exact .refl s
    case h_2 h => exact (State.ckptSegment_beside _ h).trans (State.updSegment_beside _ (.inr fun _ => rfl))
  case isFalse => exact .refl s

theorem State.closeSegment_beside (m : Nat) : PlacesBeside n s (s.closeSegment m) :=
  (s.closeAt_beside m s.fullEnd).trans (State.writeFilter_beside ..)

theorem State.askPage_beside (m : Nat) : PlacesBeside n s (s.askPage m) := by
  rw [State.askPage]
  split
  · exact .refl s
  · split
    · exact .refl s
    · refine PlacesBeside.trans ?_ (State.arrive_beside ..)
      exact s.updSegment_beside (.inr fun _ => rfl)

theorem State.placeIn_beside {m units : Nat} {rec_ : Loc → Option Placed} {l : Loc} (h : s.placeIn m units rec_ = some (t, l)) (hl : l.segment ≠ n) :
    PlacesBeside n s t := by
  rw [State.placeIn] at h
  split at h
  case h_1 => cases h
  case h_2 =>
    injection h with h
    injection h with ht hloc
    subst ht hloc
    have hasked {f : Segment → Segment} : PlacesBeside n s ((s.updSegment m f).askPage m) :=
      (s.updSegment_beside (.inl hl)).trans (State.askPage_beside ..)
    split
    · exact hasked.trans (State.closeSegment_beside ..)
    · exact hasked

theorem State.placeStream_beside {stream units : Nat} {rec_ : Loc → Option Placed} {l : Loc}
    (h : s.placeStream stream units rec_ = some (t, l)) (hl : l.segment ≠ n) : PlacesBeside n s t := by
  have htake {a : State} {m : Nat} {f : Delta → NatMap Nat} (ha : PlacesBeside n s a)
      (h : ((a.placeIn m units rec_).map fun x => (x.1.updDelta fun d => { d with turn := f d }, x.2)) = some (t, l)) : PlacesBeside n s t := by
    obtain ⟨⟨b, k⟩, hplace, heq⟩ := Option.map_eq_some_iff.1 h
    injection heq with ht hk
    subst ht hk
    exact (ha.trans (State.placeIn_beside a hplace hl)).trans
      (State.updDelta_beside _ (fun _ => rfl) (fun _ => rfl) (fun _ => rfl) (fun _ => rfl))
  have hfresh {a : State} {slot turn : Nat} {slc : Bool} {f : Delta → NatMap Nat} (ha : PlacesBeside n s a)
      (h : ((a.openSegment slot stream turn slc).bind fun x =>
        (x.1.placeIn x.2 units rec_).map fun y => (y.1.updDelta fun d => { d with turn := f d }, y.2)) = some (t, l)) : PlacesBeside n s t := by
    obtain ⟨⟨b, m⟩, hopen, htaken⟩ := Option.bind_eq_some_iff.1 h
    exact htake (ha.trans (State.openSegment_beside a hopen)) htaken
  rw [State.placeStream] at h
  dsimp only at h
  split at h
  case isTrue => cases h
  case isFalse =>
    split at h
    case isTrue => exact hfresh (.refl s) h
    case isFalse =>
      split at h
      case h_1 =>
        obtain ⟨m, -, htaken⟩ := Option.bind_eq_some_iff.1 h
        exact htake (.refl s) htaken
      case h_2 =>
        split at h
        case isTrue => cases h
        case isFalse =>
          split at h
          · exact hfresh (State.closeSegment_beside ..) h
          · exact hfresh (.refl s) h

end

end

/-! ## A record copied (R66, R230, R250) -/

/-- A location that all holders have left. -/
theorem State.relocate_left {ns : Nat} {key : Bytes} {old new : Loc} (hne : new ≠ old)
    (h : ∀ k ∈ s.index.keys, ∀ x ∈ k.versions, x.loc = some old → k.ns = ns ∧ k.key = key) :
    ∀ k ∈ (s.relocate ns key old new).index.keys, ∀ x ∈ k.versions, x.loc ≠ some old := by
  intro k hk x hx
  obtain ⟨e, he, rfl⟩ := List.mem_map.1 hk
  by_cases hsame : e.ns = ns ∧ e.key = key
  · rw [if_pos hsame] at hx
    obtain ⟨y, hy, rfl⟩ := List.mem_map.1 hx
    show (if y.loc = some old then some new else y.loc) ≠ some old
    split
    · simpa using hne
    · assumption
  · rw [if_neg hsame] at hx
    exact fun hloc => hsame (h e he x hx hloc)

/-- A record whose location no version has is dead. -/
theorem State.live_left {p : Placed} {n : Nat} (h : ∀ k ∈ s.index.keys, ∀ x ∈ k.versions, x.loc ≠ some { segment := n, unit := p.unit }) :
    s.live p n = false := by
  rw [State.live, State.chain]
  cases hk : s.keyEntry p.ns p.key with
  | none => rfl
  | some k =>
    rw [List.any_eq_false]
    intro x hx
    simp [h k (List.mem_of_find?_eq_some hk) x hx]

/-- What the release of a segment behind its last record leaves alone. -/
theorem State.reclaimed_keeps {n : Nat} {g : Segment} (hg : s.segment? n = some g) (h : s.nextLive n = none) : ∃ d,
    s.reclaimed n = { s with delta := d } ∧ d.journal = s.delta.journal ∧ d.gcCopied = s.delta.gcCopied ∧
      d.foldCopied = s.delta.foldCopied ∧ (mapGet? d.segments n).map Segment.freeAt = some (s.col.last + 1) := by
  cases hr : g.refresh with
  | false => exact ⟨_, State.reclaimed_released hg h hr, rfl, rfl, rfl, State.markFree_freeAt hg⟩
  | true => exact ⟨_, State.reclaimed_refreshed hg h hr, rfl, rfl, rfl, State.markFree_freeAt hg⟩

section
variable {n stream q : Nat} {p : Placed} {v : State} {l : Loc}

/-- Without room in the journal buffer nothing is copied. -/
theorem State.reclaim_noRoom (hn : s.nextLive n = some p) (hj : s.journalRoom 1 = false) (fold : Bool) : s.reclaim n stream false fold = s := by
  rw [State.reclaim, hn]
  simp [State.copyRecord, hj]

theorem State.copyRecord_copies (hj : s.journalRoom 1 = true)
    (hp : s.placeStream stream p.units (fun l => some { p with unit := l.unit }) = some (u, l)) (hq : u.takeSeq 1 = (v, q)) :
    s.copyRecord n stream p = some ((v.relocate p.ns p.key { segment := n, unit := p.unit } l).journalPut
      [{ ns := p.ns, fp := p.fp, stamp := p.stamp, wseq := q, kind := 5, loc := l, length := p.body.value.length }]) := by
  simp only [State.copyRecord, hj, hp, hq]
  rfl

/-- The count of copied bytes that a copy of `units` units raises (R230). -/
def State.copied (s : State) (fold : Bool) (units : Nat) : State :=
  s.updDelta fun d => if fold then { d with foldCopied := satAdd max64 d.foldCopied (256 * units) }
    else { d with gcCopied := satAdd max64 d.gcCopied (256 * units) }

section
variable (s : State) (fold : Bool) (units : Nat)

theorem State.copied_segment? : (s.copied fold units).segment? n = s.segment? n := by cases fold <;> rfl
theorem State.copied_journal : (s.copied fold units).delta.journal = s.delta.journal := by cases fold <;> rfl

theorem State.copied_gcCopied : (s.copied fold units).delta.gcCopied =
    if fold then s.delta.gcCopied else satAdd max64 s.delta.gcCopied (256 * units) := by cases fold <;> rfl

theorem State.copied_foldCopied : (s.copied fold units).delta.foldCopied =
    if fold then satAdd max64 s.delta.foldCopied (256 * units) else s.delta.foldCopied := by cases fold <;> rfl

end

theorem State.reclaim_copies {w : State} (hn : s.nextLive n = some p) (h : s.copyRecord n stream p = some w) (fold : Bool) :
    s.reclaim n stream false fold = (w.copied fold p.units).reclaimed n := by
  rw [State.reclaim, hn]
  simp only [h]
  rfl

/-- The only live record of a segment is copied: its journal entry has the next write sequence, no version holds the old location, and the
segment is released. -/
theorem State.reclaim_copied {g : Segment} (hg : s.segment? n = some g) (hr : g.recs = [p]) (hl : s.live p n = true) (he : s.delta.lostList = [])
    (hj : s.journalRoom 1 = true) (hp : s.placeStream stream p.units (fun l => some { p with unit := l.unit }) = some (u, l))
    (hq : u.takeSeq 1 = (v, q)) (hother : l.segment ≠ n)
    (hkeys : ∀ k ∈ s.index.keys, ∀ x ∈ k.versions, x.loc = some { segment := n, unit := p.unit } → k.ns = p.ns ∧ k.key = p.key) (fold : Bool) :
    ∃ t, s.reclaim n stream false fold = t ∧ (t.segment? n).map Segment.freeAt = some (s.col.last + 1) ∧ t.index.wseq = v.index.wseq ∧
      t.delta.journal = v.delta.journal ++
        [{ ns := p.ns, fp := p.fp, stamp := p.stamp, wseq := q, kind := 5, loc := l, length := p.body.value.length }] ∧
      (∀ k ∈ t.index.keys, ∀ x ∈ k.versions, x.loc ≠ some { segment := n, unit := p.unit }) ∧
      t.delta.gcCopied = (if fold then s.delta.gcCopied else satAdd max64 s.delta.gcCopied (256 * p.units)) ∧
      t.delta.foldCopied = (if fold then satAdd max64 s.delta.foldCopied (256 * p.units) else s.delta.foldCopied) := by
  have hnext := State.nextLive_one hg hr hl (by simp [he])
  have hseq : PlacesBeside n u v := by
    have h := State.takeSeq_beside (n := n) u 1
    rwa [hq] at h
  have hbeside := (State.placeStream_beside s hp hother).trans hseq
  obtain ⟨f, hf, hrecs⟩ := Option.map_eq_some_iff.1 (hbeside.recs [p] (by rw [State.recsOf, hg, Option.map_some, hr]))
  have hmoved := State.relocate_left (s := v) (ns := p.ns) (key := p.key) (old := { segment := n, unit := p.unit }) (new := l)
    (fun h => hother (congrArg Loc.segment h)) (by rwa [hbeside.keys])
  have hdone := State.reclaim_copies hnext (State.copyRecord_copies hj hp hq) fold
  generalize hw : (v.relocate p.ns p.key { segment := n, unit := p.unit } l).journalPut _ = w at hdone
  have hseg : w.segment? n = some f := by rw [← hw]; exact hf
  have hdead : w.live p n = false := State.live_left (by rw [← hw]; exact hmoved)
  obtain ⟨d, hfree, hjournal, hgc, hfolded, hat⟩ := State.reclaimed_keeps (n := n) (State.copied_segment? .. |>.trans hseg)
    (State.nextLive_none (s := w.copied fold p.units) (State.copied_segment? .. |>.trans hseg) fun x hx => .inl (by
      rw [hrecs, List.mem_singleton] at hx
      rw [hx]
      exact hdead))
  rw [State.copied_journal] at hjournal
  rw [State.copied_gcCopied] at hgc
  rw [State.copied_foldCopied] at hfolded
  subst hw
  refine ⟨_, hdone.trans hfree, ?_, rfl, hjournal, hmoved, ?_, ?_⟩
  · exact hat.trans (congrArg (fun x => some (x + 1)) hbeside.last)
  · rw [← hbeside.copied]
    exact hgc
  · rw [← hbeside.folded]
    exact hfolded

end

end

end Sys2Proof.Machine

namespace Sys2Proof

open Machine

/-- Settles O54. A row asks for its step (`stepAsked_of_arrive`); the step's end is its only event (`eventGives_of_applyEvent`); what it does to
a segment is `State.reclaim` of the victim, which no victim, a dead, a lost, a copied or a kept record decides. -/
theorem backgroundCopies : Obligations.BackgroundCopies := by
  refine ⟨fun s lost hcore hc hq hg => ⟨fun reads => ⟨?gc, ?fold, ?refresh⟩, fun k h y hk hh hy => ?ends⟩, fun s k n p g ch ht hseg hch =>
    ⟨State.stepRead_nothing ht, fun hb o y hy hr => ?read⟩, fun s lost => ⟨fun hc => ⟨State.stepRun_gc_stopped hc lost,
      State.stepRun_fold_stopped hc lost, State.stepRun_refresh_stopped hc lost⟩, fun _ h => ⟨State.stepRun_gc_unsettled h lost,
        State.stepRun_fold_unsettled h lost, State.stepRun_refresh_unsettled h lost⟩, fun n g hc hs hsettled => ?only⟩⟩
  case gc => exact stepAsked_of_arrive (fun _ => Step.noConfusion) rfl hc hq hg hcore (exec_gcStep reads lost true s)
  case fold => exact stepAsked_of_arrive (fun _ => Step.noConfusion) rfl hc hq hg hcore (exec_foldingStep reads lost true s)
  case refresh => exact stepAsked_of_arrive (fun _ => Step.noConfusion) rfl hc hq hg hcore (exec_refreshStep reads lost true s)
  case ends =>
    subst hy
    have gives {t : State} (h : (atSlotZero s).stepDoneApply k.id = t) : EventGives s (.stepDone k.id) t := eventGives_of_applyEvent hc hq hg h
    exact ⟨fun hp => gives (State.stepDoneApply_poisoned (s := atSlotZero s) hk hh hp),
      fun hp ht => gives (State.stepDoneApply_runs (s := atSlotZero s) hk hh hp ht),
      fun n p hp ht hl hstep => gives (State.stepDoneApply_dead (s := atSlotZero s) hk hh hp ht hl hstep)⟩
  case read =>
    have hone := State.stepRead_one ht hseg hb hr hch hy
    refine ⟨fun h => hone.trans (if_neg ?_), fun ho hl => hone.trans (if_pos ⟨ho, by simp [hl]⟩)⟩
    rintro ⟨ho, hl⟩
    simp [h.resolve_left (not_not_intro ho)] at hl
  case only =>
    have hseg : s.segment? n = some g := by simp [State.segment?, mapGet?, hs]
    refine ⟨fun hdead => ?dead, fun p h1 h3 hr hrecs hl he => ?lost, fun p k stream u v l q hkind hrecs hl he hj hp hq hother hkeys => ?copied,
      fun p h1 h3 hr hrecs hl hfull hnew => ?full⟩
    case dead =>
      have hnone := State.nextLive_none hseg fun p hp => .inl (hdead p hp)
      exact ⟨fun h1 h3 hr => (State.stepRun_gc_reclaims hc hs hsettled lost h1 h3).trans
          ((State.reclaim_done hnone ..).trans (State.reclaimed_released hseg hnone hr)),
        fun h1 h3 hr hf => (State.stepRun_refresh_reclaims hc hs hsettled lost h1 h3 hr hf).trans
          ((State.reclaim_done hnone ..).trans (State.reclaimed_refreshed hseg hnone hr)),
        fun h0 hr hb => (State.stepRun_fold_reclaims hc hs hsettled lost h0 hb).trans
          ((State.reclaim_done hnone ..).trans (State.reclaimed_released hseg hnone hr))⟩
    case lost =>
      rw [State.stepRun_gc_reclaims hc hs hsettled true h1 h3, State.stepRun_gc_reclaims hc hs hsettled false h1 h3]
      exact ⟨State.reclaim_lost hseg hrecs hr hl he 3 false,
        fun hj => State.reclaim_noRoom (State.nextLive_one hseg hrecs hl (by simp [he])) hj false⟩
    case copied =>
      have copied := State.reclaim_copied hseg hrecs hl he hj hp hq hother hkeys
      obtain ⟨rfl, h1, h3, -, rfl⟩ | ⟨rfl, h1, h3, hr, hf, rfl⟩ | ⟨rfl, h0, -, hb, rfl⟩ := hkind
      · obtain ⟨t, ht, hat, hseq, hput, hmoved, hgc, hfolded⟩ := copied false
        exact ⟨t, (State.stepRun_gc_reclaims hc hs hsettled false h1 h3).trans ht, hat, hseq, hput, hmoved, fun _ => ⟨hgc, hfolded⟩, nofun⟩
      · obtain ⟨t, ht, hat, hseq, hput, hmoved, hgc, hfolded⟩ := copied false
        exact ⟨t, (State.stepRun_refresh_reclaims hc hs hsettled false h1 h3 hr hf).trans ht, hat, hseq, hput, hmoved,
          fun _ => ⟨hgc, hfolded⟩, nofun⟩
      · obtain ⟨t, ht, hat, hseq, hput, hmoved, hgc, hfolded⟩ := copied true
        exact ⟨t, (State.stepRun_fold_reclaims hc hs hsettled false h0 hb).trans ht, hat, hseq, hput, hmoved, nofun,
          fun _ => ⟨hfolded, hgc⟩⟩
    case full =>
      rw [State.stepRun_gc_reclaims hc hs hsettled true h1 h3]
      exact State.reclaim_listFull hseg (State.nextLive_one hseg hrecs hl hnew) hfull 3 false

end Sys2Proof

end
